-- ==== Sys2Proof/Word.lean ====
section
/-! DEFINITION. Sys2Proof/Word.lean: the plain widths of the device (R4: every multi-byte value is little-endian). -/

namespace Sys2Proof

/-- One byte of memory, payload or packet. -/
abbrev Byte := BitVec 8
/-- A 32-bit word: registers, flags, FP32 encodings. -/
abbrev W32 := BitVec 32
/-- A 64-bit word: a-registers, global addresses (R7). -/
abbrev W64 := BitVec 64
/-- A core instruction: a 128-bit little-endian frame, opcode in bits [7:0] (R4). -/
abbrev Frame := BitVec 128

end Sys2Proof
end

