-- ==== Sys2Proof/Syntax.lean ====
section
/-! DEFINITION. Sys2Proof/Syntax.lean: the commands, one constructor per row of the table of operations and events.
A core instruction carries the core that issues it and its 128-bit frame; a mailbox command carries the command area;
an event carries what the outside world gives it (which unit, which packet, which reading). -/

namespace Sys2Proof

/-- The five partners of R437, in port order. -/
inductive Port where
  | host | bmc | fm | svc | jtag
  deriving DecidableEq, Repr

/-- A mailbox command area (R440): the opcode is the constructor's, the rest of the header and the payload are here.
Payload bytes at or beyond `len` are read as zero. -/
structure MbxCmd where
  port    : Port
  tag     : W32
  len     : Nat
  rsvd    : W64
  payload : List Byte
  deriving DecidableEq, Repr

/-- A fabric packet (R344). -/
structure Packet where
  op     : BitVec 8
  flags  : BitVec 8
  src    : BitVec 16
  dst    : BitVec 16
  tag    : BitVec 16
  addr   : W64
  len    : Nat
  status : BitVec 16
  poison : BitVec 8
  rsv1   : BitVec 8
  aop    : BitVec 16
  ea     : BitVec 16
  rsv2   : BitVec 16
  val    : W32
  data   : List Byte
  /-- The virtual lane it travels on (R343): the flit's, not part of the header. -/
  vl     : Nat := 0
  deriving DecidableEq, Repr

/-- What one 10 µs sample of the Lamplighter reads (R463, R464): watts, and temperatures in 1/16 °C.
[DESIGN CHOICE, log 12] -/
structure Sample where
  watts  : Nat
  vin    : Nat
  die    : Int
  sensor : Nat
  sram   : Int
  lp     : Int
  deriving DecidableEq, Repr

/-- A datagram of the service protocol as it reaches a port (R508), its payload apart. -/
structure SvcHdr where
  port    : Nat
  seq     : W32
  session : W32
  deriving DecidableEq, Repr

/-- The commands and events of the device: one constructor per row of opcode_table.json, in the table's order.
[DESIGN CHOICE, log 3] -/
inductive Instr where
  -- control and synchronisation class, R171
  | nop (c : Nat) (f : Frame)
  | halt (c : Nat) (f : Frame)
  | seti (c : Nat) (f : Frame)
  | salu (c : Nat) (f : Frame)
  | scmp (c : Nat) (f : Frame)
  | plog (c : Nat) (f : Frame)
  | sld (c : Nat) (f : Frame)
  | sst (c : Nat) (f : Frame)
  | br (c : Nat) (f : Frame)
  | bri (c : Nat) (f : Frame)
  | lend (c : Nat) (f : Frame)
  | fsig (c : Nat) (f : Frame)
  | fwait (c : Nat) (f : Frame)
  | frd (c : Nat) (f : Frame)
  | bollard (c : Nat) (f : Frame)
  | waitu (c : Nat) (f : Frame)
  | astat (c : Nat) (f : Frame)
  | trap (c : Nat) (f : Frame)
  | phase (c : Nat) (f : Frame)
  | time (c : Nat) (f : Frame)
  | illegalOpcode (c : Nat) (f : Frame)
  /-- The `ix`-th flag signal under way reaches its flag (R186). -/
  | flagSignalApply (ix : Nat)
  | fwaitTimeout (c : Nat)
  -- matrix class, R58
  | mma (c : Nat) (f : Frame)
  | pload (c : Nat) (f : Frame)
  | tload (c : Nat) (f : Frame)
  | gwset (c : Nat) (f : Frame)
  | gwait (c : Nat) (f : Frame)
  | mmawg (c : Nat) (f : Frame)
  | accz (c : Nat) (f : Frame)
  | accst (c : Nat) (f : Frame)
  | accmv (c : Nat) (f : Frame)
  | accsv (c : Nat) (f : Frame)
  | accld (c : Nat) (f : Frame)
  | panelLoadBegin (c : Nat)
  | passStart (c : Nat)
  | gatherWindowTimeout (c : Nat)
  | panelOrderFault (c : Nat)
  -- vector and row class, R121
  | vew (c : Nat) (f : Frame)
  | vmp (c : Nat) (f : Frame)
  | vld (c : Nat) (f : Frame)
  | vst (c : Nat) (f : Frame)
  | vred (c : Nat) (f : Frame)
  | upload (c : Nat) (f : Frame)
  | pool (c : Nat) (f : Frame)
  | poolb (c : Nat) (f : Frame)
  | normf (c : Nat) (f : Frame)
  | normb (c : Nat) (f : Frame)
  | smaxf (c : Nat) (f : Frame)
  | smaxb (c : Nat) (f : Frame)
  | rstat (c : Nat) (f : Frame)
  | rfin (c : Nat) (f : Frame)
  | smst (c : Nat) (f : Frame)
  | smld (c : Nat) (f : Frame)
  -- attention class and the KV manager
  | attf (c : Nat) (f : Frame)
  | attb (c : Nat) (f : Frame)
  | kvop (c : Nat) (f : Frame)
  /-- The walk of work-list entry `entry` of core `c` finishes (R221). -/
  | walkComplete (c : Nat) (entry : Nat)
  | query (ix : Nat)
  | create (ix : Nat)
  | free (ix : Nat)
  | reserve (ix : Nat)
  | extend (ix : Nat)
  | truncate (ix : Nat)
  | stage (ix : Nat)
  | install (ix : Nat)
  | promote (ix : Nat)
  | fork (ix : Nat)
  | kvPageSpill (pool : Nat)
  /-- The `ix`-th spill copy under way ends, `ok` when its read and write succeeded (R214). -/
  | spillCopyDone (ix : Nat) (ok : Bool)
  | recordEviction (seq : Nat)
  | editLogSlotFree (seq : Nat)
  | frameRelease (pool : Nat) (entry : W32)
  -- convolution and stem class
  | conv (c : Nat) (f : Frame)
  | haloSend (c : Nat) (f : Frame)
  | haloWait (c : Nat) (f : Frame)
  | haloRelease (c : Nat) (f : Frame)
  | sconv (c : Nat) (f : Frame)
  | swgrad (c : Nat) (f : Frame)
  | spool (c : Nat) (f : Frame)
  | snorm (c : Nat) (f : Frame)
  | stemReservation (c : Nat)
  | stemGrant (e : Nat)
  | stemJobStart (e : Nat)
  | stemJobComplete (e : Nat)
  -- clip ingest
  | cmdIgSubmit (m : MbxCmd)
  | cmdIgStatus (m : MbxCmd)
  | cmdIgConfig (m : MbxCmd)
  | clipStart (e : Nat)
  | clipComplete (e : Nat)
  | clipTimeout (e : Nat)
  -- memory tiers and streams
  | atom (c : Nat) (f : Frame)
  | atomicApply (ix : Nat)
  | spost (c : Nat) (f : Frame)
  | copy (st : Nat)
  | fill (st : Nat)
  | save (st : Nat)
  | load (st : Nat)
  | kvfetch (st : Nat)
  | ingest (st : Nat)
  | redadd (st : Nat)
  | xwopen (st : Nat)
  | xwclose (st : Nat)
  | waitflag (st : Nat)
  | waitflagTimeout (st : Nat)
  | gop (st : Nat)
  | bucket (st : Nat)
  | norm (st : Nat)
  | fold (st : Nat)
  | descriptorComplete (st : Nat)
  | streamSliceExpiry (st : Nat)
  | windowSlotSwitch (unit : Nat)
  /-- Channel `ch` (0 to 95) pauses; `temp` when a temperature change is the reason (R295). -/
  | recalibrationPause (ch : Nat) (temp : Bool)
  | recalibrationPauseEnd (ch : Nat)
  /-- The scrubber visits the word or block at `addr`; `err` is 0 clean, 1 correctable, 2 uncorrectable (R291). -/
  | patrolScrub (addr : Nat) (err : Nat)
  | cmdMemPartition (m : MbxCmd)
  | cmdXwOpen (m : MbxCmd)
  | cmdXwClose (m : MbxCmd)
  | cmdXwStatus (m : MbxCmd)
  | cmdStreamCreate (m : MbxCmd)
  | cmdStreamPost (m : MbxCmd)
  | cmdStreamStatus (m : MbxCmd)
  | cmdStreamCancel (m : MbxCmd)
  | cmdStreamDestroy (m : MbxCmd)
  | cmdStreamConfig (m : MbxCmd)
  -- programs
  | cmdProgLoad (m : MbxCmd)
  | cmdProgPlace (m : MbxCmd)
  | cmdProgStart (m : MbxCmd)
  | cmdProgStatus (m : MbxCmd)
  | cmdProgFaults (m : MbxCmd)
  | cmdProgUnload (m : MbxCmd)
  | cmdProgFlag (m : MbxCmd)
  | programSliceExpiry (h : Nat)
  | coreRetire (c : Nat)
  -- the fabric link layer: link number 2n is BVnA or the whole of BVn, 2n+1 is BVnB (R348)
  | payloadFlit (link : Nat) (flit : List Byte)
  | idleFlit (link : Nat) (flit : List Byte)
  | creditInit (link : Nat) (flit : List Byte)
  | retryReq (link : Nat) (flit : List Byte)
  | resume (link : Nat) (flit : List Byte)
  | retryReqRepeat (link : Nat)
  | ackTimer (link : Nat)
  | linkRetrain (link : Nat)
  | retrainComplete (link : Nat)
  | linkDown (link : Nat)
  -- fabric packets
  | read (link : Nat) (p : Packet)
  | write (link : Nat) (p : Packet)
  | atomic (link : Nat) (p : Packet)
  | flag (link : Nat) (p : Packet)
  | mread (link : Nat) (p : Packet)
  | mwrite (link : Nat) (p : Packet)
  | fabricResponse (link : Nat) (p : Packet)
  | requestTimeout (tag : Nat)
  | gopArrive (link : Nat) (p : Packet)
  | gopRelease (link : Nat) (p : Packet)
  | gopDrain (link : Nat) (p : Packet)
  | gopDrained (link : Nat) (p : Packet)
  | gopResume (link : Nat) (p : Packet)
  | snapshotDrainLimit (tree : Nat)
  | globalOperationTimeout (tree : Nat)
  | timePacket (link : Nat) (p : Packet)
  | timeExchange
  | syncLoss
  | leavePoint
  | cmdBvPort (m : MbxCmd)
  | cmdBvRoute (m : MbxCmd)
  | cmdBvExpose (m : MbxCmd)
  | cmdBvMembers (m : MbxCmd)
  | cmdBvTree (m : MbxCmd)
  | cmdBvJoin (m : MbxCmd)
  | cmdBvLeave (m : MbxCmd)
  | cmdBvGlobal (m : MbxCmd)
  | cmdBvFrozen (m : MbxCmd)
  | cmdBvConfig (m : MbxCmd)
  | cmdBvStatus (m : MbxCmd)
  -- training services
  | bfill (c : Nat) (f : Frame)
  | optim (c : Nat) (f : Frame)
  | bucketStart (b : Nat)
  | segmentArrival (ring : Nat)
  | sparseClose (b : Nat)
  | ringTimeout (ring : Nat)
  | bucketStepComplete (b : Nat)
  | phaseStart (sp ph : Nat)
  | phaseComplete (sp ph : Nat)
  | phaseTimeout (sp ph : Nat)
  | phaseStamp (ix : Nat)
  | straggler (phid : Nat)
  | cmdTsRing (m : MbxCmd)
  | cmdTsBucket (m : MbxCmd)
  | cmdTsNorms (m : MbxCmd)
  | cmdTsStep (m : MbxCmd)
  | cmdTsStepRun (m : MbxCmd)
  | cmdTsStepStop (m : MbxCmd)
  | cmdTsPhase (m : MbxCmd)
  | cmdTsPhlog (m : MbxCmd)
  | cmdTsStatus (m : MbxCmd)
  -- host port and mailboxes
  | bar0AccessInvalid (isWrite : Bool) (off : Nat) (len : Nat)
  | plazaRead (off : Nat) (len : Nat)
  | plazaWrite (off : Nat) (data : List Byte)
  /-- `half` is 0 for bytes 0 to 3, 1 for bytes 4 to 7, 2 for one 8-byte write (R427). -/
  | pzBaseWrite (half : Nat) (v : W64)
  /-- A flush read of 4 or 8 bytes at `PZ_FLUSH` + `at` (R433). -/
  | pzFlushRead (at' : Nat) (len : Nat)
  | apertureRead (rid : BitVec 16) (off : Nat) (len : Nat)
  | apertureWrite (rid : BitVec 16) (off : Nat) (data : List Byte)
  | flushAddressRead (rid : BitVec 16) (region : Nat)
  /-- A 32-bit write of `DC_ABORT`; `prompt` when device firmware completes the abort within 40 µs (R458). -/
  | dcAbort (v : W32) (prompt : Bool)
  | dcSnapReq (v : W32)
  | registerWrite (off : Nat) (len : Nat) (v : W64)
  | cmdInfoDevice (m : MbxCmd)
  | cmdInfoInventory (m : MbxCmd)
  | cmdInfoConfig (m : MbxCmd)
  | cmdCommit (m : MbxCmd)
  | commitPoint
  | cmdStageDiscard (m : MbxCmd)
  | cmdConfigDevice (m : MbxCmd)
  | cmdRgSet (m : MbxCmd)
  /-- `prompt` as for `dcAbort`. -/
  | cmdAbort (m : MbxCmd) (prompt : Bool)
  | abortWatchdog (ix : Nat)
  | cmdReset (m : MbxCmd)
  | cmdSnapshot (m : MbxCmd)
  | longCommandComplete (st : Nat)
  | blockResetIdle (blk : Nat)
  | blockResetTmo (blk : Nat)
  -- power, clocks and reset
  | powerOnReset
  | standbyRailsValid
  | sagWarning
  | sagWarningRelease
  | sagReset
  | sagResetRelease
  | powerSample (r : Sample)
  | throttleBoundary
  /-- `thermal` chooses which of the two throttles ends (R484). -/
  | throttleEnd (thermal : Bool)
  | standbyWaitExpiry
  | droopStretch (street : Nat)
  | droopStop (street : Nat)
  | droopRecovery (street : Nat)
  | referenceClockLost
  | referenceClockRegained
  | chipWideIdleness
  | wake
  | pllRestartComplete
  | modResetNAssert
  | modResetNRelease
  | ucieLinkReset
  | watchdog
  | writePulseEnd
  | cmdPwrConfig (m : MbxCmd)
  | cmdPwrStatus (m : MbxCmd)
  -- trust, updates and field service
  | cmdSecSpdm (m : MbxCmd)
  | cmdSecNonce (m : MbxCmd)
  | cmdSecOwner (m : MbxCmd)
  | cmdSecDebug (m : MbxCmd)
  | cmdSecSession (m : MbxCmd)
  | nonceExpiry (p : Port)
  | sessionExpiry
  | cmdFwStage (m : MbxCmd)
  | cmdFwActivate (m : MbxCmd)
  | handOverPoint
  | handoverHeartbeatTimeout
  | cmdFwConfirm (m : MbxCmd)
  | cmdFwStatus (m : MbxCmd)
  | cmdErrlogRead (m : MbxCmd)
  | cmdSvcNet (m : MbxCmd)
  | discover (h : SvcHdr)
  /-- A service MBX_CMD message: its 16-byte header and payload as the command area's bytes. -/
  | mbxCmd (h : SvcHdr) (area : List Byte)
  | imgData (h : SvcHdr) (off : Nat) (data : List Byte)
  | imgReqRetry (off : Nat)
  | imageFetchTimeout
  | conIn (h : SvcHdr) (text : List Byte)
  /-- A vendor-defined MCTP message 0x10: the command area's bytes (R512). -/
  | mctpMailboxCommand (area : List Byte)
  | mctpSpdm (msg : List Byte)
  /-- One access through the 44-bit JTAG data register (R513). -/
  | mbx (dr : BitVec 44)
  | dbglock (v : W32)
  | wdtsusp (v : W32)
  | coDbgctlHaltreq (c : Nat) (v : W32)
  | coDbgctlStep (c : Nat) (v : W32)
  | coDbgctlResume (c : Nat) (v : W32)
  | cmdKvPool (m : MbxCmd)
  | cmdKvEdit (m : MbxCmd)
  | cmdKvStatus (m : MbxCmd)
  | unassignedOpcode (c : Nat) (f : Frame)
  | unassignedMailboxOpcode (op : BitVec 16) (m : MbxCmd)
  | panelLoadEnd (c : Nat)
  | passEnd (c : Nat)
  | linkUp (link : Nat)
  | blockReinitialised (blk : Nat)
  | ucieLinkRetrain
  | mctpControl (msg : List Byte)
  | arpRequest (port : Nat) (ip : W32)
  | icmpEchoRequest (port : Nat) (data : List Byte)
  | trstNAssert
  deriving DecidableEq, Repr

end Sys2Proof
end

