-- ==== Sys2Proof/Config.lean ====
section
/-! DEFINITION. Sys2Proof/Config.lean: what one module fixes, and the free values.
Every constant here is opaque: nothing can evaluate it, so a claim holds whatever its value is. -/

namespace Sys2Proof.Config

/-! ## Free values (the spec leaves the value open) -/

/-- The byte at `addr` of memory whose contents the spec does not define (R475, R297), by the seed of the range. -/
opaque freeMem (seed addr : Nat) : Byte
/-- Whether a granule of such memory reads as poisoned (R299). -/
opaque freePoison (seed granule : Nat) : Bool
/-- A fresh 64-bit value, by the model's counter. [DESIGN CHOICE, log 8] -/
opaque freeW64 (k : Nat) : W64
/-- A fresh 1,024-bit vector register value, by the model's counter (R228). [DESIGN CHOICE, log 8] -/
opaque freeVec (k : Nat) : BitVec 1024
/-- The order or moment the spec leaves open, as a number, by the model's counter. [DESIGN CHOICE, log 8] -/
opaque freeNat (k : Nat) : Nat

/-- R221 places an output row of a forward walk at QOFF from OBASE, the entry layout of R227 at OOFF: which of them. -/
opaque outRowAtQoff : Bool

/-- Local address of HOMEREG on the HOME device, which R404 gives to HOME alone. -/
opaque normHome (home : Nat) : Nat

/-! ## What one part is (identity, fuses): fixed at manufacture, not given by the spec -/

/-- Module serial number (R454). [DESIGN CHOICE, log 9] -/
opaque serial : W64
/-- Compute-die revision (R454). [DESIGN CHOICE, log 9] -/
opaque rev : Byte
/-- Power grade: true for S, false for E (R531). [DESIGN CHOICE, log 9, 171] -/
opaque gradeS : Bool
/-- Temperature grade: true for C, false for W (R531). [DESIGN CHOICE, log 171] -/
opaque gradeC : Bool
/-- Host-die variant, two ASCII characters (R531). [DESIGN CHOICE, log 171] -/
opaque hostDie : BitVec 16
/-- Boot ROM version (R454). -/
opaque romVer : W32
/-- Lamplighter version (R485 registers, `LL_ID`). -/
opaque llVer : BitVec 16
/-- Header and body of the image shipped in slot A: kind 0 device firmware, kind 1 calibration tables (R489). -/
opaque shippedHdr (kind : Nat) : List Byte
opaque shippedBody (kind : Nat) : List Byte
/-- SHA-384 of the Eurievo root key, as fused (R490). -/
opaque rootHash : BitVec 384
/-- SHA-384 of the Eurievo service authority key, as fused (R490). -/
opaque svcHash : BitVec 384
/-- Revoked signing keys, as fused (R490). -/
opaque keyRev : W32
/-- MAC address of service Ethernet port `p` (R508). -/
opaque mac (p : Nat) : BitVec 48
/-- The address DHCPv4 gives service Ethernet port `p` (R508). [DESIGN CHOICE, log 141] -/
opaque dhcpAddr (p : Nat) : W32
/-- The PCI vendor identifier of the host port, which type 0x7E messages carry (R421, R512). [DESIGN CHOICE, log 141] -/
opaque vendorId : BitVec 16
/-- The identity public key of the device certificate (R507). -/
opaque identityKey : BitVec 768

/-! ## Functions of outside standards, uninterpreted -/

/-- SHA-384 (FIPS 180-4). [DESIGN CHOICE, log 9] -/
opaque sha384 (msg : List Byte) : BitVec 384
/-- ECDSA P-384 verification (FIPS 186-5) of `sig` over `digest` under `key`. [DESIGN CHOICE, log 9] -/
opaque ecdsaOk (key sig : List Byte) (digest : BitVec 384) : Bool
/-- The true random number generator's `k`-th nonce (R501). [DESIGN CHOICE, log 9] -/
opaque nonce (k : Nat) : BitVec 256
/-- Does a DER certificate chain parse and end in a certificate of the identity key (R507)? -/
opaque chainOk (chain : List Byte) : Bool
/-- The SPDM 1.2 responder (R506): the answer to a message, given the messages of this connection so far and the
measurements' source record. [DESIGN CHOICE, log 9] -/
opaque spdmAnswer (transcript : List (List Byte)) (security : List Byte) (msg : List Byte) : List Byte

/-- The answer to an MCTP control message (R512), given the earlier ones. [DESIGN CHOICE, log 9, 141] -/
opaque mctpControl (earlier : List (List Byte)) (msg : List Byte) : List Byte

/-- What the standards find in the units of a clip read so far (R271, R274, R281): 0 when the last selected frame is output, 6 when more
units are needed, 1 a syntax error or forbidden value, 2 a missing reference frame, 3 an unsupported tool, 5 changed dimensions. -/
opaque clipReason (codec : Nat) (units : List (List Byte)) (frames : Nat) : Nat
/-- Frames reconstructed before the last selected frame is output (R274). -/
opaque clipDecoded (codec : Nat) (units : List (List Byte)) (frames : Nat) : Nat
/-- What a bitstream says it is (R269): profile, bits per sample, chroma (0 4:0:0, 1 4:2:0, 2 4:2:2, 3 4:4:4) and ten times its level.
[DESIGN CHOICE, log 9] -/
opaque clipForm (codec : Nat) (units : List (List Byte)) : Nat × Nat × Nat × Nat
/-- Width and height of the first decoded frame and the flags of the bitstream (R270, R275): bit 0 full range; bits [2:1] matrix of R275
(0 unspecified, 1 BT.601, 2 BT.709, 3 BT.2020); bits [4:3] and [6:5] how far right and down of a luma sample the chroma sample lies, in
half luma samples. -/
opaque clipGeometry (codec : Nat) (units : List (List Byte)) : Nat × Nat × Nat
/-- Code value of the sample of plane `pl` at column `x` and row `y` of that plane, in presented frame `fr` (R271).
[DESIGN CHOICE, log 9] -/
opaque clipSample (codec : Nat) (units : List (List Byte)) (fr pl x y : Nat) : BitVec 10

/-- The three check bytes of the Reed–Solomon code of a data block (R293), from its 64 data bytes and its metadata byte: the spec gives the
code's reach and not its generator. [DESIGN CHOICE, log 9] -/
opaque rsCheck (block : List Byte) : BitVec 24

end Sys2Proof.Config
end

