-- ==== Sys2Proof/Machine/Num.lean ====
section
/-! DEFINITION. Sys2Proof/Machine/Num.lean: number formats, exact values and the one rounding (R88 to R105). -/

namespace Sys2Proof.Machine

/-- The formats of R88. -/
inductive Fmt where
  | fp32 | bf16 | fp16 | e4m3 | e5m2 | mxe4m3 | mxe5m2 | mxe3m2 | mxe2m3 | mxe2m1 | mxint8 | int8 | uint8 | xw
  deriving DecidableEq, Repr

/-- Format codes of R88; 0xD and 0xF are reserved. -/
def Fmt.ofCode : Nat → Option Fmt
  | 0 => some .fp32 | 1 => some .bf16 | 2 => some .fp16 | 3 => some .e4m3 | 4 => some .e5m2
  | 5 => some .mxe4m3 | 6 => some .mxe5m2 | 7 => some .mxe3m2 | 8 => some .mxe2m3 | 9 => some .mxe2m1
  | 10 => some .mxint8 | 11 => some .int8 | 12 => some .uint8 | 14 => some .xw | _ => none

/-- The code of a format (R88). -/
def Fmt.code : Fmt → Nat
  | .fp32 => 0 | .bf16 => 1 | .fp16 => 2 | .e4m3 => 3 | .e5m2 => 4 | .mxe4m3 => 5 | .mxe5m2 => 6 | .mxe3m2 => 7
  | .mxe2m3 => 8 | .mxe2m1 => 9 | .mxint8 => 10 | .int8 => 11 | .uint8 => 12 | .xw => 14

theorem Fmt.ofCode_code (f : Fmt) : Fmt.ofCode f.code = some f := by cases f <;> rfl

/-- Element bits of R88. -/
def Fmt.bits : Fmt → Nat
  | .fp32 => 32 | .bf16 | .fp16 => 16 | .mxe3m2 | .mxe2m3 => 6 | .mxe2m1 => 4 | .xw => 128 | _ => 8

/-- Is the format a microscaling format (R90)? -/
def Fmt.isMx : Fmt → Bool
  | .mxe4m3 | .mxe5m2 | .mxe3m2 | .mxe2m3 | .mxe2m1 | .mxint8 => true
  | _ => false

/-- An exact value: NaN, an infinity, a signed zero, or the nonzero number `m * 2^e`. -/
inductive XF where
  | nan
  | inf (neg : Bool)
  | zero (neg : Bool)
  | fin (m e : Int)
  deriving DecidableEq, Repr

namespace XF

/-- The exact number `m * 2^e`, zero taking the sign given. -/
def ofDy (m e : Int) (zneg : Bool := false) : XF := if m = 0 then .zero zneg else .fin m e

def isNan : XF → Bool | .nan => true | _ => false
def isInf : XF → Bool | .inf _ => true | _ => false
def isZero : XF → Bool | .zero _ => true | _ => false
def isFinite : XF → Bool | .zero _ | .fin _ _ => true | _ => false

/-- The sign bit (false for NaN). -/
def sign : XF → Bool
  | .nan => false | .inf s => s | .zero s => s | .fin m _ => decide (m < 0)

def neg : XF → XF
  | .nan => .nan | .inf s => .inf !s | .zero s => .zero !s | .fin m e => .fin (-m) e

def abs (x : XF) : XF := if x.sign then x.neg else x

/-- Mantissa and exponent of a finite value. -/
def dy : XF → Int × Int
  | .fin m e => (m, e) | _ => (0, 0)

end XF

/-- `m1 * 2^e1 + m2 * 2^e2`, exactly. -/
def dyAdd (a b : Int × Int) : Int × Int :=
  let e := min a.2 b.2
  (a.1 * 2 ^ (a.2 - e).toNat + b.1 * 2 ^ (b.2 - e).toNat, e)

/-- Exact order of two dyadic numbers: `a < b`. -/
def dyLt (a b : Int × Int) : Bool := decide ((dyAdd b (-a.1, a.2)).1 > 0)

namespace XF

/-- Exact addition with the zero signs of IEEE 754 round to nearest (R102). -/
def add : XF → XF → XF
  | .nan, _ | _, .nan => .nan
  | .inf s, .inf t => if s = t then .inf s else .nan
  | .inf s, _ => .inf s
  | _, .inf t => .inf t
  | .zero s, .zero t => .zero (s && t)
  | .zero _, y => y
  | x, .zero _ => x
  | .fin m e, .fin n f => let r := dyAdd (m, e) (n, f); ofDy r.1 r.2

/-- Exact multiplication. -/
def mul : XF → XF → XF
  | .nan, _ | _, .nan => .nan
  | .inf s, y => if y.isZero then .nan else .inf (s != y.sign)
  | x, .inf t => if x.isZero then .nan else .inf (x.sign != t)
  | .fin m e, .fin n f => .fin (m * n) (e + f)
  | x, y => .zero (x.sign != y.sign)

def sub (x y : XF) : XF := add x y.neg

/-- `x < y` as numbers; false when either is NaN. -/
def lt : XF → XF → Bool
  | .nan, _ | _, .nan => false
  | .inf s, .inf t => s && !t
  | .inf s, _ => s
  | _, .inf t => !t
  | x, y => dyLt x.dy y.dy

def eqv (x y : XF) : Bool := !x.isNan && !y.isNan && !(lt x y) && !(lt y x)
def le (x y : XF) : Bool := lt x y || eqv x y

/-- Multiply by `2^k`. -/
def scale (k : Int) : XF → XF
  | .fin m e => .fin m (e + k) | x => x

/-- The order of MIN and MAX: −0 counts below +0 (R130). [DEDUCED, log 31] -/
def ltz (x y : XF) : Bool :=
  match x, y with
  | .zero s, .zero t => s && !t
  | _, _ => lt x y

end XF

/-- `a / 2^sh` rounded to nearest, ties to even. -/
def rne (a sh : Nat) : Nat :=
  if sh = 0 then a else
  let q := a >>> sh
  let r := a - (q <<< sh)
  let h := 1 <<< (sh - 1)
  if r > h || (r == h && q % 2 == 1) then q + 1 else q

/-- `m * 2^e` rounded to an integer, ties to even. -/
def roundInt (m e : Int) : Int :=
  if 0 ≤ e then m * 2 ^ e.toNat
  else if m < 0 then -(rne m.natAbs (-e).toNat : Int) else rne m.natAbs (-e).toNat

/-- Parameters of the floating element layouts (R91): mantissa bits, exponent bits, bias. -/
def Fmt.layout : Fmt → Nat × Nat × Int
  | .fp32 => (23, 8, 127) | .bf16 => (7, 8, 127) | .fp16 => (10, 5, 15)
  | .e4m3 | .mxe4m3 => (3, 4, 7) | .e5m2 | .mxe5m2 => (2, 5, 15)
  | .mxe3m2 => (2, 3, 3) | .mxe2m3 => (3, 2, 1) | .mxe2m1 => (1, 2, 1)
  | _ => (0, 0, 0)

/-- Does the layout have infinities (R91)? -/
def Fmt.hasInf : Fmt → Bool
  | .fp32 | .bf16 | .fp16 | .e5m2 | .mxe5m2 => true | _ => false

/-- Sign-magnitude code of the magnitude `a * 2^e` with an unbounded exponent: the exponent field counts on past the
largest (R105). -/
def magCode (mb : Nat) (bias : Int) (a : Nat) (e : Int) : Nat :=
  if a = 0 then 0 else
  let q := max ((Nat.log2 a : Int) + e - mb) (1 - bias - mb)
  let n := if q ≤ e then a * 2 ^ (e - q).toNat else rne a (q - e).toNat
  (q - (1 - bias - mb)).toNat * 2 ^ mb + n

/-- Exact value of a floating element's code (R91, R93). -/
def decFloat (f : Fmt) (c : Nat) : XF :=
  let (mb, eb, bias) := f.layout
  let s := decide (2 ^ (mb + eb) ≤ c % 2 ^ (mb + eb + 1))
  let ef := c / 2 ^ mb % 2 ^ eb
  let mf := c % 2 ^ mb
  let sg : Int := if s then -1 else 1
  if f.hasInf && ef == 2 ^ eb - 1 then (if mf = 0 then .inf s else .nan)
  else if (f = .e4m3 || f = .mxe4m3) && ef == 15 && mf == 7 then .nan
  else if ef = 0 then (if mf = 0 then .zero s else .fin (sg * mf) (1 - bias - mb))
  else .fin (sg * (mf + 2 ^ mb : Nat)) (ef - bias - mb)

/-- Two's-complement value of the low 8 bits. -/
def sint8 (c : Nat) : Int := if c % 256 < 128 then (c % 256 : Nat) else (c % 256 : Nat) - 256

/-- Exact value of one element's code, its MX scale apart (R91, R94). -/
def decElem (f : Fmt) (c : Nat) : XF :=
  match f with
  | .mxint8 => XF.ofDy (sint8 c) (-6)
  | .int8 => XF.ofDy (sint8 c) 0
  | .uint8 => XF.ofDy (c % 256 : Nat) 0
  | .xw => .nan
  | f => decFloat f c

/-- Apply an E8M0 scale byte (R95, R96). -/
def withScale (x : XF) (s : Nat) : XF := if s = 255 then .nan else x.scale ((s : Int) - 127)

/-- What a conversion reports: overflow to infinity, saturation, invalid (R105). -/
structure CvtFlags where
  ovf : Bool
  sat : Bool
  inv : Bool
  deriving DecidableEq, Repr

def CvtFlags.none : CvtFlags := ⟨false, false, false⟩
def CvtFlags.or (a b : CvtFlags) : CvtFlags := ⟨a.ovf || b.ovf, a.sat || b.sat, a.inv || b.inv⟩

/-- Code of the largest finite magnitude of a floating layout (R91). -/
def Fmt.maxCode : Fmt → Nat
  | .fp32 => 0x7F7FFFFF | .bf16 => 0x7F7F | .fp16 => 0x7BFF | .e4m3 | .mxe4m3 => 0x7E | .e5m2 | .mxe5m2 => 0x7B
  | .mxe3m2 | .mxe2m3 => 0x1F | .mxe2m1 => 7 | _ => 0

/-- Canonical NaN (R93). -/
def Fmt.nanCode : Fmt → Nat
  | .fp32 => 0x7FC00000 | .bf16 => 0x7FC0 | .fp16 => 0x7E00 | .e4m3 => 0x7F | .e5m2 => 0x7E | _ => 0

/-- Conversion of an exact value to a non-MX destination (R105). -/
def convert (f : Fmt) (x : XF) : Nat × CvtFlags :=
  let n0 := CvtFlags.none
  match f with
  | .int8 =>
    match x with
    | .nan => (0, { n0 with inv := true })
    | .inf s => (if s then 0x80 else 0x7F, { n0 with sat := true })
    | .zero _ => (0, n0)
    | .fin m e =>
      let r := roundInt m e
      if r < -128 then (0x80, { n0 with sat := true }) else if 127 < r then (0x7F, { n0 with sat := true })
      else ((r % 256).toNat, n0)
  | .uint8 =>
    match x with
    | .nan => (0, { n0 with inv := true })
    | .inf s => (if s then 0 else 0xFF, { n0 with sat := true })
    | .zero _ => (0, n0)
    | .fin m e =>
      let r := roundInt m e
      if r < 0 then (0, { n0 with sat := true }) else if 255 < r then (0xFF, { n0 with sat := true })
      else (r.toNat, n0)
  | f =>
    let (mb, eb, bias) := f.layout
    let sb := 2 ^ (mb + eb)
    match x with
    | .nan => (f.nanCode, n0)
    | .inf s =>
      if f.hasInf then ((if s then sb else 0) + (f.maxCode + 1), n0) else (0x7F, { n0 with inv := true })
    | .zero s => (if s then sb else 0, n0)
    | .fin m e =>
      let c := magCode mb bias m.natAbs e
      let s := if m < 0 then sb else 0
      if c ≤ f.maxCode then (s + c, n0)
      else if f.hasInf then (s + (f.maxCode + 1), { n0 with ovf := true })
      else (s + f.maxCode, { n0 with sat := true })

/-- Exact value of an FP32 encoding. -/
def dec32 (w : W32) : XF := decFloat .fp32 w.toNat
/-- Round an exact value to FP32. -/
def enc32 (x : XF) : W32 := BitVec.ofNat 32 (convert .fp32 x).1
/-- Round an exact value to FP32, with its overflow. -/
def enc32f (x : XF) : W32 × Bool := let r := convert .fp32 x; (BitVec.ofNat 32 r.1, r.2.ovf)

def fp32One : W32 := 0x3F800000#32
def fp32Nan : W32 := 0x7FC00000#32
def fp32NegInf : W32 := 0xFF800000#32

/-! ## Quantisation to MX formats (R97) -/

/-- `floor (log2 |m * 2^e|)` of a nonzero dyadic. -/
def floorLog2 (m e : Int) : Int := (Nat.log2 m.natAbs : Int) + e

/-- `emax` of R97. -/
def Fmt.emax : Fmt → Int
  | .mxe4m3 => 8 | .mxe5m2 => 15 | .mxe3m2 => 4 | .mxe2m3 => 2 | .mxe2m1 => 2 | _ => 0

/-- The larger magnitude of two exact values. -/
def maxMag (x y : XF) : XF := if XF.lt x.abs y.abs then y.abs else x.abs

/-- One element of a block with scale byte `s`, limited to the largest magnitude (R97). -/
def mxElem (f : Fmt) (s : Int) (v : XF) : Nat :=
  match f, v.scale (127 - s) with
  | .mxint8, .fin m e => (max (-127) (min 127 (roundInt m (e + 6))) % 256).toNat
  | .mxint8, _ => 0
  | f, x =>
    let (mb, eb, bias) := f.layout
    let sb := 2 ^ (mb + eb)
    match x with
    | .fin m e => (if m < 0 then sb else 0) + min (magCode mb bias m.natAbs e) f.maxCode
    | x => if x.sign then sb else 0

/-- Quantise a block: the scale byte and the element codes (R97). -/
def mxQuant (f : Fmt) (vs : List XF) : Nat × List Nat :=
  if vs.any (fun v => !v.isFinite) then (0xFF, vs.map fun _ => 0) else
  match vs.foldl maxMag (.zero false) with
  | .fin m e =>
    let s := max 0 (min 0xFE (floorLog2 m e - f.emax + 127))
    (s.toNat, vs.map (mxElem f s))
  | _ => (0x7F, vs.map fun _ => 0)

/-! ## The slice sum (R98 to R101) -/

/-- Exact sum of the products of a slice, with the special values of R99 and the zero sign of R100. -/
def sliceSum (ps : List XF) : XF :=
  if ps.any XF.isNan then .nan
  else if ps.contains (.inf false) && ps.contains (.inf true) then .nan
  else if ps.contains (.inf false) then .inf false
  else if ps.contains (.inf true) then .inf true
  else
    let r := ps.foldl (fun a p => dyAdd a p.dy) (0, 0)
    XF.ofDy r.1 r.2 (ps.all fun p => p = .zero true)

/-- Signed value of a 32-bit word. -/
def sint32 (w : W32) : Int := w.toInt

/-! ## The compensated accumulator (R102 to R104) -/

/-- A pair of FP32 encodings: sum and compensation term. -/
structure Pair where
  s : W32
  c : W32
  deriving DecidableEq, Repr

def Pair.zero : Pair := ⟨0#32, 0#32⟩

/-- How the device takes in a pair from outside (R103). -/
def Pair.norm (p : Pair) : Pair :=
  if !(dec32 p.s).isFinite then ⟨enc32 (dec32 p.s), 0#32⟩
  else if !(dec32 p.c).isFinite then ⟨enc32 (dec32 p.c), 0#32⟩ else p

/-- One addition into a pair, with its overflow (R102, R103). -/
def Pair.add (p : Pair) (x : W32) : Pair × Bool :=
  let p := p.norm
  let s := dec32 p.s; let v := dec32 x
  if !(s.isFinite && v.isFinite) then (⟨enc32 (s.add v), 0#32⟩, false) else
  let ex := s.add v
  let (t, ov) := enc32f ex
  if ov then (⟨t, 0#32⟩, true) else
  let d := dyAdd ex.dy (-(dec32 t).dy.1, (dec32 t).dy.2)
  let (c, oc) := enc32f ((dec32 p.c).add (XF.ofDy d.1 d.2))
  if oc then (⟨c, 0#32⟩, true) else (⟨t, c⟩, false)

/-- The exact value of a pair, rounded once when it is read (R104). -/
def Pair.value (p : Pair) : XF := let p := p.norm; (dec32 p.s).add (dec32 p.c)

/-- `rn(s + c)`. -/
def Pair.rn (p : Pair) : W32 := enc32 p.value

/-! ## XW128 (R109 to R116) -/

/-- An element of a region in XW128: its class and integer. -/
inductive Xw where
  | fin (v : Int) | pinf | ninf | nan
  deriving DecidableEq, Repr

/-- Read the 16 bytes of an element as a number (R109). -/
def Xw.dec (n : Nat) : Xw :=
  match n / 2 ^ 126 % 4 with
  | 0 => let v : Nat := n % 2 ^ 126; .fin (if v < 2 ^ 125 then (v : Int) else (v : Int) - (2 : Int) ^ 126)
  | 1 => .pinf | 2 => .ninf | _ => .nan

/-- The 128 bits the device writes for an element (R109). -/
def Xw.enc : Xw → Nat
  | .fin v => (v % (2 : Int) ^ 126).toNat
  | .pinf => 2 ^ 126 | .ninf => 2 ^ 127 | .nan => 2 ^ 126 + 2 ^ 127

/-- The exact value of an element of base exponent `eb` (R116). -/
def Xw.value (eb : Int) : Xw → XF
  | .fin v => XF.ofDy v eb | .pinf => .inf false | .ninf => .inf true | .nan => .nan

/-- The open-window state of one element (R111 to R113). -/
structure XwAcc where
  sum   : Int
  pinf  : Bool
  ninf  : Bool
  nan   : Bool
  big   : Bool
  count : Nat
  deriving DecidableEq, Repr

/-- The state on opening, from the element's initial content (R111, R113). -/
def XwAcc.open (x : Xw) : XwAcc :=
  match x with
  | .fin v => ⟨v, false, false, false, false, 0⟩
  | .pinf => ⟨0, true, false, false, false, 0⟩
  | .ninf => ⟨0, false, true, false, false, 0⟩
  | .nan => ⟨0, false, false, true, false, 0⟩

/-- One addend (R111, R113, R307). -/
def XwAcc.add (a : XwAcc) (eb : Int) (x : XF) : XwAcc :=
  let a := { a with big := a.big || a.count == 2 ^ 31 - 1 }
  let n := min (a.count + 1) (2 ^ 31 - 1)
  match x with
  | .nan => { a with nan := true }
  | .inf false => { a with pinf := true }
  | .inf true => { a with ninf := true }
  | .zero _ => { a with count := n }
  | .fin m e =>
    let q := roundInt m (e - eb)
    { a with count := n, sum := a.sum + q, big := a.big || decide (2 ^ 125 ≤ q.natAbs) }

/-- Is every addend finite? -/
def XwAcc.finite (a : XwAcc) : Bool := !(a.nan || a.pinf || a.ninf)

/-- Does the sum exceed the window (R113, R307)? [DEDUCED, log 67] -/
def XwAcc.exceeded (a : XwAcc) : Bool :=
  a.big || decide (a.sum < -(2 ^ 125)) || decide (2 ^ 125 ≤ a.sum)

/-- The shadow word (R307). -/
def XwAcc.shadow (a : XwAcc) : W64 :=
  let low : Int := (a.sum + (2 : Int) ^ 125) % (2 : Int) ^ 126 - (2 : Int) ^ 125
  BitVec.ofNat 64 ((if a.big then 2 ^ 63 else 0) + a.count * 2 ^ 32) ||| (BitVec.ofInt 32 ((a.sum - low) / (2 : Int) ^ 126)).setWidth 64

/-- The stored element (R112, R114), also what a read of an open element gives (R115). -/
def XwAcc.result (a : XwAcc) : Xw :=
  if a.nan || (a.pinf && a.ninf) then .nan
  else if a.pinf then .pinf else if a.ninf then .ninf
  else if a.exceeded then .nan else .fin a.sum

end Sys2Proof.Machine
end

