-- ==== Sys2Proof/Machine/State.lean ====
section
/-! DEFINITION. Sys2Proof/Machine/State.lean: everything the spec gives the device, as plain data, and its reset state.
Sparse tables are lists of (index, entry) in rising order of the index; an index that is not listed holds the entry
the reader names as the default. -/

namespace Sys2Proof.Machine

/-! ## Sparse tables -/

/-- A table from numbers to entries, rising, no index twice. -/
abbrev SMap (α : Type) := List (Nat × α)

/-- The entry listed at `k`. -/
def SMap.get? {α : Type} : SMap α → Nat → Option α
  | [], _ => none
  | (i, x) :: m, k => if k = i then some x else SMap.get? m k

/-- The entry at `k`, `d` where none is listed. [DEDUCED, log 169] -/
def SMap.getD {α : Type} (m : SMap α) (k : Nat) (d : α) : α := (SMap.get? m k).getD d

/-- List `v` at `k`. -/
def SMap.put {α : Type} : SMap α → Nat → α → SMap α
  | [], k, v => [(k, v)]
  | (i, x) :: m, k, v =>
    if k < i then (k, v) :: (i, x) :: m else if k = i then (k, v) :: m else (i, x) :: SMap.put m k v

/-- List nothing at `k`. -/
def SMap.del {α : Type} (m : SMap α) (k : Nat) : SMap α := m.filter fun p => !(p.1 == k)

/-- Store `v` at `k` of a table whose default is `d`: the default is never listed. [DEDUCED, log 169] -/
def SMap.setD {α : Type} [DecidableEq α] (m : SMap α) (k : Nat) (d v : α) : SMap α :=
  if v = d then SMap.del m k else SMap.put m k v

/-- Indices strictly rising. -/
def SMap.sorted {α : Type} : SMap α → Bool
  | [] => true
  | [_] => true
  | (i, _) :: (j, y) :: m => decide (i < j) && SMap.sorted ((j, y) :: m)

/-! ## Memory (R24, R298, R475) -/

/-- A range `lo ≤ a < hi` whose contents the spec does not define, with the seed of its free bytes. -/
structure Undef where
  lo   : Nat
  hi   : Nat
  seed : Nat
  deriving DecidableEq, Repr

/-- Memory by local address. An address that is not listed reads as its free byte inside an undefined range, else 0;
a granule of `pois` likewise (R299). -/
structure Memory where
  cells : List Host.Cell
  undef : List Undef
  pois  : SMap Bool
  deriving DecidableEq, Repr

/-! ## The core (chapters 02 to 07) -/

/-- A range of bytes touched: `lo ≤ a < hi` of local addresses, and whether it is written (R180). -/
structure Span where
  lo : Nat
  hi : Nat
  wr : Bool
  deriving DecidableEq, Repr

/-- What an instruction in flight touches: spans of own memory, vector registers, and whether it writes them. -/
structure Foot where
  spans : List Span
  vregs : List (Nat × Bool)
  deriving DecidableEq, Repr

/-- A queued panel load (R49 to R51, R80, R533). `owner` is 0 for PLOAD and TLOAD, else the number of the MMAWG or CONV
entry it belongs to. -/
structure PanelLoad where
  uid    : Nat
  owner  : Nat
  frame  : Frame
  pc     : Nat
  fmt    : Fmt
  kp     : Nat
  ncol   : Nat
  trans  : Bool
  base   : Nat
  stride : Nat
  sbase  : Nat
  src    : Option (List (Option Nat))
  issue  : Nat
  began  : Option Nat
  ended  : Option Nat
  data   : List (List (Option XF))
  deriving DecidableEq, Repr

/-- One streamed row of a slot: its row in the core tile, the tile, and where its elements lie (bit addresses; `none` is a
padding lane, R48) and the scale bytes of its 32-element blocks. -/
structure RowSrc where
  row    : Nat
  tile   : Nat
  addrs  : List (Option Nat)
  scales : List (Option Nat)
  deriving DecidableEq, Repr

/-- One pass: its slots not yet fed, the activation format, whether outputs start from +0, the K_p its rows were laid out
for, its number within the instruction and the slots fed before a pre-emption (R80 PASSIX, SLOT). -/
structure PassSpec where
  slots : List (List RowSrc)
  afmt  : Fmt
  fresh : Bool
  len   : Nat
  ix    : Nat
  fed   : Nat
  deriving DecidableEq, Repr

/-- What an instruction in the matrix queue does when it reaches the front. -/
inductive MKind where
  | passes (bank : Nat) (todo : List PassSpec) (own : Bool)
  | accz (bank tile count : Nat)
  | accst (bank tile count ncol : Nat) (ofmt : Fmt) (base dstr tstr : Nat) (mask : Nat) (rel : Bool)
  | accmv (bank tile vreg : Nat) (rel : Bool)
  | accsv (bank base : Nat)
  | accld (bank base : Nat)
  | gwset (base stride arm fbase tmo : Nat)
  | gwait (dst : Nat)
  /-- What CONV does before its first pass (R247): outputs of `rows` (tile, row) start at the bias or +0. -/
  | convInit (bank : Nat) (rows : List (Nat × Nat)) (bias : Option Nat) (isInt : Bool)
  deriving DecidableEq, Repr

/-- An instruction in the matrix queue (R179). `args` are the a-registers it read when it issued (R80 INSTR). -/
structure MEntry where
  uid   : Nat
  frame : Frame
  pc    : Nat
  issue : Nat
  kind  : MKind
  foot  : Foot
  args  : List W64
  deriving DecidableEq, Repr

/-- The pass that is running (R53, R78): its start, its duration, the slot to be fed next, and its panel. -/
structure Pass where
  start : Nat
  dur   : Nat
  slot  : Nat
  spec  : PassSpec
  panel : PanelLoad
  deriving DecidableEq, Repr

/-- The tap decoder of a CONV that has not finished (R246): the cycle it stands at, the loads of the tap it has reached that the panel
queue has no room for, and the loads of each tap to come; a skipped tap has none. -/
structure Decoder where
  uid  : Nat
  at'  : Nat
  held : List PanelLoad
  taps : List (List PanelLoad)
  deriving DecidableEq, Repr

/-- The gather window (R66 to R69), in cycles the core runs: `opened` is its first cycle, `since` the cycle of the first
armed arrival, `seen` the armed slots whose flags were set before the present cycle, and `due` those set before the cycle in
which its timeout closes it. -/
structure Gather where
  base   : Nat
  stride : Nat
  arm    : Nat
  fbase  : Nat
  tmo    : Nat
  since  : Option Nat
  opened : Nat
  seen   : Nat
  due    : Option Nat
  deriving DecidableEq, Repr

/-- The matrix unit of a core (R57, R80). Its times count the cycles the core runs (R77); `late` is a panel whose pass has
ended before its load (R53), and the unit restores its state until cycle `ready` (R81). `acc` is keyed by ((engine * 4 + bank) * 16 + tile) * 16 + row * 4 + column:
sum in bits [31:0], compensation term in bits [63:32]. `ints` lists the engine tiles that hold integer sums. -/
structure Matrix where
  acc       : SMap W64
  ints      : SMap Bool
  live      : BitVec 16
  loads     : List PanelLoad
  queue     : List MEntry
  decs      : List Decoder
  pass      : Option Pass
  late      : Option PanelLoad
  ready     : Nat
  prevStart : Nat
  prevEnd   : Nat
  loadEnd   : Nat
  gather    : Option Gather
  deriving DecidableEq, Repr

def Matrix.idle : Matrix :=
  { acc := [], ints := [], live := 0, loads := [], queue := [], decs := [], pass := none, late := none, ready := 0, prevStart := 0, prevEnd := 0, loadEnd := 0,
    gather := none }

/-- One slot of the micro-program store (R127). -/
structure UProg where
  ops    : List W32
  consts : List W32
  deriving DecidableEq, Repr

/-! ## Attention (chapter 06) -/

/-- The attention descriptor (R226). -/
structure AttDesc where
  pool  : Nat
  qfmt  : Fmt
  ofmt  : Fmt
  kind  : Nat
  bmen  : Bool
  tau   : W32
  win   : Nat
  ftok  : Nat
  q     : Nat
  o     : Nat
  l     : Nat
  dO    : Nat
  dD    : Nat
  dq    : Nat
  dv    : Nat
  bm    : Nat
  bmstr : Nat
  rstr  : Nat
  ring  : Nat
  park  : Nat
  rslots : Nat
  pfd   : Nat
  npark : Nat
  eflag : Nat
  deriving DecidableEq, Repr

/-- A work-list entry (R227). -/
structure AttEntry where
  seq   : Nat
  qpos  : Nat
  nrows : Nat
  kvh   : Nat
  posm  : Bool
  cont  : Bool
  qoff  : Nat
  ooff  : Nat
  loff  : Nat
  arg   : Nat
  page  : Nat
  deriving DecidableEq, Repr

/-- One walk (R215): `phase` 0 not started, 1 set aside for its record, 2 walking, 3 finished; then what it latched. -/
structure Walk where
  phase : Nat
  len   : Nat
  ver   : W32
  deriving DecidableEq, Repr

/-- An attention instruction in progress (R228). -/
structure Attn where
  uid     : Nat
  frame   : Frame
  pc      : Nat
  bwd     : Bool
  mode    : Nat
  desc    : AttDesc
  entries : List AttEntry
  walks   : List Walk
  deriving DecidableEq, Repr

/-- A lease of remote frames (R236). -/
structure Lease where
  dev    : Nat
  frames : Nat
  base   : Nat
  deriving DecidableEq, Repr

/-- A frame in use: how many page entries name it, and its last-access tick (R211, R213). -/
structure FrameRec where
  refs : Nat
  tick : Nat
  deriving DecidableEq, Repr

/-- A KV pool (R199, R202, R236). `phase`: 1 being created, 2 in use, 3 being destroyed. Frames in use are keyed by
their page-table entry; `lowDeck` and `lowLp` say that spilling has begun and has not reached twice the mark (R213). -/
structure KvPool where
  phase      : Nat
  fmt        : Fmt
  heads      : Nat
  hdim       : Nat
  pfd        : Nat
  lwm        : Nat
  deckBase   : Nat
  deckFrames : Nat
  lpBase     : Nat
  lpFrames   : Nat
  tblBase    : Nat
  maxSeq     : Nat
  maxPages   : Nat
  idleUs     : Nat
  leases     : List Lease
  frames     : SMap FrameRec
  spillDeck  : Nat
  spillLp    : Nat
  lowDeck    : Bool
  lowLp      : Bool
  deriving DecidableEq, Repr

/-- A slot of a sequence's edit log (R209). -/
structure EditSlot where
  lo     : Nat
  hi     : Nat
  old    : SMap Nat
  oldLen : Nat
  ver    : W32
  trunc  : Bool
  deriving DecidableEq, Repr

/-- A sequence record (R204). -/
structure KvSeq where
  len      : Nat
  pages    : SMap Nat
  ver      : W32
  pend     : SMap Nat
  log      : List EditSlot
  resident : Bool
  lastUse  : Nat
  deriving DecidableEq, Repr

/-- Who asked for an edit: a core with KVOP, or a command with its stream (R206). -/
inductive EditSrc where
  | core (c : Nat) (h : Nat) (req : Nat) (flag : Nat)
  | cmd (stream : Nat) (result : Nat)
  /-- Its program has stopped (R233). -/
  | gone (req : Nat)
  deriving DecidableEq, Repr

/-- An edit waiting for the KV manager (R208). `after` lists the writes of the issuing core it waits for, `bad` marks a
request that breaks its layout (R206), `arr` is its place in the order of arrival (0: on its way). -/
structure Edit where
  uid     : Nat
  src     : EditSrc
  after   : List Nat
  op      : Nat
  seq     : Nat
  arg0    : Nat
  bad     : Bool
  arr     : Nat
  deriving DecidableEq, Repr

/-- Who holds a latch: entry `entry` of the attention instruction `uid`, or a KVFETCH of a stream. -/
inductive LatchBy where
  | walk (uid entry : Nat)
  | stream (st : Nat)
  deriving DecidableEq, Repr

/-- A latch registered with the KV manager (R215), with the entries of the version it latched (R209). -/
structure Latch where
  holder : LatchBy
  seq   : Nat
  len   : Nat
  ver   : W32
  pages : SMap Nat
  deriving DecidableEq, Repr

/-- A spill copy under way (R214). `held` is its place in the order of arrival once it waits for an edit log (0: it does not). -/
structure Spill where
  pool : Nat
  frm  : Nat
  dst  : Nat
  held : Nat
  deriving DecidableEq, Repr

/-- A frame released by an edit and not yet on its free list (R210). -/
structure Release where
  pool  : Nat
  entry : Nat
  seq   : Nat
  ver   : W32
  deriving DecidableEq, Repr

/-- The KV manager (R199 to R214). Sequences are keyed by their sequence reference. -/
structure Kv where
  pools    : SMap KvPool
  seqs     : SMap KvSeq
  edits    : List Edit
  latches  : List Latch
  spills   : List Spill
  releases : List Release
  deriving DecidableEq, Repr

/-! ## Stem engines (chapter 07) -/

/-- A stem job (R258 to R262): what its core sends, and how far a pre-empted job has come (R265). -/
structure StemJob where
  uid    : Nat
  core   : Nat
  handle : Nat
  frame  : Frame
  pc     : Nat
  desc   : Nat
  held   : List Byte
  done   : Nat
  deriving DecidableEq, Repr

/-- A stem job that runs: its start, and the descriptor its engine read then (R260). [DEDUCED, log 43] -/
structure StemRun where
  job   : StemJob
  start : Nat
  desc  : List Byte
  deriving DecidableEq, Repr

/-- A stem engine: reservation list, queue of granted jobs, running job (R258). -/
structure StemEngine where
  resv : List StemJob
  que  : List StemJob
  run  : Option StemRun
  deriving DecidableEq, Repr

def StemEngine.idle : StemEngine := ⟨[], [], none⟩

/-- HALO signals of one link go one after another (R255): a signal under way names the earlier ones it waits for. -/
inductive SigDst where
  | here (core flag : Nat)
  | far (dev core flag : Nat)
  deriving DecidableEq, Repr

/-- Who sent a flag signal: a core (with its program and instruction), or the device itself. -/
inductive SigSrc where
  | core (c h : Nat) (pc : Nat) (frame : Frame)
  | dev
  deriving DecidableEq, Repr

/-- A flag signal under way (R181 to R183): operation 0 adds, 1 sets; it applies when nothing it waits for is left and
its time has come. -/
structure Sig where
  uid   : Nat
  src   : SigSrc
  dst   : SigDst
  set   : Bool
  val   : W32
  after : List Nat
  due   : Nat
  deriving DecidableEq, Repr

/-! ## Memory-side atomics and exact regions (chapter 09) -/

/-- Who issued an atomic: a core, a fabric request, or element `ix` of a stream's REDADD. -/
inductive AtomSrc where
  | core (c h : Nat) (pc : Nat) (frame : Frame) (dst : Option Nat)
  | fabric (link : Nat) (src tag vl : Nat)
  | stream (st : Nat)
  /-- Its program or stream has stopped (R380). -/
  | gone
  deriving DecidableEq, Repr

/-- An atomic operation on a local address (R302). -/
structure AtomOp where
  addr  : Nat
  op    : Nat
  okind : Nat
  ofmt  : Nat
  ea    : Int
  v1    : W64
  v2    : W64
  deriving DecidableEq, Repr

/-- An atomic that has arrived at its unit and is not applied yet (R303, R309). -/
structure Atom where
  uid  : Nat
  src  : AtomSrc
  op   : AtomOp
  held : Bool
  deriving DecidableEq, Repr

/-- An open exact region (R305, R306). `phase` as CMD_XW_STATUS reports it but for switched-out windows; `elems` is the
exact state of the elements that have taken an addend, whose results memory shows (R115); once a close has begun, the XADDs numbered
below `closeAt` had reached their units before it (R308). -/
structure Region where
  base   : Nat
  shadow : Nat
  count  : Nat
  eb     : Int
  phase  : Nat
  adds   : Nat
  elems  : SMap XwAcc
  closeAt : Nat
  deriving DecidableEq, Repr

/-- The window slots of one unit (R309): regions holding a slot, longest first, with the cycles their slices end (none: 0), and
regions waiting for one. Units 0 to 11 are the XA units, unit 12 + c is the deck atomic unit of core c. -/
structure XUnit where
  slots : List Nat
  wait  : List Nat
  ops   : W64
  due   : SMap Nat
  deriving DecidableEq, Repr

def XUnit.empty : XUnit := ⟨[], [], 0, []⟩

/-- A memory controller's counters (R291, registers of chapter 09). -/
structure Mc where
  trained : BitVec 8
  ce      : W64
  ue      : W64
  ueAddr  : W64
  longest : BitVec 16
  deriving DecidableEq, Repr

/-! ## Streams (chapter 09) -/

/-- Owner of a stream (R312). -/
inductive Owner where
  | partner (p : Port)
  | prog (h : Nat)
  deriving DecidableEq, Repr

/-- The work of a long command, done by the stream that serves it (R312). -/
inductive LongWork where
  | xwOpen (base : Nat)
  | xwClose (base : Nat)
  | kvCreate (pool : Nat)
  | kvDestroy (pool : Nat)
  | kvEdit (uid : Nat)
  | join (dev time : Nat)
  | leave
  | global (tree : Nat)
  | stepRun (sp : Nat)
  | blockReset (blk : Nat)
  | igBatch (batch : Nat)
  | fwStage (kind slot src len : Nat)
  | fwActivate (sel slot : Nat)
  deriving DecidableEq, Repr

/-- The descriptor a stream runs (R316, R318). `pos` counts the pieces begun, `wait` the remote accesses still out,
`aux` and `aux2` are the progress numbers the descriptor's type needs. -/
structure Run where
  desc   : List Byte
  core   : Nat
  pc     : Nat
  began  : Nat
  pos    : Nat
  pieces : Nat
  value  : Nat
  status : Nat
  wait   : Nat
  fin    : Bool
  aux    : Nat
  aux2   : Nat
  /-- A block reset ended it (R332). -/
  struck : Bool
  /-- 0: its result is still to be written; 1: the write is out; 2: written; 3: its flag signal is out. -/
  res    : Nat
  deriving DecidableEq, Repr

/-- A posted descriptor that waits, with the core and pc of its SPOST (R316). -/
structure Posted where
  desc : List Byte
  core : Nat
  pc   : Nat
  deriving DecidableEq, Repr

/-- A stream context (R311 to R319). `due` is the cycle its slice ends while its context is in hardware, and the cycle it was saved
while it is saved (R41, R318). -/
structure Stream where
  cls     : Nat
  owner   : Owner
  ring    : Nat
  rlog2   : Nat
  stopped : Bool
  paused  : Bool
  saved   : Bool
  due     : Nat
  posted  : W32
  done    : W32
  last    : Nat
  bytes   : W64
  queue   : List Posted
  run     : Option Run
  long    : Option LongWork
  opcode  : Nat
  tag     : W32
  result  : Nat
  deriving DecidableEq, Repr

/-- A core's SPOST that waits for room in a ring, in order (R315). -/
structure SpostWait where
  uid   : Nat
  core  : Nat
  h     : Nat
  pc    : Nat
  frame : Frame
  st    : Nat
  desc  : List Byte
  after : List Nat
  deriving DecidableEq, Repr

/-! ## Clip ingest (chapter 08) -/

/-- A clip batch in order of arrival (R286): the stream it serves, its engines, the clips not started yet, how many run,
how many ended badly, and how many records of refused clips are on their way. -/
structure Batch where
  uid  : Nat
  st   : Nat
  mask : BitVec 8
  todo : List Nat
  live : Nat
  bad  : Nat
  wait : Nat
  deriving DecidableEq, Repr

/-- The clip an engine runs (R282): its batch, its descriptor's address and bytes (none before they are read) and its
start; once its outputs are on their way, how it ended (status, reason, frames decoded, tokens), the writes still out, the channels of
its output, the tokens of which a write failed (R283), and whether its area is being filled (R284). -/
structure ClipRun where
  batch : Nat
  at'   : Nat
  desc  : List Byte
  began : Nat
  tmo   : Nat
  fin   : Option (Nat × Nat × Nat × Nat)
  wait  : Nat
  chn   : Nat
  lost  : List Nat
  fill  : Bool
  deriving DecidableEq, Repr

/-- An ingest engine's registers (R288). -/
structure IgEngine where
  run   : Option ClipRun
  done  : W64
  skip  : W64
  pix   : W64
  deriving DecidableEq, Repr

def IgEngine.idle : IgEngine := ⟨none, 0, 0, 0⟩

/-- The ingest block (R286, R288). -/
structure Ingest where
  engines : SMap IgEngine
  batches : List Batch
  rot     : Nat
  enable  : BitVec 8
  defTmo  : Nat
  hwerr   : BitVec 8
  ok      : W64
  corrupt : W64
  timed   : W64
  pixels  : W64
  deriving DecidableEq, Repr

/-! ## The Boulevard fabric (chapter 10) -/

/-- One link (R333 to R342). `credits` are the twelve counts held for the next hop, `replay` the unacknowledged payload
flits with their sequence numbers, `txq` packets that wait with their pairs, `parts` the packets received in part, by lane and
class, `nak` the time of the last RETRY_REQ while a replay is awaited, `owed` credits not yet returned.
[DESIGN CHOICE, log 173] -/
structure Link where
  state   : Nat
  since   : Nat
  txSeq   : Nat
  replay  : List (Nat × List Byte)
  txq     : List (Nat × List Byte)
  credits : SMap Nat
  rxExp   : Nat
  unacked : Nat
  ackDue  : Nat
  nak     : Option Nat
  fails   : Nat
  failSeq : Nat
  parts   : SMap (List Byte)
  owed    : SMap Nat
  deriving DecidableEq, Repr

def Link.down : Link :=
  { state := 0, since := 0, txSeq := 0, replay := [], txq := [], credits := [], rxExp := 0, unacked := 0, ackDue := 0,
    nak := none, fails := 0, failSeq := 0, parts := [], owed := [] }

/-- Committed configuration and counters of a port (BV registers). -/
structure BvPort where
  mode   : Nat
  media  : Nat
  erra   : BitVec 5
  errb   : BitVec 5
  fecc   : W64
  fecu   : W64
  replay : W64
  txf    : W64
  rxf    : W64
  deriving DecidableEq, Repr

def BvPort.off : BvPort := ⟨0, 0, 0, 0, 0, 0, 0, 0, 0⟩

/-- An exposure entry (R350); KIND 0 entries are not listed. -/
structure Expose where
  kind : Nat
  perm : BitVec 8
  dlo  : Nat
  dhi  : Nat
  base : Nat
  size : Nat
  deriving DecidableEq, Repr

/-- Who waits for data to be fetched from addresses that may lie on other devices. -/
inductive FetchKey where
  | edit (uid : Nat)
  | walk (uid entry : Nat)
  | clip (e : Nat)
  | batch (st : Nat)
  | run (st : Nat)
  | mbx (p : Nat)
  | spill (pool entry : Nat)
  | bucket (b : Nat)
  | phase (sp ph : Nat)
  deriving DecidableEq, Repr

/-- A fetch: bytes in the order asked for, how many reads are still out, the first failure, and whether poison came. -/
structure Fetch where
  key     : FetchKey
  bytes   : SMap Byte
  pois    : List Nat
  missing : Nat
  status  : Nat
  deriving DecidableEq, Repr

/-- What the device does when a request of its own completes. -/
inductive Cont where
  | drop
  | load (c h : Nat) (uid : Nat) (pc : Nat) (frame : Frame) (addr : W64) (reg size : Nat) (sext : Bool)
  | store (c h : Nat) (uid : Nat) (pc : Nat) (frame : Frame) (addr : W64)
  | atom (c h : Nat) (uid : Nat) (pc : Nat) (frame : Frame) (addr : W64) (dst : Option Nat)
  | signal (uid : Nat) (src : SigSrc)
  | halo (c h : Nat) (uid : Nat) (pc : Nat) (frame : Frame) (addr : W64)
  | fetch (key : FetchKey) (off : Nat)
  | piece (st : Nat)
  | elem (st : Nat)
  | result (st : Nat)
  | host (id : Nat)
  | ring (r : Nat)
  | bucket (b : Nat)
  | norm
  | clip (e t : Nat)
  | note (batch : Nat)
  deriving DecidableEq, Repr

/-- A request of this device: waiting for a tag, or sent and awaiting its response (R355, R379). -/
structure Req where
  pkt      : Packet
  vl       : Nat
  link     : Nat
  deadline : Nat
  prog     : Option Nat
  cont     : Cont
  epoch    : Nat
  deriving DecidableEq, Repr

/-- A line of the frozen cache (R365): its global block address and its 256 bytes. -/
structure FcLine where
  addr : Nat
  data : List Byte
  deriving DecidableEq, Repr

/-- The operation in progress on a tree (R370). -/
structure GopRun where
  kind    : Nat
  st      : Option Nat
  started : Bool
  tmoAt   : Option Nat
  data    : List Byte
  bdst    : W64
  arrived : List Nat
  sentUp  : Bool
  draining : Bool
  drained : List Nat
  sentDrained : Bool
  drainAt : Nat
  fail    : Bool
  gone    : Bool
  deriving DecidableEq, Repr

/-- A tree this device has a place in (R369). -/
structure Tree where
  parent   : Nat
  children : List Nat
  seq      : Nat
  early    : List Nat
  run      : Option GopRun
  deriving DecidableEq, Repr

/-- Fabric time and its synchronisation (R373 to R375). `ft` counts 1/60,000 ns, `slew` is what is still to be removed,
in the same unit. -/
structure FabTime where
  ft     : Nat
  slew   : Int
  sync   : Bool
  offs   : Int
  good   : Nat
  lastOk : Nat
  t1     : Option Nat
  deriving DecidableEq, Repr

/-- The fabric side of the device. -/
structure Fabric where
  ports    : SMap BvPort
  links    : SMap Link
  devState : Nat
  devnum   : Nat
  members  : SMap Bool
  routes   : SMap (BitVec 36)
  expose   : SMap Expose
  fmLo     : Nat
  fmHi     : Nat
  tmoUs    : Nat
  fcu      : Nat
  epoch    : Nat
  cache    : SMap (List FcLine)
  outst    : SMap Req
  waiting  : List Req
  fetches  : List Fetch
  trees    : SMap Tree
  time     : FabTime
  tmo      : W64
  late     : W64
  refused  : W64
  fcHit    : W64
  fcMiss   : W64
  lastReq  : Nat
  leaving  : Option Nat
  deriving DecidableEq, Repr

/-! ## Training services (chapter 11) -/

/-- A bucket's committed definition (R387). -/
structure BucketDef where
  ring   : Nat
  n      : Nat
  log2sz : Nat
  gfmt   : Fmt
  dens   : Nat
  auto   : Bool
  norm   : Bool
  resid  : Bool
  ew     : Int
  valid  : Nat
  grad   : Nat
  residual : Nat
  result : Nat
  xreg   : Nat
  spans  : W64
  nspan  : Nat
  donef  : W32
  bres   : Nat
  deriving DecidableEq, Repr

/-- One partial sum on the ring: an element of R109 with its shadow word of R307, and whether it has escaped (R397). -/
structure Part where
  elem : Nat
  shad : Nat
  esc  : Bool
  deriving DecidableEq, Repr

/-- A bucket step in progress (R392 to R402). `q` are the contributions, `sent` the sparse elements not yet sent,
`adds` how many adds and writes are still out, `phase`: 1 ring or sparse sends, 2 waiting for arrivals, 3 float path
reads, 4 ready to complete. -/
structure BucketRun where
  step   : Nat
  phase  : Nat
  q      : List XF
  wide   : Bool
  side   : Nat
  sent   : Nat
  xt     : Nat
  adds   : Nat
  arrT   : Nat
  arrSeg : Nat
  final  : List Part
  spans  : List (Nat × Nat)
  status : Nat
  path   : Nat
  wrote  : Bool
  st     : Option Nat
  began  : Nat
  deriving DecidableEq, Repr

/-- A bucket (R390, R391, R416). -/
structure Bucket where
  df     : BucketDef
  fill   : Nat
  full   : Bool
  go     : Option (Option Nat)
  steps  : Nat
  run    : Option BucketRun
  lastPath   : Nat
  lastStatus : Nat
  lastSide   : Nat
  lastSent   : W64
  deriving DecidableEq, Repr

/-- A segment on its way to the successor: its bytes, writes still out, and whether its SEQ has been written (R400). -/
structure Sending where
  bytes   : List Byte
  missing : Nat
  tail    : Bool
  deriving DecidableEq, Repr

/-- A ring (R395, R400). -/
structure Ring where
  n       : Nat
  pos     : Nat
  rtmo    : Nat
  devs    : List Nat
  inbox   : Nat
  sentSeq : Nat
  rxSeq   : Nat
  order   : Nat
  queue   : List (List Byte)
  cur     : Option Sending
  lastOk  : Nat
  deriving DecidableEq, Repr

/-- The norm configuration (R404). -/
structure NormCfg where
  ring    : Nat
  ng      : Nat
  home    : Nat
  en      : Int
  loc     : Nat
  homereg : Nat
  maxn    : Nat
  clip    : Nat
  deriving DecidableEq, Repr

/-- A NORM step in progress (R405): phase 1 waiting for buckets, 2 adds out, 3 arrival written, 4 waiting for CLIP. -/
structure NormRun where
  st     : Nat
  phase  : Nat
  adds   : Nat
  status : Nat
  deriving DecidableEq, Repr

/-- A phase of a step program (R409). -/
structure PhaseDef where
  kind   : Nat
  role   : Nat
  phid   : Nat
  tree   : Nat
  dep    : BitVec 16
  pdep   : BitVec 16
  handle : Nat
  gkind  : Nat
  stream : Nat
  list   : Nat
  count  : Nat
  tmo    : Nat
  deriving DecidableEq, Repr

/-- A phase of the run: the step it runs or is to start next, whether it runs, its start, the descriptors left to post
(none before they are read), and how its global operation ended. -/
structure PhaseRun where
  next  : Nat
  live  : Bool
  since : Nat
  todo  : Option (List (List Byte))
  res   : Option Nat
  deriving DecidableEq, Repr

/-- A step program's run (R410, R411): `bound` is the first step that is not run; `fail` holds status, phase and step. -/
structure StepRun where
  st     : Nat
  port   : Port
  first  : Nat
  bound  : Option Nat
  phases : List PhaseRun
  fail   : Option (Nat × Nat × Nat)
  deriving DecidableEq, Repr

/-- A step program (R409). -/
structure StepProg where
  phases : List PhaseDef
  run    : Option StepRun
  deriving DecidableEq, Repr

/-- An open record of the phase-timer block (R413). -/
structure PhRec where
  step   : W64
  nbegin : Nat
  nend   : Nat
  first  : W64
  lastB  : W64
  lastE  : W64
  strag  : Bool
  deriving DecidableEq, Repr

/-- What the block keeps per phase identifier: the open record, the highest step logged, EXPECT and THR (R413, R415). -/
structure PhId where
  rcd    : Option PhRec
  logged : Option W64
  expect : Nat
  thr    : W64
  deriving DecidableEq, Repr

/-- A stamp under way to the phase-timer block: its device, its core (none for the stamps of a stream's phases), and what PHASE says
(R189). -/
structure Stamp where
  dev  : Nat
  core : Option Nat
  phid : Nat
  edge : Nat
  step : W64
  time : W64
  deriving DecidableEq, Repr

/-- The training services. -/
structure Training where
  buckets : SMap Bucket
  rings   : SMap Ring
  norms   : Option NormCfg
  normStep : Nat
  normRun : Option NormRun
  steps   : SMap StepProg
  phids   : SMap PhId
  stamps  : List Stamp
  logBase : Nat
  log2n   : Nat
  logHead : Nat
  logTail : Nat
  evtStrag : Bool
  evtFull : Bool
  lastStep : BitVec 24
  lastPhid : Byte
  drop    : W64
  late    : W64
  side    : W64
  wideCnt : W64
  floatCnt : W64
  ringb   : W64
  deriving DecidableEq, Repr

/-! ## Host port and mailboxes (chapter 12) -/

/-- A registered region (R429). -/
structure Rg where
  perm    : BitVec 8
  rid     : BitVec 16
  ridmask : BitVec 16
  aper    : Nat
  size    : Nat
  target  : W64
  deriving DecidableEq, Repr

/-- Posted writes of one window or region: bytes accepted, writes still out, and a failure since the last flush read
(R431 to R433). -/
structure Posts where
  bytes : W64
  live  : List Nat
  fail  : Bool
  deriving DecidableEq, Repr

def Posts.none : Posts := ⟨0, [], false⟩

/-- Through which window an access came: BAR2, or region `n` of BAR4. -/
inductive Win where
  | plaza
  | region (n : Nat)
  deriving DecidableEq, Repr

/-- A host access that crosses the fabric (R424, R425): a read with the data so far, one of its posted writes, or a
flush read, with the count it returns, that waits for the posted writes in `waits`. -/
inductive HostReq where
  | rd (id : Nat) (win : Win) (len : Nat) (got : SMap Byte) (pois : Bool) (missing : Nat) (status : Nat)
  | wr (id : Nat) (win : Win) (missing : Nat) (bad : Bool)
  | flush (id : Nat) (win : Win) (val : List Byte) (waits : List Nat) (fail : Bool)
  deriving DecidableEq, Repr

/-- The host port's registers (HP, PZ and RG blocks). -/
structure HostPort where
  link    : Nat
  err     : BitVec 4
  ur      : W64
  ca      : W64
  disc    : W64
  pois    : W64
  pzBase  : W64
  pzPend  : Option W32
  pz      : Posts
  badbase : Bool
  pzFail  : Bool
  regions : SMap Rg
  rgPosts : SMap Posts
  viol    : BitVec 3
  vaddr   : W64
  vrid    : BitVec 16
  reqs    : List HostReq
  deriving DecidableEq, Repr

/-- One staged item (R449), by the command that stages it. -/
inductive Item where
  | pslice (us : Nat)
  | region (n : Nat) (r : Option Rg)
  | memPart (nb : Nat)
  | streamSlice (us : Nat)
  | ingest (enable : BitVec 8) (tmo : Nat)
  | port (n mode media : Nat)
  | route (lo hi : Nat) (mask : BitVec 36)
  | expose (n : Nat) (e : Option Expose)
  | members (lo hi : Nat) (set : Bool)
  | tree (t : Nat) (d : Option (Nat × List Nat))
  | frozen (fcu : Nat)
  | bvConfig (tmo lo hi : Nat)
  | ring (r : Nat) (d : Option Ring)
  | bucket (b : Nat) (d : Option BucketDef)
  | norms (d : Option NormCfg)
  | phase (phid expect : Nat) (thr : W64)
  | phlog (base log2n : Nat)
  | power (cap warn rst alert wdt : Nat)
  | svcNet (p mode : Nat) (addr mask gateway server : W32)
  deriving DecidableEq, Repr

/-- One mailbox (R439 to R443) with its partner's stage. `busy` holds the command in flight while GO reads 1. -/
structure Mailbox where
  busy   : Option (BitVec 16 × MbxCmd)
  done   : Bool
  ovr    : Bool
  rst    : Bool
  ie     : Bool
  cmd    : List Byte
  resp   : List Byte
  stage  : List Item
  deriving DecidableEq, Repr

/-- An abort in progress (R456 to R458), with its status and the programs that were its targets when it arrived. -/
structure AbortJob where
  viaReg  : Bool
  port    : Port
  tag     : W32
  kind    : Nat
  handle  : Nat
  status  : Nat
  targets : List Nat
  arrived : Nat
  deriving DecidableEq, Repr

/-- An entry of the event ring (R446). -/
structure Event where
  cls    : Nat
  status : Nat
  seq    : W32
  time   : W64
  arg0   : W64
  arg1   : W64
  deriving DecidableEq, Repr

/-- The device controller's registers and shared mailbox state. -/
structure Dc where
  dstate   : Nat
  fwok     : Bool
  gen      : W32
  lastPort : Nat
  lastTime : W64
  commits  : List (Port × W32 × W32)
  pslice   : Nat
  ring     : SMap Event
  evHead   : Byte
  evTail   : Byte
  evEn     : Bool
  evOvf    : Bool
  evDrop   : W64
  evSeq    : W32
  evVec0   : W64
  evVec1   : W64
  abortGo  : Bool
  abKind   : Nat
  abHandle : Nat
  abStatus : Nat
  abOvr    : Bool
  abHw     : Bool
  abDone   : Bool
  aborts   : List AbortJob
  kill     : List Nat
  snapSeq  : W32
  snap     : List Byte
  deriving DecidableEq, Repr

/-! ## Power, clocks and reset (chapter 13) -/

/-- The Lamplighter (R460 to R485). `pstate` 0 OFF, 1 STANDBY, 2 IDLE, 3 ACTIVE. `seq` is the step of a reset sequence
that waits (1, 10 and 3: for the rails, the reference clock or the pin; 4: for an image fetch; 5: firmware runs and steps 5 to 7
follow at the next cycle), with its cause. -/
structure Power where
  pstate   : Nat
  refok    : Bool
  auxok    : Bool
  pg48     : Bool
  sagwarn  : Bool
  /-- The 48 V input has fallen below the sag reset threshold and not risen to its release level. -/
  sagOff   : Bool
  sagn     : Bool
  cap      : Nat
  warnv    : Byte
  rstv     : Byte
  alertc   : Nat
  wdtMs    : Nat
  samples  : List Nat
  mean     : Nat
  plevel   : Nat
  tlevel   : Nat
  plZero   : Option Nat
  tlZero   : Option Nat
  vin      : Nat
  tjmax    : Int
  sensor   : Nat
  tdeck    : Int
  tlp      : Int
  hot      : Bool
  alerted  : Bool
  trips    : List Nat
  tripHold : Option Nat
  latched  : Bool
  stretch  : List Nat
  stops    : List Nat
  droopTot : W64
  droopCnt : W32
  sagCnt   : W32
  /-- Cycles with effective level above 0, up to `thrFrom`. -/
  thrns    : Nat
  thrFrom  : Option Nat
  pllst    : Nat
  idleen   : Bool
  idleFrom : Nat
  cause    : Nat
  cold     : Bool
  merged   : Nat
  warmcnt  : BitVec 16
  expired  : BitVec 16
  seq      : Option Nat
  pinLow   : Bool
  /-- What a write pulse under way writes: 0 and 1 the boot headers, 2 and 3 the firmware slots, 4 and 5 the calibration
  slots, 6 the owner hash, 7 and 8 the anti-rollback counters, 9 persistent data. -/
  pulse    : Option Nat
  held     : Option Nat
  refLost  : Bool
  alert    : BitVec 7
  alerten  : BitVec 7
  alertn   : Bool
  scratch  : W32
  attempts : Nat
  trimFault : Bool
  trimSrc  : Nat
  code     : Nat
  straperr : Bool
  rmeas    : Nat
  deriving DecidableEq, Repr

/-- A block that is being reset (R480): `phase` 1 marked and finishing its work, 2 re-initialising. -/
structure BlockReset where
  phase : Nat
  st    : Nat
  since : Nat
  tmo   : Nat
  idle  : Bool
  count : Nat
  deriving DecidableEq, Repr

/-! ## Trust, updates and field service (chapter 14) -/

/-- An image in a flash slot: its 1 KiB header and its body (R489). -/
structure Img where
  hdr  : List Byte
  body : List Byte
  deriving DecidableEq, Repr

/-- A boot-header copy whose CRC is valid (R487). -/
structure BootHdr where
  seq     : W32
  fwact   : Byte
  fwpend  : Byte
  calact  : Byte
  calpend : Byte
  bootcnt : W32
  deriving DecidableEq, Repr

/-- An error-log entry (R514). -/
structure ErrEntry where
  seq    : W32
  sev    : Nat
  source : Nat
  code   : Nat
  time   : W64
  boot   : W32
  count  : W32
  addr   : W64
  status : Nat
  data   : List Byte
  deriving DecidableEq, Repr

/-- Settings of one service Ethernet port (R517). -/
structure SvcNet where
  mode    : Nat
  addr    : W32
  mask    : W32
  gateway : W32
  server  : W32
  deriving DecidableEq, Repr

def SvcNet.dhcp : SvcNet := ⟨0, 0, 0, 0, 0⟩

/-- An open service session (R509). -/
structure Session where
  num    : W32
  expiry : Nat
  port   : Nat
  deriving DecidableEq, Repr

/-- An image fetch by the boot ROM (R510): the next offset to ask for, the blocks asked for with their times, and what
has arrived. -/
structure ImgFetch where
  next   : Nat
  out    : SMap Nat
  bytes  : SMap (List Byte)
  len    : Option Nat
  lastRx : Nat
  deriving DecidableEq, Repr

/-- A confirmation whose write pulses are under way (R494, R499): the counter rises to `target`, then its mailbox is answered. -/
structure Confirm where
  kind   : Nat
  target : Nat
  port   : Port
  tag    : W32
  deriving DecidableEq, Repr

/-- The security, update and service state. `deferred` are mailboxes whose GO came during a hand-over, `rspWait` is set while
an MBX_RSP is owed. -/
structure Trust where
  hdr0     : Option BootHdr
  hdr1     : Option BootHdr
  fwA      : Option Img
  fwB      : Option Img
  calA     : Option Img
  calB     : Option Img
  fwslot   : Nat
  calslot  : Nat
  runHdr   : List Byte
  calHdr   : List Byte
  banks    : List (List Byte)
  bank     : Nat
  handover : Option Nat
  handAt   : Option Nat
  busy     : Nat
  fwsvn    : Nat
  calsvn   : Nat
  owner    : Option (BitVec 384)
  ownchg   : Nat
  chain    : Option (List Byte)
  keyrev   : W32
  nonces   : SMap (BitVec 256 × Nat)
  nonceNo  : Nat
  debug    : Nat
  dbglock  : Bool
  wdtsusp  : Bool
  session  : Option Session
  sessNo   : W32
  lastSeq  : Option W32
  lastRsp  : List Byte
  rspWait  : Bool
  confirm  : Option Confirm
  deferred : List Nat
  rspPort  : Nat
  spdm     : SMap (List (List Byte))
  net      : SMap SvcNet
  fetch    : Option ImgFetch
  log      : List ErrEntry
  errSeq   : W32
  cursors  : SMap W32
  mctpBusy : Bool
  txSeq    : W32
  jtagIr   : Byte
  deriving DecidableEq, Repr

/-! ## What leaves the device, and what its surroundings give it -/

/-- What the device sends out, newest first. -/
inductive Out where
  | packet (link : Nat) (p : Packet)
  | flit (link : Nat) (bytes : List Byte)
  | msix (vec : Nat)
  | ibi (b : Byte)
  | cpl (id : Nat) (status : Nat) (data : List Byte) (pois : Bool)
  | mctp (msg : List Byte)
  | service (port ty : Nat) (seq session : W32) (payload : List Byte)
  | jtag (dr : BitVec 44)
  | arp (port : Nat) (ip : W32)
  | icmp (port : Nat) (data : List Byte)
  deriving DecidableEq, Repr

/-- What manufacture, the board and the self-test give: nothing the device does changes it. [DESIGN CHOICE, log 12] -/
structure Env where
  trimA   : Bool
  trimB   : Bool
  rmeas   : Nat
  excl    : SMap Nat
  badX    : SMap Bool
  tree    : SMap Nat
  deriving DecidableEq, Repr

/-! ## The core and its program -/

/-- What the sequencer holds back: an instruction that waits to issue (R179, R184, R187, R188, R192). `waited` counts
the cycles of an FWAIT. -/
structure Hold where
  frame  : Frame
  waited : Nat
  deriving DecidableEq, Repr

/-- An instruction in the queue of a unit other than the matrix unit (R179): its number, the pipeline it is for (20 VLD, 21 vector
compute, 22 VST, 30 row, 40 attention, 41 KVOP, 50 data movement, 60 scalar memory), its frame, the scalar registers it read when it
issued, and what it touches. -/
structure Queued where
  uid   : Nat
  lane  : Nat
  pc    : Nat
  frame : Frame
  a     : Vector W64 16
  l     : Vector W64 8
  foot  : Foot
  deriving DecidableEq, Repr

/-- Everything of a core that belongs to its program (R157, R160, R164). `uq` are the instructions in unit queues, and `fence` the
accesses that a BOLLARD still awaits (R187). -/
structure Ctx where
  pc     : Nat
  a      : Vector W64 16
  l      : Vector W64 8
  p      : BitVec 8
  flags  : SMap W32
  v      : SMap (BitVec 1024)
  uops   : SMap UProg
  side   : SMap (BitVec 128)
  /-- Poison of the two 8-byte words of record `n`: keys 2n and 2n + 1 (R298). -/
  sidePois : SMap Bool
  astat  : W32
  mx     : Matrix
  attn   : Option Attn
  hold   : Option Hold
  pend   : List (Nat × Nat)
  uq     : List Queued
  fence  : List Nat
  cycles : Nat
  stalls : Nat
  deriving DecidableEq, Repr

/-- The state R164 gives a core before its first instruction issues, its a-registers apart. [DESIGN CHOICE, log 6] -/
def Ctx.start : Ctx :=
  { pc := 0, a := Vector.replicate 16 0, l := Vector.replicate 8 0, p := 0, flags := [], v := [], uops := [], side := [],
    sidePois := [], astat := 0, mx := Matrix.idle, attn := none, hold := none, pend := [], uq := [], fence := [], cycles := 0, stalls := 0 }

/-- A core (R32, debug window registers): state code of CO_STATE, holder, exclusion code, latest fault record; `spill` counts
the running cycles until its matrix unit has spilled (R81). `step` is not 0 while the debug probe steps the core: one more than the
lowest number its instruction can have, and `issued` says that it has issued; `again` are the SLD reads that a debug halt has
cancelled (R198). -/
structure Core where
  ctx     : Ctx
  st      : Nat
  holder  : Nat
  last    : Option Nat
  excl    : Nat
  halted  : Bool
  fault   : List Byte
  haltreq : Bool
  step    : Nat
  issued  : Bool
  again   : List Req
  spill   : Nat
  deriving DecidableEq, Repr

/-- [DESIGN CHOICE, log 6] -/
def Core.idle : Core :=
  { ctx := Ctx.start, st := 0, holder := 0, last := none, excl := 0, halted := false, fault := [], haltreq := false,
    step := 0, issued := false, again := [], spill := 0 }

/-- What a save area holds of one core (R192, R193): its state, and its scratchpad and deck bytes in use, at the
addresses they have in the core; no bytes before the first switch out (R164); its stem jobs (R265) and the SLD reads to
be issued again. -/
structure Saved where
  ctx  : Ctx
  halted : Bool
  mem  : Option Memory
  stems : List StemJob
  sld  : List Req
  deriving DecidableEq, Repr

/-- A fault (R196) before it becomes a record. -/
structure FaultInfo where
  cause  : Nat
  unit   : Nat
  addr   : W64
  status : Nat
  detail : Nat
  deriving DecidableEq, Repr

/-- A program handle that is not FREE (R162, R166). `st` is its state code. `slice` is the slice length in force (R43), `still` the
cycles of the present slice in which a debug halt kept it from advancing (R194), and `fail` says that a fault has been raised which
firmware acts on at the next cycle (R197). -/
structure Prog where
  st      : Nat
  streets : Nat
  avenues : Nat
  entry   : Nat
  textLen : Nat
  spadUse : Nat
  deckUse : Nat
  save    : Nat
  saveLen : Nat
  place   : Option (Nat × Nat)
  slot    : Option Nat
  order   : Nat
  arg     : W64
  recs    : List (List Byte)
  nfault  : W32
  runFrom : Option Nat
  runCyc  : Nat
  slice   : Nat
  still   : Nat
  fail    : Bool
  switches : W64
  saved   : SMap Saved
  /-- The seed of the free bytes firmware last left in the save area (R161). -/
  seed    : Nat
  deriving DecidableEq, Repr

/-! ## The device -/

/-- The whole device. `sreq` are stem reservations on their way to their engines (R258), `turns` the pointers of the class engines of
the stream tracker, keyed by slice × 8 + class (R319). -/
structure State where
  pending  : List Instr
  now      : Nat
  fresh    : Nat
  mem      : Memory
  cores    : SMap Core
  progs    : SMap Prog
  rot      : List Nat
  sigs     : List Sig
  atoms    : List Atom
  regions  : SMap Region
  xunits   : SMap XUnit
  mcs      : SMap Mc
  paused   : SMap Nat
  nb       : Nat
  slice    : Nat
  turns    : SMap Nat
  sterr    : BitVec 16
  streams  : SMap Stream
  sposts   : List SpostWait
  kv       : Kv
  stems    : SMap StemEngine
  sreq     : List StemJob
  ig       : Ingest
  fab      : Fabric
  tr       : Training
  hp       : HostPort
  mbx      : SMap Mailbox
  dc       : Dc
  pw       : Power
  blocks   : SMap BlockReset
  tru      : Trust
  env      : Env
  out      : List Out
  deriving DecidableEq, Repr

/-- Why the device could stop with a fault: it never does. Every exception of the spec is state. -/
inductive Fault where
  /-- Raised by nobody. Safe. -/
  | none
  deriving DecidableEq, Repr

/-- Why a command has no meaning here. -/
inductive Refusal where
  /-- Raised by an arm of `exec` that has no meaning yet. Safe: the run stops. -/
  | notModelled (mnemonic : String)
  deriving DecidableEq, Repr

/-! ## Reset: the device after a cold reset, every field at its reset value (R8, R475), with steps 1 to 4 of the sequence done
and firmware running (R476) -/

/-- A mailbox after reset (R445). -/
def Mailbox.reset : Mailbox :=
  { busy := none, done := false, ovr := false, rst := true, ie := false, cmd := [], resp := [], stage := [] }

def Mc.reset : Mc := ⟨0, 0, 0, 0, 0⟩

def Fabric.reset : Fabric :=
  { ports := [], links := [], devState := 0, devnum := 0, members := [], routes := [], expose := [], fmLo := 0,
    fmHi := 0x1FFF, tmoUs := 2000, fcu := 0, epoch := 0, cache := [], outst := [], waiting := [], fetches := [],
    trees := [], time := ⟨0, 0, false, 0, 0, 0, none⟩, tmo := 0, late := 0, refused := 0, fcHit := 0, fcMiss := 0,
    lastReq := 0, leaving := none }

def Training.reset : Training :=
  { buckets := [], rings := [], norms := none, normStep := 0, normRun := none, steps := [], phids := [], stamps := [],
    logBase := 2 ^ 48, log2n := 6, logHead := 0, logTail := 0, evtStrag := false, evtFull := false, lastStep := 0,
    lastPhid := 0, drop := 0, late := 0, side := 0, wideCnt := 0, floatCnt := 0, ringb := 0 }

def Ingest.reset : Ingest :=
  { engines := [], batches := [], rot := 0, enable := 0xFF, defTmo := 100000, hwerr := 0, ok := 0, corrupt := 0,
    timed := 0, pixels := 0 }

def HostPort.reset : HostPort :=
  { link := 0, err := 0, ur := 0, ca := 0, disc := 0, pois := 0, pzBase := 0, pzPend := none, pz := Posts.none,
    badbase := false, pzFail := false, regions := [], rgPosts := [], viol := 0, vaddr := 0, vrid := 0, reqs := [] }

def Dc.reset : Dc :=
  { dstate := 0, fwok := false, gen := 0, lastPort := 0xFF, lastTime := 0, commits := [], pslice := 1000, ring := [],
    evHead := 0, evTail := 0, evEn := false, evOvf := false, evDrop := 0, evSeq := 0,
    evVec0 := 0x0101010101010101, evVec1 := 0x0101010101010101, abortGo := false, abKind := 0, abHandle := 0,
    abStatus := 0, abOvr := false, abHw := false, abDone := false, aborts := [], kill := [], snapSeq := 0, snap := [] }

/-- The grade maximum of the power cap (R463). -/
def gradeMax : Nat := if Config.gradeS then 2000 else 1400

/-- [DESIGN CHOICE, log 6] -/
def Power.reset : Power :=
  { pstate := 1, refok := true, auxok := true, pg48 := true, sagwarn := false, sagOff := false, sagn := true, cap := gradeMax,
    warnv := 0x54, rstv := 0x48, alertc := 95, wdtMs := 1000, samples := [], mean := 0, plevel := 0, tlevel := 0,
    plZero := none, tlZero := none, vin := 0, tjmax := 0, sensor := 0, tdeck := 0, tlp := 0, hot := false,
    alerted := false, trips := [], tripHold := none, latched := false, stretch := [], stops := [], droopTot := 0,
    droopCnt := 0, sagCnt := 0, thrns := 0, thrFrom := none, pllst := 2, idleen := true, idleFrom := 0, cause := 1, cold := true,
    merged := 0, warmcnt := 0, expired := 0, seq := some 5, pinLow := false, pulse := none, held := none,
    refLost := false, alert := 0, alerten := 0x7F, alertn := true, scratch := 0, attempts := 1, trimFault := false,
    trimSrc := 0, code := 15, straperr := false, rmeas := 0xFFF }

/-- The images a module is shipped with: they are the part's, not the spec's. [DESIGN CHOICE, log 9] -/
def Img.shipped (kind : Nat) : Img := ⟨Config.shippedHdr kind, Config.shippedBody kind⟩

/-- [DESIGN CHOICE, log 6] -/
def Trust.reset : Trust :=
  { hdr0 := some ⟨1, 0, 0, 0, 0, 1⟩, hdr1 := none, fwA := some (Img.shipped 0), fwB := none,
    calA := some (Img.shipped 1), calB := none, fwslot := 0, calslot := 0, runHdr := Config.shippedHdr 0,
    calHdr := Config.shippedHdr 1, banks := [Config.shippedBody 0, []], bank := 0, handover := none, handAt := none,
    busy := 0, fwsvn := 0, calsvn := 0, owner := none, ownchg := 0, chain := none, keyrev := Config.keyRev,
    nonces := [], nonceNo := 0, debug := 0, dbglock := false, wdtsusp := false, session := none, sessNo := 0,
    lastSeq := none, lastRsp := [], rspWait := false, confirm := none, deferred := [], rspPort := 0, spdm := [], net := [], fetch := none, log := [], errSeq := 0,
    cursors := [], mctpBusy := false, txSeq := 0, jtagIr := 0 }

/-- [DESIGN CHOICE, log 6, 12] -/
def Env.good : Env := ⟨true, true, 1000000, [], [], []⟩

/-- Memory after a cold reset: nothing in it is defined (R475). -/
def Memory.reset : Memory := ⟨[], [⟨0, 2 ^ 48, 0⟩], []⟩

/-- The device right after a cold reset: STARTING, standalone, every core idle, no program, stream or pool.
[DESIGN CHOICE, log 5, 6] -/
def State.reset : State :=
  { pending := [], now := 0, fresh := 1, mem := Memory.reset, cores := [], progs := [], rot := [], sigs := [],
    atoms := [], regions := [], xunits := [], mcs := [], paused := [], nb := 0, slice := 1000, turns := [], sterr := 0,
    streams := [], sposts := [], kv := ⟨[], [], [], [], [], []⟩, stems := [], sreq := [], ig := Ingest.reset, fab := Fabric.reset,
    tr := Training.reset, hp := HostPort.reset, mbx := [], dc := Dc.reset, pw := Power.reset, blocks := [],
    tru := Trust.reset, env := Env.good, out := [] }

end Sys2Proof.Machine
end

