-- ==== Sys2Proof/Machine/Ops.lean ====
section
/-! DEFINITION. Sys2Proof/Machine/Ops.lean: the named operations every family uses: fields and byte order, memory with its
poison, cores and their registers, time, what the device sends out, the event ring and the error log. -/

namespace Sys2Proof.Machine

/-! ## Fields and byte order (R4) -/

/-- Bits `[hi:lo]` of a word, as a number. -/
def fld {w : Nat} (f : BitVec w) (hi lo : Nat) : Nat := f.toNat / 2 ^ lo % 2 ^ (hi + 1 - lo)

/-- Bit `i` of a word. -/
def bitOf {w : Nat} (f : BitVec w) (i : Nat) : Bool := f.toNat / 2 ^ i % 2 == 1

/-- Bits `[hi:lo]` of a number. -/
def nfld (n hi lo : Nat) : Nat := n / 2 ^ lo % 2 ^ (hi + 1 - lo)

/-- A two's-complement number of `w` bits. -/
def sgn (w n : Nat) : Int := if n % 2 ^ w < 2 ^ (w - 1) then ((n % 2 ^ w : Nat) : Int) else (n % 2 ^ w : Nat) - (2 : Int) ^ w

/-- The `n` bytes of a number, least significant first. -/
def le : Nat → Nat → List Byte
  | 0, _ => []
  | n + 1, v => BitVec.ofNat 8 v :: le n (v / 256)

/-- The number that bytes spell, least significant first. -/
def leNat : List Byte → Nat
  | [] => 0
  | b :: bs => b.toNat + 256 * leNat bs

/-- `n` bytes of `bs` from `off`, as a number; bytes beyond the end read as zero. -/
def rd (bs : List Byte) (off n : Nat) : Nat := leNat ((bs.drop off).take n)

/-- A signed field of `n` bytes. -/
def rdS (bs : List Byte) (off n : Nat) : Int := sgn (8 * n) (rd bs off n)

/-- `n` zero bytes. -/
def zeros (n : Nat) : List Byte := List.replicate n 0

/-- The first `n` bytes, padded with zeros. -/
def fit (n : Nat) (bs : List Byte) : List Byte := bs.take n ++ zeros (n - bs.length)

/-- Overwrite the bytes of `bs` from `off` with `v`. -/
def patch (bs : List Byte) (off : Nat) (v : List Byte) : List Byte :=
  fit off bs ++ v ++ bs.drop (off + v.length)

/-- Pieces of `n` bytes. -/
def chunks (n : Nat) : Nat → List Byte → List (List Byte)
  | 0, _ => []
  | k + 1, bs => bs.take n :: chunks n k (bs.drop n)

/-- Fold a step over the numbers `0 … n - 1`. -/
def iterate {α : Type} (n : Nat) (x : α) (f : Nat → α → α) : α := (List.range n).foldl (fun a i => f i a) x

/-- Replace entry `i` of a list. -/
def setAt {α : Type} (l : List α) (i : Nat) (x : α) : List α := l.set i x

/-- One bit-reversed CRC step of 32 bits with polynomial `poly`. -/
def crcStep (poly : Nat) (crc : Nat) (b : Byte) : Nat :=
  iterate 8 (crc ^^^ b.toNat) fun _ r => if r % 2 = 1 then (r / 2) ^^^ poly else r / 2

/-- CRC-32 of IEEE 802.3 (R158, R293, R514). -/
def crc32 (bs : List Byte) : Nat := (bs.foldl (crcStep 0xEDB88320) 0xFFFFFFFF) ^^^ 0xFFFFFFFF

/-- CRC-32C, Castagnoli (R336). -/
def crc32c (bs : List Byte) : Nat := (bs.foldl (crcStep 0x82F63B78) 0xFFFFFFFF) ^^^ 0xFFFFFFFF

/-! ## Status codes (R453) -/

namespace St
def ok : Nat := 0
def accepted : Nat := 1
def badOpcode : Nat := 0x100
def badField : Nat := 0x101
def badState : Nat := 0x102
def conflict : Nat := 0x103
def timeout : Nat := 0x104
def aborted : Nat := 0x105
def blockReset : Nat := 0x106
def departed : Nat := 0x107
def windowExceeded : Nat := 0x108
def poisoned : Nat := 0x109
def notAuthorised : Nat := 0x10A
def corruptInput : Nat := 0x10B
def trimFault : Nat := 0x10C
end St

/-! ## The local address space (R24) -/

def lpEnd : Nat := 0x016400000000
def fwEnd : Nat := 0x016800000000
def deckBase : Nat := 0x200000000000
def spadBase : Nat := 0x210000000000
def regBase : Nat := 0x3F0000000000
def deckSize : Nat := 0x300000
def spadSize : Nat := 0x40000
def nCores : Nat := 3072
/-- First byte of the spill region of a scratchpad (R79). -/
def spillLo : Nat := 0x37C00

def deckOf (c : Nat) : Nat := deckBase + c * deckSize
def spadOf (c : Nat) : Nat := spadBase + c * spadSize

/-- What a local address names: LPDDR5X open to programs, LPDDR5X of firmware, a byte of a core's deck slice or
scratchpad, the register space, or nothing. -/
inductive Place where
  | lp | fw
  | deck (c off : Nat)
  | spad (c off : Nat)
  | regs | none
  deriving DecidableEq, Repr

def place (a : Nat) : Place :=
  if a < lpEnd then .lp
  else if a < fwEnd then .fw
  else if deckBase ≤ a && a < deckBase + nCores * deckSize then
    .deck ((a - deckBase) / deckSize) ((a - deckBase) % deckSize)
  else if spadBase ≤ a && a < spadBase + nCores * spadSize then
    .spad ((a - spadBase) / spadSize) ((a - spadBase) % spadSize)
  else if regBase ≤ a && a < regBase + 0x4000000 then .regs
  else .none

/-- Is a range of `n` bytes at `a` inside the core's own scratchpad outside the spill region, or its own deck slice? -/
def ownRange (c a n : Nat) : Bool :=
  (spadOf c ≤ a && a + n ≤ spadOf c + spillLo) || (deckOf c ≤ a && a + n ≤ deckOf c + deckSize)

/-- Does a range touch the core's own scratchpad or deck slice? -/
def ownTouch (c a n : Nat) : Bool :=
  (a < spadOf c + spadSize && spadOf c < a + n) || (a < deckOf c + deckSize && deckOf c < a + n)

/-! ## Memory and poison (R24, R298, R299) -/

namespace Memory

/-- The range of undefined contents an address lies in, the latest first. -/
def undefAt (m : Memory) (a : Nat) : Option Undef := m.undef.find? fun u => decide (u.lo ≤ a) && decide (a < u.hi)

/-- What an address that is not listed reads as. [DESIGN CHOICE, log 7] -/
def dflt (m : Memory) (a : Nat) : Byte :=
  match m.undefAt a with | some u => Config.freeMem u.seed a | none => 0

def byte (m : Memory) (a : Nat) : Byte := SMap.getD m.cells a (m.dflt a)

def setByte (m : Memory) (a : Nat) (v : Byte) : Memory := { m with cells := SMap.setD m.cells a (m.dflt a) v }

/-- Store bytes from `a` upwards. -/
def write (m : Memory) (a : Nat) : List Byte → Memory
  | [] => m
  | b :: bs => write (m.setByte a b) (a + 1) bs

/-- `n` bytes from `a`. -/
def read (m : Memory) (a n : Nat) : List Byte := (List.range n).map fun i => m.byte (a + i)

/-- Size of the poison granule at an address: 64 bytes in LPDDR5X, 8 elsewhere. -/
def granSize (a : Nat) : Nat := if a < fwEnd then 64 else 8

def granBase (a : Nat) : Nat := a / granSize a * granSize a

/-- Granules that `n` bytes from `a` touch. -/
def granules (a n : Nat) : List Nat :=
  if n = 0 then [] else
  let g := granSize a
  (List.range ((a + n - 1) / g + 1 - a / g)).map fun i => (a / g + i) * g

def dfltPois (m : Memory) (g : Nat) : Bool :=
  match m.undefAt g with | some u => Config.freePoison u.seed g | none => false

/-- The poison mark of the granule at `g`. [DESIGN CHOICE, log 189] -/
def granPois (m : Memory) (g : Nat) : Bool := SMap.getD m.pois g (m.dfltPois g)

def mark (m : Memory) (g : Nat) (v : Bool) : Memory := { m with pois := SMap.setD m.pois g (m.dfltPois g) v }

/-- Does a range touch a poisoned granule? -/
def poisoned (m : Memory) (a n : Nat) : Bool := (granules a n).any m.granPois

/-- Poison every granule the range touches. -/
def taint (m : Memory) (a n : Nat) : Memory := (granules a n).foldl (fun m g => m.mark g true) m

/-- Clear the poison of every granule the range covers whole. -/
def clean (m : Memory) (a n : Nat) : Memory :=
  (granules a n).foldl (fun m g => if a ≤ g && g + granSize g ≤ a + n then m.mark g false else m) m

/-- A write of unpoisoned or poisoned data (R299). -/
def store (m : Memory) (a : Nat) (bs : List Byte) (pois : Bool := false) : Memory :=
  if pois then (m.write a bs).taint a bs.length else (m.write a bs).clean a bs.length

/-- The part of an undefined range outside `lo ≤ a < hi`. -/
def cutUndef (lo hi : Nat) (u : Undef) : List Undef :=
  [⟨u.lo, min u.hi lo, u.seed⟩, ⟨max u.lo hi, u.hi, u.seed⟩].filter fun v => decide (v.lo < v.hi)

/-- The part of an undefined range inside `lo ≤ a < hi`. -/
def clipUndef (lo hi : Nat) (u : Undef) : List Undef :=
  [⟨max u.lo lo, min u.hi hi, u.seed⟩].filter fun v => decide (v.lo < v.hi)

def inside (lo hi a : Nat) : Bool := decide (lo ≤ a) && decide (a < hi)

/-- Memory without what it lists in `lo ≤ a < hi`: the range reads as zero. -/
def cut (m : Memory) (lo hi : Nat) : Memory :=
  { cells := m.cells.filter fun p => !inside lo hi p.1,
    undef := m.undef.flatMap (cutUndef lo hi),
    pois := m.pois.filter fun p => !inside lo hi p.1 }

/-- What memory lists in `lo ≤ a < hi`. -/
def clip (m : Memory) (lo hi : Nat) : Memory :=
  { cells := m.cells.filter fun p => inside lo hi p.1,
    undef := m.undef.flatMap (clipUndef lo hi),
    pois := m.pois.filter fun p => inside lo hi p.1 }

/-- Both memories' listings; they list nothing in common. -/
def join (m n : Memory) : Memory :=
  { cells := n.cells.foldl (fun l p => SMap.put l p.1 p.2) m.cells,
    undef := n.undef ++ m.undef,
    pois := n.pois.foldl (fun l p => SMap.put l p.1 p.2) m.pois }

/-- The contents of `lo ≤ a < hi` become not defined. [DESIGN CHOICE, log 7] -/
def forget (m : Memory) (lo hi seed : Nat) : Memory :=
  if hi ≤ lo then m else { m.cut lo hi with undef := ⟨lo, hi, seed⟩ :: (m.cut lo hi).undef }

/-- A write of bytes that carry their own poison (R299, R300): a granule that takes a poisoned byte is poisoned, one
that is covered whole without one is clean. -/
def storeP (m : Memory) (a : Nat) (bs : List (Byte × Bool)) : Memory :=
  let n := bs.length
  (granules a n).foldl (fun m g =>
      if ((bs.drop (g - a)).take (g + granSize g - max a g)).any (·.2) then m.mark g true
      else if a ≤ g && g + granSize g ≤ a + n then m.mark g false else m)
    (m.write a (bs.map (·.1)))

/-- `n` bytes from `a` with the poison of their granules. -/
def readP (m : Memory) (a n : Nat) : List (Byte × Bool) :=
  (List.range n).map fun i => (m.byte (a + i), m.granPois (granBase (a + i)))

/-- The canonical form: addresses rising, and nothing listed that reads so anyway. -/
def wf (m : Memory) : Bool :=
  SMap.sorted m.cells && m.cells.all (fun p => !(p.2 == m.dflt p.1)) &&
  SMap.sorted m.pois && m.pois.all (fun p => !(p.2 == m.dfltPois p.1))

end Memory

/-! ## State: numbers, time, output -/

/-- The effective throttle level (R462). -/
def elevel (p : Power) : Nat := max p.plevel p.tlevel

namespace State

/-- A number no one has used yet. [DESIGN CHOICE, log 8] -/
def uid (s : State) : Nat × State := (s.fresh, { s with fresh := s.fresh + 1 })

/-- The number of an instruction that takes effect: the one it has in its unit's queue, or a new one. -/
def uidFor (s : State) (n : Nat) : Nat × State := if n < s.fresh then (n, s) else s.uid

/-- Fabric time in nanoseconds (R373). -/
def ftime (s : State) : W64 := BitVec.ofNat 64 (s.fab.time.ft / 60000)

/-- Send something out of the device. [DEDUCED, log 168] -/
def emit (s : State) (o : Out) : State := { s with out := o :: s.out }

def read (s : State) (a n : Nat) : List Byte := s.mem.read a n
def poisoned (s : State) (a n : Nat) : Bool := s.mem.poisoned a n
def store (s : State) (a : Nat) (bs : List Byte) (pois : Bool := false) : State :=
  { s with mem := s.mem.store a bs pois }

/-- A range of memory whose contents the spec no longer defines. [DESIGN CHOICE, log 7] -/
def forget (s : State) (lo hi : Nat) : State :=
  { s with mem := s.mem.forget lo hi s.fresh, fresh := s.fresh + 1 }

/-! ### Cores -/

def core (s : State) (c : Nat) : Core := SMap.getD s.cores c Core.idle

def setCore (s : State) (c : Nat) (k : Core) : State := { s with cores := SMap.setD s.cores c Core.idle k }

def modCore (s : State) (c : Nat) (g : Core → Core) : State := s.setCore c (g (s.core c))

def ctx (s : State) (c : Nat) : Ctx := (s.core c).ctx

def modCtx (s : State) (c : Nat) (g : Ctx → Ctx) : State := s.modCore c fun k => { k with ctx := g k.ctx }

/-- Does the clock of core `c` run in this cycle (R77, R462, R466, R469)? [DESIGN CHOICE, log 11] [DEDUCED, log 154] -/
def clocked (s : State) (c : Nat) : Bool :=
  s.pw.pstate == 3 && s.pw.pllst == 2 && !s.pw.stops.contains (c / 64) && decide (elevel s.pw ≤ (s.now + c) % 16)

/-- The cycles core `c` has run its program: the time of its matrix unit (R77). [DESIGN CHOICE, log 77] -/
def cyc (s : State) (c : Nat) : Nat := (s.ctx c).cycles

/-- Is the core in the core map (R31, R32)? -/
def inMap (s : State) (c : Nat) : Bool := decide (c < nCores) && (s.core c).excl == 0

def prog (s : State) (h : Nat) : Option Prog := SMap.get? s.progs h
def setProg (s : State) (h : Nat) (p : Prog) : State := { s with progs := SMap.put s.progs h p }
def modProg (s : State) (h : Nat) (g : Prog → Prog) : State :=
  match s.prog h with | some p => s.setProg h (g p) | none => s

end State

/-! ### Registers of a core -/

namespace Ctx

def getA (x : Ctx) (i : Nat) : W64 := x.a[i]?.getD 0
def setA (x : Ctx) (i : Nat) (v : W64) : Ctx := { x with a := x.a.setIfInBounds i v }
def getL (x : Ctx) (i : Nat) : W64 := x.l[i]?.getD 0
def setL (x : Ctx) (i : Nat) (v : W64) : Ctx := { x with l := x.l.setIfInBounds i v }
def getP (x : Ctx) (i : Nat) : Bool := x.p.getLsbD i
def setP (x : Ctx) (i : Nat) (v : Bool) : Ctx :=
  { x with p := if v then x.p ||| BitVec.ofNat 8 (2 ^ i) else x.p &&& ~~~(BitVec.ofNat 8 (2 ^ i)) }
def flag (x : Ctx) (n : Nat) : W32 := SMap.getD x.flags n 0
def setFlag (x : Ctx) (n : Nat) (v : W32) : Ctx := { x with flags := SMap.setD x.flags n 0 v }
def getV (x : Ctx) (n : Nat) : BitVec 1024 := SMap.getD x.v n 0
def setV (x : Ctx) (n : Nat) (v : BitVec 1024) : Ctx := { x with v := SMap.setD x.v n 0 v }
/-- Set bits of the arithmetic status word (R106). -/
def sticky (x : Ctx) (bits : W32) : Ctx := { x with astat := x.astat ||| bits }

end Ctx

/-! ## The event ring (R446, R448) -/

/-- The MSI-X vector of an event class. -/
def Dc.vector (d : Dc) (cls : Nat) : Nat :=
  if cls < 8 then nfld d.evVec0.toNat (8 * cls + 7) (8 * cls) else nfld d.evVec1.toNat (8 * (cls - 8) + 7) (8 * (cls - 8))

/-- Unread entries of the ring. -/
def Dc.unread (d : Dc) : Nat := (d.evHead - d.evTail).toNat

namespace State

/-- Report a happening of class `cls`. -/
def event (s : State) (cls status : Nat) (arg0 arg1 : W64) : State :=
  let d := s.dc
  if !d.evEn then s
  else if d.unread = 255 then
    { s with dc := { d with evDrop := d.evDrop + 1, evOvf := true, evSeq := d.evSeq + 1 } }
  else
    let e : Event := ⟨cls, status, d.evSeq, s.ftime, arg0, arg1⟩
    ({ s with dc := { d with ring := SMap.put d.ring d.evHead.toNat e, evHead := d.evHead + 1,
                             evSeq := d.evSeq + 1 } }).emit (.msix (d.vector cls))

end State

/-- The 32 bytes of an entry of the event ring. -/
def Event.bytes (e : Event) : List Byte :=
  le 1 e.cls ++ le 1 0 ++ le 2 e.status ++ le 4 e.seq.toNat ++ le 8 e.time.toNat ++ le 8 e.arg0.toNat ++ le 8 e.arg1.toNat

/-! ## The error log (R514 to R516) -/

/-- The severity of a code, where the code fixes one. -/
def sevOf (code : Nat) : Nat :=
  match code with
  | 1 | 3 => 1
  | 2 | 4 | 8 | 9 | 0xB | 0xD | 0xE | 0xF => 2
  | _ => 0

/-- Does entry `e` take in a further occurrence? -/
def ErrEntry.merges (e : ErrEntry) (src code : Nat) (now : W64) : Bool :=
  e.sev == 1 && e.source == src && e.code == code && decide (now.toNat < e.time.toNat + 1000000000)

/-- Add an occurrence to the latest entry that takes it in. -/
def mergeErr (src code : Nat) (now : W64) : List ErrEntry → List ErrEntry
  | [] => []
  | e :: es =>
    if e.merges src code now && !(es.any fun x => x.merges src code now) then { e with count := e.count + 1 } :: es
    else e :: mergeErr src code now es

/-- BOOTCNT of the boot header in force (R487). -/
def Trust.bootcnt (t : Trust) : W32 :=
  match t.hdr0, t.hdr1 with
  | some a, some b => if (b.seq - a.seq).toNat < 2 ^ 31 then b.bootcnt else a.bootcnt
  | some a, none => a.bootcnt
  | none, some b => b.bootcnt
  | none, none => 0

namespace State

/-- Log an event of a block: severity `sev`, or merged under R515. [DEDUCED, log 163] -/
def logErrSev (s : State) (sev src code : Nat) (addr : W64) (status : Nat) (data : List Byte) : State :=
  let t := s.tru
  if sev = 1 && t.log.any (fun e => e.merges src code s.ftime) then
    { s with tru := { t with log := mergeErr src code s.ftime t.log } }
  else
    let e : ErrEntry := ⟨t.errSeq, sev, src, code, s.ftime, t.bootcnt, 1, addr, status, data⟩
    let log := (t.log ++ [e]).drop (t.log.length + 1 - 65536)
    (({ s with tru := { t with log := log, errSeq := t.errSeq + 1 } }).event 5 0 (t.errSeq.setWidth 64) 0).emit (.msix 3)

/-- [DEDUCED, log 163] -/
def logErr (s : State) (src code : Nat) (addr : W64) (status : Nat := 0) (data : List Byte := []) : State :=
  s.logErrSev (sevOf code) src code addr status data

end State

end Sys2Proof.Machine
end

