-- ==== Sys2Proof/Machine/Access.lean ====
section
/-! DEFINITION. Sys2Proof/Machine/Access.lean: how a requester outside a core's own units reaches this device's memory and
flags (R25, R26, R79, R193, R310, R363, R365), and the own writes of a core's units. -/

namespace Sys2Proof.Machine

/-- What `extRead` and `extWrite` answer for an address R25 refuses; each requester turns it into its own result. -/
def St.unmapped : Nat := 0x10000

/-! ## Which program a core's state is served for (R193) -/

/-- Does the group of a placed program contain core `c`? -/
def Prog.hasCore (p : Prog) (c : Nat) : Bool :=
  match p.place with
  | some (s0, a0) =>
    decide (s0 ≤ c / 64) && decide (c / 64 < s0 + p.streets) && decide (a0 ≤ c % 64) && decide (c % 64 < a0 + p.avenues)
  | none => false

/-- The core indices of a group, rising. -/
def groupCores (s0 a0 st av : Nat) : List Nat :=
  (List.range st).flatMap fun i => (List.range av).map fun j => (s0 + i) * 64 + a0 + j

def Prog.cores (p : Prog) : List Nat :=
  match p.place with | some (s0, a0) => groupCores s0 a0 p.streets p.avenues | none => []

/-- RUNNING or WAITING. -/
def Prog.active (p : Prog) : Bool := p.st == 3 || p.st == 4

/-- Of two candidates, the one started earlier. -/
def earlier (a b : Option (Nat × Prog)) : Option (Nat × Prog) :=
  match a, b with
  | some x, some y => if y.2.order < x.2.order then some y else some x
  | some x, none => some x
  | none, y => y

namespace State

/-- The program a request addressed to core `c` is served for. -/
def servedBy (s : State) (c : Nat) : Option Nat :=
  let cands := s.progs.filter fun p => p.2.active && p.2.hasCore c
  match cands.find? (fun p => p.2.st == 3) with
  | some p => some p.1
  | none =>
    match (s.core c).last with
    | some h => if cands.any (fun p => p.1 == h) then some h
                else (cands.foldl (fun a p => earlier a (some p)) none).map (·.1)
    | none => (cands.foldl (fun a p => earlier a (some p)) none).map (·.1)

/-- The saved copy of core `c` of program `h`, while the program is switched out. -/
def savedOf (s : State) (h c : Nat) : Option Saved :=
  match s.prog h with
  | some p => if p.st == 4 then SMap.get? p.saved c else none
  | none => none

def modSaved (s : State) (h c : Nat) (g : Saved → Saved) : State :=
  s.modProg h fun p =>
    match SMap.get? p.saved c with
    | some v => { p with saved := SMap.put p.saved c (g v) }
    | none => p

/-! ## Bytes (R25, R193) -/

/-- Where a request for `n` bytes at local address `a` is served: in memory, in a save area, or nowhere. -/
inductive Site where
  | mem
  | saved (h c : Nat)
  | no
  deriving DecidableEq, Repr

/-- Bytes of a deck slice that programs and requesters may use (R365). -/
def deckOpen (s : State) : Nat := deckSize - s.fab.fcu * 0x10000

/-- [DEDUCED, log 68, 80] -/
def site (s : State) (a n : Nat) : Site :=
  let core (c off use top : Nat) : Site :=
    if !s.inMap c || top < off + n then .no else
    match s.servedBy c with
    | none => .mem
    | some h =>
      match s.savedOf h c with
      | none => .mem
      | some v => if v.mem.isNone then .mem else if off + n ≤ use then .saved h c else .no
  match place a with
  | .lp => if a + n ≤ lpEnd then .mem else .no
  | .deck c off => core c off (((s.servedBy c).bind s.prog).map (·.deckUse) |>.getD 0) s.deckOpen
  | .spad c off => core c off (((s.servedBy c).bind s.prog).map (·.spadUse) |>.getD 0) spillLo
  | _ => .no

/-- Cut a range into pieces that each lie in one 256-byte block (R345). -/
def blocksOf : Nat → Nat → Nat → List (Nat × Nat)
  | 0, _, _ => []
  | k + 1, a, n =>
    if n = 0 then [] else
    let m := min n (256 - a % 256)
    (a, m) :: blocksOf k (a + m) (n - m)

def pieces (a n : Nat) : List (Nat × Nat) := blocksOf (n / 256 + 2) a n

/-- Is a block being reset (R480)? Blocks have the numbers of CMD_RESET. -/
def blockDown (s : State) (blk : Nat) : Bool := (SMap.get? s.blocks blk).isSome

/-- The memory controller that serves an address, by its block number. -/
def mcOf (a : Nat) : Option Nat := match place a with | .lp | .fw => some (a / 256 % 12) | _ => none

/-- Is the controller of an address being reset? -/
def mcDown (s : State) (a : Nat) : Bool := match mcOf a with | some k => s.blockDown k | none => false

/-- A request to a block that is being reset has completed with `ST_BLOCK_RESET`: it is counted (R480). -/
def countDown (s : State) (blk : Nat) : State :=
  { s with blocks := s.blocks.map fun b => if b.1 = blk then (b.1, { b.2 with count := b.2.count + 1 }) else b }

/-- The same for an access with the status it ended with. -/
def countAccess (s : State) (a status : Nat) : State :=
  match mcOf a with | some k => if status = St.blockReset then s.countDown k else s | none => s

/-- Read one piece for a requester outside the core. -/
def readPiece (s : State) (a n : Nat) : Nat × List (Byte × Bool) :=
  match s.site a n with
  | .mem => if s.mcDown a then (St.blockReset, []) else (St.ok, s.mem.readP a n)
  | .saved h c =>
    match (s.savedOf h c).bind (·.mem) with
    | some m => (St.ok, m.readP a n)
    | none => (St.unmapped, [])
  | .no => (St.unmapped, [])

/-- Read a range: the bytes with their poison, or the first refusal. -/
def extRead (s : State) (a n : Nat) : Nat × List (Byte × Bool) :=
  (pieces a n).foldl (fun r p =>
    if r.1 != St.ok then r else
    let q := s.readPiece p.1 p.2
    (q.1, r.2 ++ q.2)) (St.ok, [])

/-- Do two ranges share a byte? -/
def meet (a n b m : Nat) : Bool := decide (a < b + m) && decide (b < a + n)

/-- Does the range touch an open region or its shadow area (R310)? -/
def inRegion (s : State) (a n : Nat) : Bool :=
  s.regions.any fun r => meet a n r.2.base (16 * r.2.count) || meet a n r.2.shadow (8 * r.2.count)

/-- Does the range touch a frozen range (R363)? -/
def inFrozen (s : State) (a n : Nat) : Bool :=
  s.fab.expose.any fun e => e.2.kind == 1 && e.2.perm.getLsbD 3 && meet a n e.2.base e.2.size

/-- The first of these ranges, of a core's own outputs, that touches a frozen range: the device refuses the write (R363).
[DEDUCED, log 158] -/
def frozenOut (s : State) (out : List (Nat × Nat)) : Option Nat := (out.find? fun a => a.2 != 0 && s.inFrozen a.1 a.2).map (·.1)

/-- Write one piece for a requester outside the core: the status, and the state after. -/
def writePiece (s : State) (a : Nat) (bs : List (Byte × Bool)) : Nat × State :=
  let n := bs.length
  match s.site a n with
  | .no => (St.unmapped, s)
  | .mem =>
    if s.mcDown a then (St.blockReset, s.countAccess a St.blockReset) else
    if s.inRegion a n then (St.badState, s) else if s.inFrozen a n then (St.notAuthorised, s)
    else (St.ok, { s with mem := s.mem.storeP a bs })
  | .saved h c =>
    if s.inRegion a n then (St.badState, s) else if s.inFrozen a n then (St.notAuthorised, s)
    else (St.ok, s.modSaved h c fun v => { v with mem := v.mem.map fun m => m.storeP a bs })

/-- Write a range, each piece a request of its own: the status is the first refusal's. [DEDUCED, log 158] -/
def extWrite (s : State) (a : Nat) (bs : List (Byte × Bool)) : Nat × State :=
  ((pieces a bs.length).foldl (fun (r : (Nat × State) × List (Byte × Bool)) p =>
    let q := r.1.2.writePiece p.1 (r.2.take p.2)
    ((if r.1.1 = St.ok then q.1 else r.1.1, q.2), r.2.drop p.2)) ((St.ok, s), bs)).1

/-- Firmware's own write to memory of this device that it is handed (results, tables): unpoisoned bytes. -/
def devWrite (s : State) (a : Nat) (bs : List Byte) : Nat × State := s.extWrite a (bs.map fun b => (b, false))

/-! ## The own writes of a core's units -/

/-- An open region in the deck that a unit of the owning core writes into loses its values (R310). [DEDUCED, log 159] -/
def spoil (s : State) (a n : Nat) : State :=
  (s.regions.filter fun r => meet a n r.2.base (16 * r.2.count) || meet a n r.2.shadow (8 * r.2.count)).foldl
    (fun s r =>
      let s := s.forget r.2.base (r.2.base + 16 * r.2.count)
      { s with regions := SMap.put s.regions r.1 { r.2 with elems := [] } }) s

/-- A write of a core's unit to the core's own scratchpad or deck slice. -/
def ownStore (s : State) (a : Nat) (bs : List Byte) : State := (s.store a bs).spoil a bs.length

/-! ## Flags (R181, R182, R193) -/

/-- The context of program `h` on core `c`, wherever it lies. -/
def progCtx (s : State) (h c : Nat) : Option Ctx :=
  match s.prog h with
  | some p =>
    if p.st == 3 && p.hasCore c then some (s.ctx c)
    else if p.st == 4 then (SMap.get? p.saved c).map (·.ctx) else none
  | none => none

/-- The same, and of a program that has HALTED: its saved flags stay until it is unloaded (R167). -/
def keptCtx (s : State) (h c : Nat) : Option Ctx :=
  match s.prog h with
  | some p => if p.st == 5 then (SMap.get? p.saved c).map (·.ctx) else s.progCtx h c
  | none => none

def modProgCtx (s : State) (h c : Nat) (g : Ctx → Ctx) : State :=
  match s.prog h with
  | some p =>
    if p.st == 3 && p.hasCore c then s.modCtx c g
    else if p.st == 4 then s.modSaved h c fun v => { v with ctx := g v.ctx } else s
  | none => s

/-- Change a flag of program `h` on core `c`. -/
def modProgFlag (s : State) (h c n : Nat) (g : W32 → W32) : State :=
  s.modProgCtx h c fun x => x.setFlag n (g (x.flag n))

/-- A signal that reaches core `c`: it changes the flag of the program it is served for, and is lost where there is
none (R164). -/
def modFlag (s : State) (c n : Nat) (g : W32 → W32) : State :=
  match s.servedBy c with | some h => s.modProgFlag h c n g | none => s

/-- The value a flag has for a reader outside the core; zero where no program has the core. -/
def readFlag (s : State) (c n : Nat) : W32 :=
  match (s.servedBy c).bind fun h => s.progCtx h c with | some x => x.flag n | none => 0

end State

/-- What a flag signal does to the flag (R181). -/
def signalFn (set : Bool) (v : W32) (old : W32) : W32 := if set then v else old + v

end Sys2Proof.Machine
end

