-- ==== Sys2Proof/Machine/Net.lean ====
section
/-! DEFINITION. Sys2Proof/Machine/Net.lean: what the device sends on the fabric: flits and credits (R336 to R341), packets
(R344), routes (R347, R348), its own requests with their tags (R355), and reads and writes of global addresses (R28). -/

namespace Sys2Proof.Machine

/-! ## Global addresses (R7) -/

def gdev (g : Nat) : Nat := g / 2 ^ 48
def gloc (g : Nat) : Nat := g % 2 ^ 48
/-- Does the address keep R7? -/
def gvalid (g : Nat) : Bool := decide (g < 2 ^ 61)

/-! ## Packets on the wire (R344) -/

def pktBlank : Packet :=
  { op := 0, flags := 0, src := 0, dst := 0, tag := 0, addr := 0, len := 0, status := 0, poison := 0, rsv1 := 0,
    aop := 0, ea := 0, rsv2 := 0, val := 0, data := [] }

def pktBytes (p : Packet) : List Byte :=
  le 1 p.op.toNat ++ le 1 p.flags.toNat ++ le 2 p.src.toNat ++ le 2 p.dst.toNat ++ le 2 p.tag.toNat ++
  le 8 p.addr.toNat ++ le 2 p.len ++ le 2 p.status.toNat ++ le 1 p.poison.toNat ++ le 1 p.rsv1.toNat ++
  le 2 p.aop.toNat ++ le 2 p.ea.toNat ++ le 2 p.rsv2.toNat ++ le 4 p.val.toNat ++
  fit ((p.data.length + 15) / 16 * 16) p.data

/-- The poison nibble of data bytes. -/
def poisNibble (bs : List (Byte × Bool)) : BitVec 8 :=
  BitVec.ofNat 8 (iterate 4 0 fun i n => if ((bs.drop (64 * i)).take 64).any (·.2) then n + 2 ^ i else n)

/-- Data bytes with the poison their nibble gives them. -/
def withNibble (bs : List Byte) (p : BitVec 8) : List (Byte × Bool) :=
  bs.zipIdx.map fun x => (x.1, p.getLsbD (x.2 / 64))

/-! ## Links -/

namespace Link

/-- Is the link a half of a port in two-×4 mode? The sizes of R339 and R341 halve then. -/
def bufferOf (key : Nat) : Nat :=
  match key / 2 with | 0 => 64 | 1 => 256 | 2 => 256 | 3 => 128 | 4 => 256 | _ => 64

/-- The byte fields of a flit before its CRC (R336). -/
def flitBytes (ctl first seq ack cr : Nat) (payload : List Byte) : List Byte :=
  let b := le 1 ctl ++ le 1 first ++ le 2 seq ++ le 2 ack ++ le 2 cr ++ zeros 4 ++ fit 240 payload
  b ++ le 4 (crc32c b)

/-- ACK and ACKV. -/
def ackField (l : Link) : Nat := l.rxExp + 0x8000

/-- CR for the first pair that has credits to return. -/
def crField (l : Link) : Nat × SMap Nat :=
  match l.owed with
  | [] => (0, [])
  | (k, n) :: rest =>
    (k / 2 + (k % 2) * 8 + 16 + (min n 2047) * 32, if n ≤ 2047 then rest else (k, n - 2047) :: rest)

/-- A flit goes out: acknowledgement and credits ride on it. [DEDUCED, log 146] -/
def stamp (l : Link) : Link := { l with unacked := 0, owed := l.crField.2 }

/-- Fill up to `room` bytes of a flit of `pair` from the packets that wait, in order: the bytes, FIRST (15 while no header has begun), and
what still waits. A waiting packet is its pair and its bytes after a mark: 0 when none has been sent, else 1 (R337).
[DEDUCED, log 161] -/
def fill (pair : Nat) : List (Nat × List Byte) → Nat → Nat → List Byte × Nat × List (Nat × List Byte)
  | [], _, first => ([], first, [])
  | q :: qs, room, first =>
    if q.1 != pair || room = 0 then
      let r := fill pair qs room first
      (r.1, r.2.1, q :: r.2.2)
    else
      let body := q.2.drop 1
      let first := if first = 15 && q.2.head? == some 0 then (240 - room) / 16 else first
      let r := fill pair qs (room - body.length) first
      let left := body.drop room
      (body.take room ++ r.1, r.2.1, if left.isEmpty then r.2.2 else (pair, 1 :: left) :: r.2.2)

/-- The next payload flit: of the packet that has waited longest among those whose pair holds a credit, filled up with what waits for that
pair, and with PAD (R337, R340, R341). [DEDUCED, log 161] -/
def next (room : Nat) (l : Link) : Option (Link × List Byte) :=
  if (l.state != 2 && l.state != 4) || room ≤ l.replay.length then none else
  match l.txq.find? fun q => SMap.getD l.credits q.1 0 != 0 with
  | none => none
  | some q =>
    let (body, first, left) := fill q.1 l.txq 240 15
    let first := if first = 15 then min 15 (body.length / 16) else first
    let f := flitBytes (1 + (q.1 / 2) * 4 + (q.1 % 2) * 32) first l.txSeq l.ackField l.crField.1 body
    some ({ l.stamp with credits := SMap.setD l.credits q.1 0 (SMap.getD l.credits q.1 0 - 1), txSeq := (l.txSeq + 1) % 4096,
                         replay := l.replay ++ [(l.txSeq, f)], txq := left }, f)

/-- Send what holds a credit and finds room in the replay buffer; a pair keeps its order. -/
def pump (room : Nat) (l : Link) : Link × List (List Byte) :=
  iterate ((l.txq.map fun q => (q.2.length + 239) / 240).sum) (l, []) fun _ a =>
    match next room a.1 with | some (l, f) => (l, a.2 ++ [f]) | none => a

end Link

namespace State

def link (s : State) (n : Nat) : Link := SMap.getD s.fab.links n Link.down
def setLink (s : State) (n : Nat) (l : Link) : State :=
  { s with fab := { s.fab with links := SMap.setD s.fab.links n Link.down l } }
def bvPort (s : State) (n : Nat) : BvPort := SMap.getD s.fab.ports n BvPort.off
def setPort (s : State) (n : Nat) (p : BvPort) : State :=
  { s with fab := { s.fab with ports := SMap.setD s.fab.ports n BvPort.off p } }

/-- Links of a port that its committed mode uses and HALF names (R333): 0 both, 1 A, 2 B. -/
def linksOf (s : State) (n half : Nat) : List Nat :=
  match (s.bvPort n).mode with
  | 1 => [2 * n]
  | 2 => if half = 1 then [2 * n] else if half = 2 then [2 * n + 1] else [2 * n, 2 * n + 1]
  | _ => []

/-- Report the fabric state and the links that are down (R447). [DEDUCED, log 145] -/
def fabricEvent (s : State) : State :=
  let down := (List.range 18).foldl (fun n k => (s.linksOf k 0).foldl (fun n l => if (s.link l).state = 0 then n + 2 ^ l else n) n) 0
  s.event 7 0 (BitVec.ofNat 64 s.fab.devState) (BitVec.ofNat 64 down)

/-- Set a bit of the half of `BV_PERR` that a link has. -/
def linkErr (s : State) (l bit : Nat) : State :=
  let p := s.bvPort (l / 2)
  let b := BitVec.ofNat 5 (2 ^ bit)
  s.setPort (l / 2) (if l % 2 = 0 then { p with erra := p.erra ||| b } else { p with errb := p.errb ||| b })

/-- An event of a link for the error log. -/
def linkLog (s : State) (l code : Nat) : State := s.logErr (0x10 + l / 2) code (BitVec.ofNat 64 (l / 2))

/-- A link starts training at its full width. [DEDUCED, log 146] [DESIGN CHOICE, log 173] -/
def linkTrain (s : State) (l : Nat) : State := s.setLink l { Link.down with state := 1, since := s.now }

/-- A link retrains; replay buffer and sequence state stay (R342). [DEDUCED, log 146] -/
def retrain (s : State) (l : Nat) : State :=
  ((s.setLink l { s.link l with state := 3, since := s.now, fails := 0 }).linkErr l 2).linkLog l 3

/-- Replay-buffer room of a link: 512 flits at ×8, 256 at ×4 (R341). -/
def replayRoom (s : State) (n : Nat) : Nat := if (s.bvPort (n / 2)).mode = 2 then 256 else 512

/-- Put flits on a link. [DEDUCED, log 161] -/
def flits (s : State) (n : Nat) (fs : List (List Byte)) : State :=
  fs.foldl (fun s f => s.emit (.flit n f)) s

/-- Send what the link can send now. -/
def pumpLink (s : State) (n : Nat) : State :=
  let (l, outs) := Link.pump (s.replayRoom n) (s.link n)
  let p := s.bvPort (n / 2)
  let s := (s.setLink n l).flits n outs
  if outs.isEmpty then s else s.setPort (n / 2) { p with txf := p.txf + BitVec.ofNat 64 outs.length }

/-- A control flit (R338). -/
def controlFlit (s : State) (n code : Nat) (body : List Byte) : State :=
  let l := s.link n
  (s.setLink n l.stamp).emit (.flit n (Link.flitBytes 2 15 0 l.ackField l.crField.1 (fit 2 [BitVec.ofNat 8 code] ++ body)))

/-- An idle flit, which carries acknowledgement and credits. [DEDUCED, log 161] -/
def idleFlit (s : State) (n : Nat) : State :=
  let l := s.link n
  (s.setLink n l.stamp).emit (.flit n (Link.flitBytes 0 15 0 l.ackField l.crField.1 []))

/-- Hand a packet to a link. -/
def sendPacket (s : State) (n vl : Nat) (p : Packet) : State :=
  let p := { p with vl := vl }
  let key := 2 * vl + (if p.flags.getLsbD 0 then 1 else 0)
  let l := s.link n
  ((s.setLink n { l with txq := l.txq ++ [(key, 0 :: pktBytes p)] }).emit (.packet n p)).pumpLink n

/-! ## Routes (R347, R348) -/

/-- The links of a device's entry that are up, rising; a port that is being reset is left out (R381). -/
def routeLinks (s : State) (d : Nat) : List Nat :=
  let m := SMap.getD s.fab.routes d 0
  (List.range 36).filter fun i => m.getLsbD i && (s.link i).state == 2 && !s.blockDown (0x10 + i / 2)

/-- The link a packet takes to device `d`, by the number that spreads it. -/
def pickLink (s : State) (d key : Nat) : Option Nat :=
  let ls := s.routeLinks d
  if ls.isEmpty then none else ls[key % ls.length]?

/-- The spreading number of a request. -/
def routeKey (p : Packet) : Nat :=
  if p.op = 1 || p.op = 2 || p.op = 3 then gloc p.addr.toNat / 256 + p.dst.toNat else p.dst.toNat

/-! ## Requests of this device (R346, R355, R379) -/

/-- Is a snapshot holding new requests on lanes 1 to 4 at their source (R370)? -/
def snapHold (s : State) : Bool :=
  s.fab.trees.any fun t => match t.2.run with | some r => r.kind == 2 && r.draining | none => false

/-- The lowest free tag of the request's group. [DESIGN CHOICE, log 165] -/
def freeTag (s : State) (rdReq : Bool) : Option Nat :=
  let base := if rdReq then 0 else 0x8000
  ((List.range 0x8000).find? fun i => (SMap.get? s.fab.outst (base + i)).isNone).map (base + ·)

/-- Send a request that holds a tag. [DEDUCED, log 97] -/
def transmit (s : State) (tag link : Nat) (r : Req) : State :=
  let p := { r.pkt with tag := BitVec.ofNat 16 tag, src := BitVec.ofNat 16 s.fab.devnum }
  let r := { r with pkt := p, link := link, deadline := s.now + s.fab.tmoUs * 2400, epoch := s.fab.epoch }
  ({ s with fab := { s.fab with outst := SMap.put s.fab.outst tag r } }).sendPacket link r.vl p

/-- Issue a request to another device: refused at its source with a status, or sent, or waiting for a tag.
[DEDUCED, log 162] -/
def request (s : State) (pkt : Packet) (vl : Nat) (prog : Option Nat) (cont : Cont) : Except Nat State :=
  let d := pkt.dst.toNat
  if s.fab.devState != 1 || !SMap.getD s.fab.members d false then .error St.departed else
  match s.pickLink d (routeKey pkt) with
  | none => .error St.departed
  | some l =>
    let r : Req := ⟨pkt, vl, l, 0, prog, cont, 0⟩
    let wait := { s with fab := { s.fab with waiting := s.fab.waiting ++ [r] } }
    if s.snapHold && decide (1 ≤ vl) && decide (vl ≤ 4) then .ok wait else
    match s.freeTag (pkt.op = 1) with
    | none => .ok wait
    | some t => .ok (s.transmit t l r)

/-! ## The frozen cache (R365, R366) -/

/-- Cores of the map below a core (the slice numbering of R365). -/
def mapSize (s : State) : Nat := nCores - (s.cores.filter fun k => k.1 < nCores && k.2.excl != 0).length

/-- The set that serves a block: slice number and set within it. -/
def cacheSet (s : State) (g : Nat) : Nat :=
  let m := s.mapSize
  let b := g / 256
  (b % m) * 1024 + (b / m) % (s.fab.fcu * 64)

/-- Look a block up; a hit becomes the most recently used line of its set. -/
def cacheLook (s : State) (g : Nat) : Option (List Byte) × State :=
  if s.fab.fcu = 0 || s.mapSize = 0 then (none, s) else
  let k := s.cacheSet g
  let set := SMap.getD s.fab.cache k []
  match set.find? (fun l => l.addr == g / 256 * 256) with
  | some l =>
    (some l.data, { s with fab := { s.fab with
      cache := SMap.put s.fab.cache k (l :: set.filter fun x => x.addr != l.addr), fcHit := s.fab.fcHit + 1 } })
  | none => (none, { s with fab := { s.fab with fcMiss := s.fab.fcMiss + 1 } })

/-- Fill a line, replacing the least recently used of its set. -/
def cacheFill (s : State) (g : Nat) (data : List Byte) : State :=
  if s.fab.fcu = 0 || s.mapSize = 0 then s else
  let k := s.cacheSet g
  let a := g / 256 * 256
  let set := (SMap.getD s.fab.cache k []).filter fun x => x.addr != a
  { s with fab := { s.fab with cache := SMap.put s.fab.cache k (⟨a, data⟩ :: set.take 3) } }

end State

/-! ## Reads and writes of global addresses (R28) -/

/-- How an access ends at once, or that it is under way. -/
inductive Sent where
  | done (status : Nat)
  | data (bs : List (Byte × Bool))
  | out
  deriving DecidableEq, Repr

namespace State

def readPkt (s : State) (g n : Nat) : Packet :=
  { pktBlank with op := 1, dst := BitVec.ofNat 16 (gdev g), addr := BitVec.ofNat 64 g, len := n,
                      flags := if s.fab.fcu = 0 then 0 else 4 }

def writePkt (g : Nat) (bs : List (Byte × Bool)) : Packet :=
  { pktBlank with op := 2, dst := BitVec.ofNat 16 (gdev g), addr := BitVec.ofNat 64 g, len := bs.length,
                      data := bs.map (·.1), poison := poisNibble bs }

/-- Read one piece (within a 256-byte block) of the global space. -/
def gReadPiece (s : State) (g n vl : Nat) (prog : Option Nat) (cont : Cont) : Sent × State :=
  if !gvalid g then (.done St.badField, s)
  else if gdev g = s.fab.devnum then
    let r := s.readPiece (gloc g) n
    if r.1 = St.ok then (.data r.2, s) else (.done r.1, s.countAccess (gloc g) r.1)
  else
    let (hit, s) := s.cacheLook g
    match hit with
    | some line => (.data (((line.drop (g % 256)).take n).map fun b => (b, false)), s)
    | none =>
      match s.request (s.readPkt g n) vl prog cont with
      | .error e => (.done e, s)
      | .ok s => (.out, s)

/-- Write one piece of the global space. -/
def gWritePiece (s : State) (g : Nat) (bs : List (Byte × Bool)) (vl : Nat) (prog : Option Nat) (cont : Cont) :
    Sent × State :=
  if !gvalid g then (.done St.badField, s)
  else if gdev g = s.fab.devnum then
    let r := s.writePiece (gloc g) bs
    (.done r.1, r.2)
  else
    match s.request (writePkt g bs) vl prog cont with
    | .error e => (.done e, s)
    | .ok s => (.out, s)

/-- Write a range of the global space: the first status other than ST_OK, and how many pieces are under way. -/
def gWrite (s : State) (g : Nat) (bs : List (Byte × Bool)) (vl : Nat) (prog : Option Nat) (cont : Cont) :
    Nat × Nat × State :=
  ((pieces g bs.length).foldl (fun (r : (Nat × Nat × State) × List (Byte × Bool)) p =>
    let (sent, s) := r.1.2.2.gWritePiece p.1 (r.2.take p.2) vl prog cont
    let st := match sent with | .done e => e | _ => St.ok
    let n := match sent with | .out => 1 | _ => 0
    ((if r.1.1 = St.ok then st else r.1.1, r.1.2.1 + n, s), r.2.drop p.2)) ((St.ok, 0, s), bs)).1

/-! ### Fetches: reads whose parts may lie on other devices -/

def fetch? (s : State) (k : FetchKey) : Option Fetch := s.fab.fetches.find? fun f => f.key == k

def setFetch (s : State) (f : Fetch) : State :=
  { s with fab := { s.fab with fetches := f :: s.fab.fetches.filter fun x => !(x.key == f.key) } }

def dropFetch (s : State) (k : FetchKey) : State :=
  { s with fab := { s.fab with fetches := s.fab.fetches.filter fun x => !(x.key == k) } }

end State

/-- Bytes arrive for a fetch at offset `off`. -/
def Fetch.got (f : Fetch) (off : Nat) (bs : List (Byte × Bool)) : Fetch :=
  bs.zipIdx.foldl (fun f x =>
    { f with bytes := SMap.put f.bytes (off + x.2) x.1.1,
             pois := if x.1.2 then f.pois ++ [off + x.2] else f.pois }) f

/-- A part of a fetch ends badly; the first failure is kept. -/
def Fetch.failed (f : Fetch) (status : Nat) : Fetch := { f with status := if f.status = St.ok then status else f.status }

/-- A failure a requester of the device itself (a stream, firmware) reports: an address R25 refuses is a bad field.
[DEDUCED, log 63] -/
def stOf (e : Nat) : Nat := if e = St.unmapped then St.badField else e

namespace State

/-- Begin a fetch of the ranges `rs` (global address, length), one after another from offset `off`. -/
def fetchMore (s : State) (k : FetchKey) (rs : List (Nat × Nat)) (vl : Nat) (prog : Option Nat) (off : Nat) : State :=
  (rs.foldl (fun (a : Nat × State) r =>
    (pieces r.1 r.2).foldl (fun (a : Nat × State) p =>
      let (sent, s) := a.2.gReadPiece p.1 p.2 vl prog (.fetch k a.1)
      let f := (s.fetch? k).getD ⟨k, [], [], 0, St.ok⟩
      let f := match sent with
        | .data bs => f.got a.1 bs
        | .done e => f.failed (stOf e)
        | .out => { f with missing := f.missing + 1 }
      (a.1 + p.2, s.setFetch f)) a) (off, s)).2

def fetchNew (s : State) (k : FetchKey) (rs : List (Nat × Nat)) (vl : Nat) (prog : Option Nat) : State :=
  fetchMore (s.setFetch ⟨k, [], [], 0, St.ok⟩) k rs vl prog 0

end State

/-- The first `n` bytes of a fetch with their poison. -/
def Fetch.data (f : Fetch) (off n : Nat) : List (Byte × Bool) :=
  (List.range n).map fun i => (SMap.getD f.bytes (off + i) 0, f.pois.contains (off + i))

/-! ## Flag signals under way (R181, R182) -/

namespace State

/-- Launch a flag signal: to a core of this device, or to another device. It waits for the numbers in `after`. -/
def signal (s : State) (src : SigSrc) (dst : SigDst) (set : Bool) (v : W32) (after : List Nat) : Nat × State :=
  let (u, s) := s.uid
  (u, { s with sigs := s.sigs ++ [⟨u, src, dst, set, v, after, s.now + 2⟩] })

/-- The flag a device-side unit names by device, core and flag number. -/
def sigTo (s : State) (dev core flag : Nat) : SigDst :=
  if dev = 0xFFFF || dev = s.fab.devnum then .here core flag else .far dev core flag

end State

end Sys2Proof.Machine
end

