-- ==== Sys2Proof/Machine/Work.lean ====
section
/-! DEFINITION. Sys2Proof/Machine/Work.lean: what of a core's instructions has not completed (R179, R183, R187, R188, R533),
and giving up work whose program or stream has stopped (R317, R380). -/

namespace Sys2Proof.Machine

/-- An instruction that has not completed: whether it writes memory (R183), whether it makes an access outside its core's
own memory (R187), and its unit (R534: 1 matrix, 2 vector, 3 row, 4 attention, 5 data movement, 6 scalar memory). -/
structure Work where
  uid    : Nat
  writes : Bool
  out    : Bool
  unit   : Nat
  deriving DecidableEq, Repr

/-- Is the instruction of a matrix-queue entry one that writes memory? -/
def MKind.writes : MKind → Bool
  | .accst .. | .accsv .. => true
  | _ => false

/-- Panel loads that have not ended (R533). -/
def Matrix.open (m : Matrix) : List PanelLoad :=
  ((match m.pass with | some q => [q.panel] | none => []) ++ (match m.late with | some l => [l] | none => []) ++ m.loads).filter fun l => l.ended.isNone

/-- The core and program a continuation belongs to, with the work it completes. -/
def Cont.work : Cont → Option (Nat × Nat × Work)
  | .load c h u .. => some (c, h, ⟨u, false, true, 6⟩)
  | .store c h u .. => some (c, h, ⟨u, true, true, 6⟩)
  | .atom c h u .. => some (c, h, ⟨u, true, true, 5⟩)
  | .signal u (.core c h ..) => some (c, h, ⟨u, false, true, 0⟩)
  | .halo c h u .. => some (c, h, ⟨u, true, true, 0⟩)
  | _ => none

/-- Does a continuation belong to stream `st`? -/
def Cont.ofStream (st : Nat) : Cont → Bool
  | .piece n | .elem n | .result n => n == st
  | .fetch (.run n) _ | .fetch (.batch n) _ => n == st
  | _ => false

namespace State

def stem (s : State) (e : Nat) : StemEngine := SMap.getD s.stems e StemEngine.idle
def setStem (s : State) (e : Nat) (x : StemEngine) : State := { s with stems := SMap.setD s.stems e StemEngine.idle x }

/-- The stem engine a core uses (R258). -/
def stemOf (c : Nat) : Nat := if c / 64 ≤ 23 then c % 64 % 8 else 8 + c % 64 % 8

/-- Every job of an engine, oldest first. -/
def stemJobs (x : StemEngine) : List StemJob :=
  (match x.run with | some r => [r.job] | none => []) ++ x.que ++ x.resv

/-- Has the work with number `u` not completed? -/
def alive (s : State) (u : Nat) : Bool :=
  s.cores.any (fun k => k.2.ctx.mx.queue.any (fun e => e.uid == u) ||
    k.2.ctx.mx.open.any (fun l => l.uid == u && l.owner == 0) ||
    k.2.ctx.uq.any (fun q => q.uid == u) || (match k.2.ctx.attn with | some a => a.uid == u | none => false)) ||
  s.sigs.any (fun g => g.uid == u) || s.atoms.any (fun a => a.uid == u) ||
  (s.fab.outst.map (·.2.cont) ++ s.fab.waiting.map (·.cont)).any (fun k =>
    match k with
    | .signal v _ => v == u
    | k => match k.work with | some (_, _, w) => w.uid == u | none => false) ||
  s.sposts.any (fun p => p.uid == u) || s.stems.any (fun e => (stemJobs e.2).any fun j => j.uid == u) ||
  s.sreq.any (fun j => j.uid == u) ||
  s.kv.edits.any (fun e => e.uid == u)

/-- Everything of program `h` on core `c` that has not completed. -/
def works (s : State) (c h : Nat) : List Work :=
  let x := s.ctx c
  x.mx.queue.map (fun e => ⟨e.uid, e.kind.writes, false, 1⟩) ++
  (x.mx.open.filter fun l => l.owner == 0).map (fun l => ⟨l.uid, false, false, 1⟩) ++
  (match x.attn with | some a => [⟨a.uid, true, true, 4⟩] | none => []) ++
  s.sigs.filterMap (fun g => match g.src with
    | .core c' h' .. => if c' = c && h' = h then some ⟨g.uid, false, true, 0⟩ else none
    | .dev => none) ++
  s.atoms.filterMap (fun a => match a.src with
    | .core c' h' .. => if c' = c && h' = h then some ⟨a.uid, true, true, 5⟩ else none
    | _ => none) ++
  (s.fab.outst.map (·.2.cont) ++ s.fab.waiting.map (·.cont)).filterMap (fun k =>
    match k.work with | some (c', h', w) => if c' = c && h' = h then some w else none | none => none) ++
  s.sposts.filterMap (fun p => if p.core = c && p.h = h then some ⟨p.uid, false, false, 5⟩ else none) ++
  x.uq.map (fun q => ⟨q.uid, q.lane == 40 || q.foot.spans.any (·.wr), q.lane == 40, q.lane / 10⟩) ++
  ((stemJobs (s.stem (stemOf c)) ++ s.sreq).filter fun j => j.core == c && j.handle == h).map (fun j => ⟨j.uid, true, false, 7⟩) ++
  (s.kv.edits.filterMap fun e => match e.src with
    | .core c' h' .. => if c' = c && h' = h then some ⟨e.uid, false, false, 4⟩ else none
    | _ => none) ++
  x.fence.filterMap fun u => if s.alive u then some ⟨u, false, false, 0⟩ else none

/-- Does a BOLLARD of the core still wait (R187)? [DEDUCED, log 45] -/
def fenced (s : State) (c : Nat) : Bool := (s.ctx c).fence.any s.alive

/-! ## Giving up -/

/-- Requests whose continuation `q` picks are given up: those not yet sent are dropped, the answers of the others are
discarded. [DEDUCED, log 160] -/
def dropConts (s : State) (q : Cont → Bool) : State :=
  { s with fab := { s.fab with
      outst := s.fab.outst.map (fun r => (r.1, if q r.2.cont then { r.2 with cont := .drop, prog := none } else r.2)),
      waiting := s.fab.waiting.filter fun r => !q r.cont } }

/-- Latches that `q` picks are released (R215). -/
def releaseLatch (s : State) (q : LatchBy → Bool) : State :=
  { s with kv := { s.kv with latches := s.kv.latches.filter fun l => !q l.holder } }

/-- A range of the global space loses its contents, as far as it is this device's. -/
def forgetG (s : State) (g n : Nat) : State :=
  if gdev g = s.fab.devnum then
    match place (gloc g) with
    | .lp | .deck .. | .spad .. => s.forget (gloc g) (gloc g + n)
    | _ => s
  else s

/-- The groups of 256 outputs of a stem job, the positions of SWGRAD, and the cycles each takes (R263). -/
def stemGroups (op : Nat) (d : List Byte) : Nat × Nat :=
  let up (n : Nat) : Nat := (n + 255) / 256
  let outs := rd d 0x1E 2 * rd d 6 2; let taps := rd d 8 1 * rd d 9 1; let cn := rd d 0xE 1; let nout := rd d 0xF 1
  if op = 0xA8 then (up (outs * nout), taps * cn)
  else if op = 0xA9 then (outs, up (nout * taps * cn))
  else if op = 0xAA then (up (outs * nout), taps)
  else (up (outs * 4), 1)

/-- A running job that stops at the end of its present group, with what it has read of its descriptor (R265).
[DEDUCED, log 43] -/
def stemPause (s : State) (r : StemRun) : StemJob :=
  let (n, per) := stemGroups (r.job.frame.toNat % 256) r.desc
  { r.job with held := r.desc,
               done := min n (r.job.done + (if per = 0 then 0 else (s.now - r.start - 40 + per - 1) / per)) }

/-- Take the jobs of a program on a core off its stem engine. [DEDUCED, log 43] -/
def takeStems (s : State) (c h : Nat) : List StemJob × State :=
  let x := s.stem (stemOf c)
  let mine := fun (j : StemJob) => j.core == c && j.handle == h
  let jobs := ((match x.run with | some r => [s.stemPause r] | none => []) ++ x.que ++ x.resv ++ s.sreq).filter mine
  let run := match x.run with | some r => if mine r.job then none else some r | none => none
  let y : StemEngine := { resv := x.resv.filter fun j => !mine j, que := x.que.filter fun j => !mine j, run := run }
  let s : State := { s with sreq := s.sreq.filter fun j => !mine j }
  (jobs, s.setStem (stemOf c) y)

/-- The output rows of a stem job with descriptor `d` (R259): address and length. -/
def stemOut (j : StemJob) (d : List Byte) : List (Nat × Nat) :=
  let op := j.frame.toNat % 256
  let yrow := rd d 0x18 4; let h0 := rd d 0x1C 2; let nh := rd d 0x1E 2; let ow := rd d 6 2; let nout := rd d 0xF 1
  let es := if rd d 0x11 1 = 0 then 4 else 2
  if op = 0xA9 then [(gloc (rd d 0x28 8), nout * rd d 8 1 * rd d 9 1 * 16)]
  else if op = 0xAB then (List.range nh).map fun i => (gloc (rd d 0x38 8) + (h0 + i) * yrow, ow * 8)
  else (List.range nh).map fun i => (gloc (rd d 0x38 8) + (h0 + i) * yrow, ow * nout * es)

/-- The descriptor of a job that does not run: the one read before a pre-emption, or what memory holds. -/
def jobDesc (s : State) (j : StemJob) : List Byte := if j.held.isEmpty then s.read (gloc j.desc) 64 else j.held

/-- What the jobs of a program on a core would write of that core's own memory (R266). [DEDUCED, log 43] -/
def stemArea (s : State) (c h : Nat) : List (Nat × Nat) :=
  let x := s.stem (stemOf c)
  let mine := fun (j : StemJob) => j.core == c && j.handle == h
  let now := match x.run with | some r => if mine r.job then stemOut r.job r.desc else [] | none => []
  (now ++ ((x.que ++ x.resv ++ s.sreq).filter mine).flatMap fun j => stemOut j (s.jobDesc j)).filter
    fun p => ownRange c p.1 p.2

end State

/-! ## The output area of a clip (R279, R284) -/

/-- Address and length of the runs of bytes a clip's layout defines, for `chn` channels. -/
def clipArea (d : List Byte) (chn : Nat) : List (Nat × Nat) :=
  let nf := rd d 0x2E 2; let oh := rd d 0x26 2; let ow := rd d 0x24 2
  let pt := rd d 0x30 1; let ph := rd d 0x31 1; let pw := rd d 0x32 1
  let es := match Fmt.ofCode (rd d 0x33 1) with | some .fp32 => 4 | some .uint8 => 1 | _ => 2
  let D := pt * ph * pw * chn
  let dst := rd d 0x40 8
  let nt := nf / pt; let nh := oh / ph; let nw := ow / pw
  if rd d 0x34 1 = 0 then (List.range (nt * nh * nw)).map fun n => (dst + n * rd d 0x48 4, D * es)
  else
    let cbw := if es = 1 then 32 else 16
    (List.range nt).flatMap fun t => (List.range nh).flatMap fun h => (List.range nw).flatMap fun w =>
      (List.range ((D + cbw - 1) / cbw)).map fun cb =>
        (dst + t * rd d 0x50 4 + h * rd d 0x4C 4 + w * rd d 0x48 4 + cb * rd d 0x54 4, cbw * es)

namespace State

def igEngine (s : State) (e : Nat) : IgEngine := SMap.getD s.ig.engines e IgEngine.idle
def setIgEngine (s : State) (e : Nat) (x : IgEngine) : State :=
  { s with ig := { s.ig with engines := SMap.setD s.ig.engines e IgEngine.idle x } }

def modBatch (s : State) (u : Nat) (g : Batch → Batch) : State :=
  { s with ig := { s.ig with batches := s.ig.batches.map fun b => if b.uid = u then g b else b } }

/-- The completion record of a clip of batch `u` (R283), where its address is fit for one; the batch waits for it (R286). -/
def clipRecord (s : State) (rec status reason decoded tokens e u : Nat) : State :=
  if rec % 16 != 0 || !gvalid rec then s else
  let (_, n, s) := s.gWrite rec ((le 2 status ++ le 2 reason ++ le 4 decoded ++ le 4 tokens ++ le 1 e ++ zeros 3).map fun b =>
    (b, false)) 3 none (.note u)
  s.modBatch u fun b => { b with wait := b.wait + n }

/-- The record of a clip of batch `u` that went to another device has been answered. -/
def clipNoted (s : State) (u : Nat) : State := s.modBatch u fun b => { b with wait := b.wait - 1 }

/-- How a clip leaves its engine: its batch hears of it, and the counters (R286, R288). -/
def clipGone (s : State) (e status decoded pix : Nat) : State :=
  let x := s.igEngine e
  match x.run with
  | none => s
  | some r =>
    let good := status = St.ok
    let s := s.setIgEngine e { x with
      run := none, done := if good then x.done + 1 else x.done, skip := if good then x.skip else x.skip + 1,
      pix := x.pix + BitVec.ofNat 64 (decoded * pix) }
    let s : State := { s with fab := { s.fab with fetches := s.fab.fetches.filter fun f => !(f.key == FetchKey.clip e) } }
    let s := s.modBatch r.batch fun b => { b with live := b.live - 1, bad := if good then b.bad else b.bad + 1 }
    { s with ig := { s.ig with
        ok := if good then s.ig.ok + 1 else s.ig.ok, corrupt := if status = St.corruptInput then s.ig.corrupt + 1 else s.ig.corrupt,
        timed := if status = St.timeout then s.ig.timed + 1 else s.ig.timed,
        pixels := s.ig.pixels + BitVec.ofNat 64 (decoded * pix) } }

/-- Stop the running clip of an engine without filling (R284, R287). [DEDUCED, log 92] -/
def stopClip (s : State) (e status : Nat) : State :=
  let x := s.igEngine e
  match x.run with
  | none => s
  | some r =>
    let k := s.fresh
    let s := (clipArea r.desc r.chn).foldl (fun s a => s.forgetG a.1 a.2) { s with fresh := k + 2 }
    let s := s.dropConts fun c => match c with | .clip n _ | .fetch (.clip n) _ => n == e | _ => false
    let s := if r.desc.isEmpty then s else
      s.clipRecord (rd r.desc 0x70 8) status 0 (Config.freeNat k % 2 ^ 32) (Config.freeNat (k + 1) % 2 ^ 32) e r.batch
    s.clipGone e status 0 0

/-- Take a batch of a stream off the ingest block (R287). -/
def stopBatch (s : State) (st status : Nat) : State :=
  match s.ig.batches.find? (fun b => b.st == st) with
  | none => s
  | some b =>
    let s := iterate 8 s fun e s =>
      match (s.igEngine e).run with | some r => if r.batch = b.uid then s.stopClip e status else s | none => s
    { s with ig := { s.ig with batches := s.ig.batches.filter fun x => x.uid != b.uid } }

/-! ## Streams: what a stopped descriptor leaves (R317) -/

/-- What chunk `j` of a LOAD restores: elements, element bytes and mode of its header; a full chunk where that cannot be read on this
device. [DEDUCED, log 61] -/
def chunkHead (s : State) (d : List Byte) (j : Nat) : Nat × Nat × Nat :=
  let n := rd d 0x30 4 + j
  if gdev (rd d 0x10 8) = s.fab.devnum && gdev (rd d 0x18 8) = s.fab.devnum then
    let t := s.read (gloc (rd d 0x18 8)) (2 * n)
    let off := iterate n 0 fun i k => k + 64 * (rd t (2 * i) 2 % 128)
    let h := s.read (gloc (rd d 0x10 8) + off) 8
    let es := match Fmt.ofCode (rd h 1 1) with | some f => max 1 (f.bits / 8) | none => 1
    (min (rd h 4 2) (4096 / es), es, rd h 0 1)
  else (4096, 1, 0)

/-- The bytes a descriptor writes: global address and length of each run. [DEDUCED, log 61] -/
def descArea (s : State) (d : List Byte) : List (Nat × Nat) :=
  match rd d 0 1 with
  | 1 => (List.range (rd d 0x26 2)).flatMap fun p => (List.range (rd d 0x24 2)).map fun r =>
      (rd d 0x18 8 + p * rd d 0x34 4 + r * rd d 0x2C 4, rd d 0x20 4)
  | 2 => (List.range (rd d 0x1E 2)).flatMap fun p => (List.range (rd d 0x1C 2)).map fun r =>
      (rd d 0x10 8 + p * rd d 0x24 4 + r * rd d 0x20 4, rd d 0x18 4)
  | 3 => [(rd d 0x18 8, rd d 0x34 4), (rd d 0x20 8, 2 * ((rd d 0x30 4 + 4095) / 4096))]
  | 4 => (List.range (rd d 0x34 4)).flatMap fun j =>
      let (n, es, mode) := s.chunkHead d j
      (rd d 0x20 8 + 4096 * j, n * es) :: if mode = 4 then [(rd d 0x28 8 + j * (4096 / es) / 8, (n + 7) / 8)] else []
  | 5 =>
    match SMap.get? s.kv.pools (rd d 0x10 4 / 2 ^ 28) with
    | some q => [(rd d 0x20 8, rd d 0x1C 4 * 32 * q.hdim * (q.fmt.bits / 8))]
    | none => []
  | 7 => [(rd d 0x18 8, rd d 0x20 4 * (if rd d 0x24 1 = 1 then 16 else 8))]
  | 0x13 => [(rd d 0x18 8, rd d 0x20 4 * (if rd d 0x29 1 = 1 then 8 else 4))]
  | _ => []

def stream? (s : State) (st : Nat) : Option Stream := SMap.get? s.streams st
def setStream (s : State) (st : Nat) (x : Stream) : State := { s with streams := SMap.put s.streams st x }

/-- Detach a bucket, a norm step, a step program and a tree from the stream that waits for them (R419). -/
def detach (s : State) (st : Nat) : State :=
  { s with
    tr := { s.tr with
      buckets := s.tr.buckets.map (fun b => (b.1, { b.2 with
        go := (if b.2.go = some (some st) then some none else b.2.go),
        run := b.2.run.map fun r => { r with st := if r.st = some st then none else r.st } })),
      normRun := match s.tr.normRun with | some r => if r.st = st then none else some r | none => none },
    fab := { s.fab with trees := s.fab.trees.map fun t =>
      (t.1, { t.2 with run := t.2.run.map fun r => { r with st := if r.st = some st then none else r.st } }) } }

/-- Stop the running descriptor of a stream and discard the waiting ones. -/
def cancelStream (s : State) (st : Nat) : State :=
  match s.stream? st with
  | none => s
  | some x =>
    let s : State := match x.run with
      | some r => if r.fin && r.status != St.ok && r.pieces = 0 then s else (s.descArea r.desc).foldl (fun (s : State) a => s.forgetG a.1 a.2) s
      | none => s
    let s : State := ((s.dropConts (Cont.ofStream st)).releaseLatch fun l => l == LatchBy.stream st).stopBatch st St.aborted
    let s : State := { s with atoms := s.atoms.map fun (a : Atom) =>
      if a.src = AtomSrc.stream st then { a with src := .gone } else a }
    let s := (s.detach st).dropFetch (.run st)
    s.setStream st { x with run := none, queue := [], stopped := false, long := none }

end State

end Sys2Proof.Machine
end

