-- ==== Sys2Proof/Machine/Stop.lean ====
section
/-! DEFINITION. Sys2Proof/Machine/Stop.lean: stopping a core and a program (R84, R156, R197, R233, R266), fault records (R196,
R534), and giving the cores and slots to the programs that wait (R39 to R41, R192). -/

namespace Sys2Proof.Machine

def allOnes64 : Nat := 2 ^ 64 - 1

/-- The remote-access fault of R195. -/
def remoteFault (unit : Nat) (addr : W64) (status : Nat) : FaultInfo := ⟨8, unit, addr, status, 0⟩

/-- The remote-access fault of an output refused in a frozen range (R363). [DEDUCED, log 158] -/
def State.frozenFault (s : State) (unit : Nat) (out : List (Nat × Nat)) : Option FaultInfo :=
  (s.frozenOut out).map fun a => remoteFault unit (BitVec.ofNat 64 (s.fab.devnum * 2 ^ 48 + a)) St.notAuthorised

/-- A fault that names only its cause, unit and address. -/
def faultOf (cause unit : Nat) (addr : Nat := 0) : FaultInfo := ⟨cause, unit, BitVec.ofNat 64 addr, 0, 0⟩

/-! ## Values that are not defined after a stop -/

/-- Key of an output in the accumulator table. -/
def accKey (e bank tile row col : Nat) : Nat := ((e * 4 + bank) * 16 + tile) * 16 + row * 4 + col

/-- The outputs of core tile `tile` of a bank. -/
def tileKeys (bank tile : Nat) : List Nat :=
  (List.range 4).flatMap fun e => (List.range 16).map fun i => accKey e bank tile (i / 4) (i % 4)

namespace State

/-- Accumulator outputs become not defined. [DESIGN CHOICE, log 7] -/
def freeAcc (s : State) (c : Nat) (keys : List Nat) : State :=
  let k := s.fresh
  let s := { s with fresh := k + keys.length }
  s.modCtx c fun x => { x with mx := { x.mx with
    acc := keys.zipIdx.foldl (fun m (y : Nat × Nat) => SMap.setD m y.1 0 (Config.freeW64 (k + y.2))) x.mx.acc } }

/-- The engine tiles a matrix instruction writes: engines, bank, tile (R62, R70, R75, R76, R244); `mask` is MMAWG's. -/
def writtenTiles (f : Frame) (mask : Nat) : List (Nat × Nat × Nat) :=
  let all (n bank : Nat) (ts : List Nat) := (ts.filter fun t => decide (t < 16)).map fun t => (n, bank, t)
  let from' (t n : Nat) := (List.range n).map fun q => t + q
  match f.toNat % 256 with
  | 0x40 =>
    let sh := fld f 27 24
    all (if sh = 1 then 2 else if sh = 2 || sh = 3 then 1 else 4) (fld f 31 30)
      (from' (fld f 35 32) (if sh = 4 then 2 else if sh = 5 || sh = 6 then 4 else 1))
  | 0x50 => all 4 (fld f 31 30) (((List.range (fld f 28 25 + 1)).filter mask.testBit).map fun b => fld f 35 32 + b)
  | 0x58 => all 4 (fld f 21 20) (from' (fld f 25 22) (fld f 29 26 + 1))
  | 0x5C => all 4 (fld f 17 16) (List.range 16)
  | 0xA0 => all 4 (fld f 49 48) (from' (fld f 47 44) (fld f 55 52 + 1))
  | _ => []

/-- The outputs of those tiles. -/
def writtenKeys (f : Frame) (mask : Nat) : List Nat :=
  (writtenTiles f mask).flatMap fun t => (List.range t.1).flatMap fun e => (List.range 16).map fun i =>
    accKey e t.2.1 t.2.2 (i / 4) (i % 4)

/-- MMAWG's mask in a queued instruction. -/
def maskOf (e : MEntry) : Nat := ((e.args[4]?).getD 0).toNat

/-- Every tile a faulting matrix instruction writes becomes not defined (R83), also where its passes had ended.
[DEDUCED, log 44] -/
def freeTiles (s : State) (c pc : Nat) (f : Frame) : State :=
  let x := s.ctx c
  let mask := match x.mx.queue.find? (fun e => e.pc == pc && e.frame == f) with
    | some e => maskOf e
    | none => (x.getA (fld f 67 64)).toNat
  s.freeAcc c (writtenKeys f mask)

/-- Scalar registers that unfinished instructions were to write become not defined (R197). [DESIGN CHOICE, log 7] -/
def freePend (s : State) (c : Nat) : State :=
  let ps := (s.ctx c).pend
  let k := s.fresh
  ({ s with fresh := k + ps.length }).modCtx c fun x =>
    ps.zipIdx.foldl (fun (x : Ctx) (y : (Nat × Nat) × Nat) =>
      let v := Config.freeW64 (k + y.2)
      if y.1.1 < 16 then x.setA y.1.1 v else if y.1.1 < 24 then x.setL (y.1.1 - 16) v else x) { x with pend := [] }

/-- Vector registers become not defined. [DESIGN CHOICE, log 7] -/
def freeVregs (s : State) (c : Nat) (vs : List Nat) : State :=
  let k := s.fresh
  ({ s with fresh := k + vs.length }).modCtx c fun x =>
    vs.zipIdx.foldl (fun x (y : Nat × Nat) => x.setV y.1 (Config.freeVec (k + y.2))) x

/-- Side-memory records become not defined, their poison with them (R155). [DESIGN CHOICE, log 7] -/
def freeSide (s : State) (c : Nat) (rs : List Nat) : State :=
  let k := s.fresh
  ({ s with fresh := k + 2 * rs.length }).modCtx c fun x =>
    rs.zipIdx.foldl (fun (x : Ctx) (y : Nat × Nat) => { x with
      sidePois := SMap.setD (SMap.setD x.sidePois (2 * y.1) false (Config.freeNat (k + 2 * y.2) % 2 == 1)) (2 * y.1 + 1) false
        (Config.freeNat (k + 2 * y.2 + 1) % 2 == 1)
      side := SMap.setD x.side y.1 0
        ((Config.freeW64 (k + 2 * y.2)).setWidth 128 ||| (Config.freeW64 (k + 2 * y.2 + 1)).setWidth 128 <<< 64) }) x

/-- Everything a footprint writes becomes not defined. [DESIGN CHOICE, log 7] [DEDUCED, log 44] -/
def freeFoot (s : State) (c : Nat) (f : Foot) : State :=
  let s := (f.spans.filter (·.wr)).foldl (fun s p => s.forget p.lo p.hi) s
  s.freeVregs c ((f.vregs.filter (·.2)).map (·.1))

/-- Bytes of an element of the descriptor's output format. -/
def attOsz (d : AttDesc) : Nat := d.ofmt.bits / 8

/-- Where an output row of a forward walk lies (R221, R227). [DEDUCED, log 36] -/
def attOutRow (d : AttDesc) (e : AttEntry) (r : Nat) : Nat :=
  d.o + (if Config.outRowAtQoff then e.qoff else e.ooff) + r * d.rstr

/-- What the unfinished entries of an attention instruction write. -/
def freeAttn (s : State) (c : Nat) (a : Attn) : State :=
  let hd := match SMap.get? s.kv.pools a.desc.pool with | some q => q.hdim | none => 0
  let d := a.desc
  let left := (a.entries.zip a.walks).filter fun p => p.2.phase != 3
  let s := left.foldl (fun s p =>
    let e := p.1
    let rows := if a.bwd && a.mode = 1 then List.range 16 else List.range e.nrows
    rows.foldl (fun s r =>
      if !a.bwd then
        ((s.forget (attOutRow d e r) (attOutRow d e r + hd * attOsz d)).forget (d.l + e.loff + 4 * r)
          (d.l + e.loff + 4 * r + 4)).freeSide c [e.arg % 4096 + r]
      else if a.mode = 0 then
        (s.forget (d.dq + e.ooff + r * d.rstr) (d.dq + e.ooff + r * d.rstr + hd * attOsz d)).forget
          (d.dD + e.loff + 4 * r) (d.dD + e.loff + 4 * r + 4)
      else
        (s.forget (d.dq + e.ooff + r * d.rstr) (d.dq + e.ooff + r * d.rstr + hd * attOsz d)).forget
          (d.dv + e.ooff + r * d.rstr) (d.dv + e.ooff + r * d.rstr + hd * attOsz d)) s) s
  s.freeVregs c ((List.range 34).map (30 + ·))

/-! ## Stopping a core -/

/-- Is a continuation core `c`'s, of program `h`? -/
def contOf (c h : Nat) (k : Cont) : Bool :=
  match k.work with | some (c', h', _) => c' == c && h' == h | none => false

/-- A signal, an atomic, an edit whose core has stopped: what was sent stays on its way, and reports to no one.
[DEDUCED, log 160] -/
def orphanSig (c h : Nat) (g : Sig) : Sig :=
  match g.src with
  | .core c' h' _ _ => if c' = c && h' = h then { g with src := .dev } else g
  | .dev => g

/-- [DEDUCED, log 160] -/
def orphanAtom (c h : Nat) (a : Atom) : Atom :=
  match a.src with
  | .core c' h' _ _ _ => if c' = c && h' = h then { a with src := .gone } else a
  | _ => a

/-- [DEDUCED, log 160] -/
def orphanEdit (c h : Nat) (e : Edit) : Edit :=
  match e.src with
  | .core c' h' r _ => if c' = c && h' = h then { e with src := .gone r } else e
  | _ => e

/-- Stop core `c` of program `h` at once; `code` is the state its window shows afterwards. The gather window's configuration goes too.
[DEDUCED, log 44, 160] [DESIGN CHOICE, log 181] -/
def haltCore (s : State) (c h code : Nat) : State :=
  let x := s.ctx c
  let live := s.sigs.filter fun g => match g.src with
    | .core c' h' .. => c' == c && h' == h && g.after.any s.alive
    | .dev => false
  let mine := s.kv.edits.filter fun e => match e.src with
    | .core c' h' .. => c' == c && h' == h && e.after.any s.alive
    | _ => false
  let s : State := x.mx.queue.foldl (fun s e => (s.freeFoot c e.foot).freeAcc c (writtenKeys e.frame (maskOf e))) s
  let s : State := x.uq.foldl (fun s q => s.freeFoot c q.foot) s
  let s : State := match x.attn with
    | some a =>
      let s := (s.freeAttn c a).releaseLatch (fun l => match l with | .walk u _ => u == a.uid | .stream _ => false)
      { s with fab := { s.fab with fetches := s.fab.fetches.filter fun f =>
        match f.key with | .walk u _ => u != a.uid | _ => true } }
    | none => s
  let area := s.stemArea c h
  let s := (s.takeStems c h).2
  let s : State := area.foldl (fun s p => s.forget p.1 (p.1 + p.2)) s
  let s := (s.dropConts (contOf c h)).freePend c
  let s : State := { s with
    sigs := (s.sigs.filter fun g => !live.any fun l => l.uid == g.uid).map (orphanSig c h),
    atoms := s.atoms.map (orphanAtom c h),
    sposts := s.sposts.filter (fun p => !(p.core == c && p.h == h)),
    kv := { s.kv with edits := (s.kv.edits.filter fun e => !mine.any fun m => m.uid == e.uid).map (orphanEdit c h) } }
  s.modCore c fun k => { k with
    st := code, haltreq := false, step := 0, issued := false, again := [], spill := 0,
    ctx := { k.ctx with
      hold := none, attn := none, uq := [], fence := []
      mx := { k.ctx.mx with queue := [], decs := [], loads := [], pass := none, late := none, gather := none } } }

/-! ## Programs that wait for cores or slots (R39 to R41, R192) -/

def groupsMeet (p q : Prog) : Bool :=
  match p.place, q.place with
  | some (s0, a0), some (s1, a1) =>
    decide (s0 < s1 + q.streets) && decide (s1 < s0 + p.streets) &&
    decide (a0 < a1 + q.avenues) && decide (a1 < a0 + p.avenues)
  | _, _ => false

/-- The lowest free program slot. [DESIGN CHOICE, log 165] -/
def freeSlot (s : State) : Option Nat :=
  (List.range 64).find? fun n => !s.progs.any fun p => p.2.slot == some n

/-- May program `p` run now: a slot is free, its cores are in the map, and no RUNNING group meets its own?
[DEDUCED, log 166] -/
def canRun (s : State) (p : Prog) : Bool :=
  s.freeSlot.isSome && p.cores.all s.inMap && !s.progs.any fun q => q.2.st == 3 && groupsMeet p q.2

/-- First byte of a core's spill region. -/
def spillOf (c : Nat) : Nat := spadOf c + spillLo

/-- What a save area keeps of a core's memory: the bytes in use, and the spill region (R192). -/
def savedRanges (c : Nat) (p : Prog) : List (Nat × Nat) :=
  [(spadOf c, spadOf c + p.spadUse), (deckOf c, deckOf c + p.deckUse), (spillOf c, spadOf c + spadSize)]

/-- The unit reads LIVE and the live banks back (R81). [DEDUCED, log 78] -/
def readSpill (s : State) (c : Nat) (m : Matrix) : Matrix :=
  let live := BitVec.ofNat 16 (leNat (s.read (spillOf c + 0x8000) 2))
  let word (k i : Nat) : W64 := BitVec.ofNat 64 (leNat (s.read (spillOf c + k * 0x800 + 8 * i) 8))
  let bank (k : Nat) (m : Matrix) : Matrix := iterate 256 m fun i m => { m with acc := SMap.setD m.acc (k * 256 + i) 0 (word k i) }
  { iterate 16 m (fun k m => if live.getLsbD k then bank k m else m) with live := live }

/-- Reissue the load of the panel that was being streamed, and the queued ones: their issue cycle is the end of a restore that takes 4
cycles for the control area and 8 for each live bank (R81). [DEDUCED, log 78] -/
def Matrix.reload (m : Matrix) (now : Nat) : Matrix :=
  let n := now + 4 + 8 * ((List.range 16).filter fun k => m.live.getLsbD k).length
  { m with ready := n, decs := m.decs.map (fun d => { d with at' := max d.at' n }), loads := m.loads.map fun l => { l with issue := n, began := none, ended := none, data := [] } }

/-- Restore a core (R81, R157, R192); its fault record is cleared when it starts (CO_FAULT). -/
def restoreCore (s : State) (h c : Nat) (v : Saved) (p : Prog) : State :=
  let s : State := match v.mem with
    | some m => { s with mem := ((savedRanges c p).foldl (fun m r => m.cut r.1 r.2) s.mem).join m }
    | none => s
  let mx := if v.mem.isSome then Matrix.reload (s.readSpill c v.ctx.mx) v.ctx.cycles else v.ctx.mx
  let s := s.modCore c fun k => { k with
    st := if v.halted then 3 else 1, holder := h, halted := v.halted, fault := if v.mem.isNone then [] else k.fault,
    ctx := { v.ctx with mx := mx } }
  { s with sreq := s.sreq ++ v.stems, fab := { s.fab with waiting := s.fab.waiting ++ v.sld } }

/-- The 64 bytes of a fault record. -/
def faultRecord (s : State) (f : FaultInfo) (c h : Nat) (p : Prog) (pc : Nat) (frame : Frame) : List Byte :=
  le 1 f.cause ++ le 1 f.unit ++ le 2 c ++ le 2 h ++ le 1 (p.slot.getD 0xFF) ++ le 1 p.recs.length ++ le 8 pc ++
  le 16 frame.toNat ++ le 8 f.addr.toNat ++ le 2 f.status ++ zeros 2 ++ le 4 f.detail ++ le 8 s.ftime.toNat ++ zeros 8

/-- Save area of a group of `n` cores (R160). -/
def saveNeed (n spad deck : Nat) : Nat := 4096 + n * ((129 * 1024 + spad + deck + 4095) / 4096 * 4096)

/-- Save-area bytes a program needs. -/
def needOf (p : Prog) : Nat := saveNeed (p.streets * p.avenues) p.spadUse p.deckUse

/-- Firmware writes a program's save area, in its own layout (R161). [DESIGN CHOICE, log 16] -/
def writeSave (s : State) (h : Nat) : State :=
  match s.prog h with
  | some p => (s.setProg h { p with seed := s.fresh }).forget p.save (p.save + needOf p)
  | none => s

/-- The save area is as firmware left it. [DESIGN CHOICE, log 16] -/
def saveIntact (s : State) (p : Prog) : Bool :=
  s.mem.clip p.save (p.save + needOf p) == ⟨[], [⟨p.save, p.save + needOf p, p.seed⟩], []⟩

/-- Cycles a program has been switched in since its start. -/
def runCycles (s : State) (p : Prog) : Nat := p.runCyc + (match p.runFrom with | some t => s.now - t | none => 0)

/-- Is a program being switched out? -/
def switching (s : State) (p : Prog) : Bool := p.st == 3 && p.cores.any fun c => (s.core c).st == 2

/-- A program leaves RUNNING or WAITING for state `st` (5 HALTED, 6 FAULTED, 7 ABORTED): its cores stop, its streams are
cancelled, its slot is released, and its flags are kept for reading (R165, R167, R197); a switch that this abandons leaves its save
area not defined (R44). -/
def stopBare (s : State) (h st : Nat) : State :=
  match s.prog h with
  | none => s
  | some p =>
    if !p.active then s else
    let code := if st = 5 then 3 else if st = 6 then 4 else 5
    let mid := s.switching p
    let saved := if p.st = 3 then p.cores.map (fun c => (c, (⟨s.ctx c, (s.core c).halted, none, [], []⟩ : Saved))) else p.saved
    let s : State := if p.st = 3 then p.cores.foldl (fun s c => s.haltCore c h code) s
      else p.saved.foldl (fun s v => match v.2.ctx.attn with
        | some a => s.releaseLatch (fun l => match l with | .walk u _ => u == a.uid | .stream _ => false)
        | none => s) s
    let s : State := (s.streams.filter fun t => decide (t.2.owner = .prog h)).foldl (fun s t =>
      if st = 5 then s else s.cancelStream t.1) s
    let s := if mid then s.forget p.save (p.save + needOf p) else s
    let s := s.setProg h { p with st := st, slot := none, fail := false, runFrom := none, runCyc := s.runCycles p,
                                  saved := saved, recs := p.recs, nfault := p.nfault }
    let s : State := { s with rot := s.rot.filter (· != h),
                              streams := s.streams.map fun t =>
                                (t.1, if t.2.owner = .prog h then { t.2 with paused := false } else t.2) }
    s.event 1 0 (BitVec.ofNat 64 h) (BitVec.ofNat 64 st)

/-- Switch a WAITING program in: the slice length in force is the committed one (R43). A save area that is not as firmware left it fails
the check of R161, cause 0xF1; which core's control area that is depends on firmware's layout. [DESIGN CHOICE, log 16] -/
def switchIn (s : State) (h : Nat) : State :=
  match s.prog h with
  | none => s
  | some p =>
    if !s.saveIntact p then
      let (k, s) := s.uid
      let c := (p.cores[Config.freeNat k % p.cores.length]?).getD 0
      let r := s.faultRecord (faultOf 0xF1 7) c h p allOnes64 0
      (s.setProg h { p with recs := p.recs ++ [r], nfault := p.nfault + 1 }).stopBare h 6
    else
    let s : State := p.saved.foldl (fun s v => s.restoreCore h v.1 v.2 p) s
    let s := s.setProg h { p with st := 3, slot := s.freeSlot, runFrom := some s.now, slice := s.dc.pslice, still := 0, saved := [] }
    { s with rot := s.rot.filter (· != h),
             streams := s.streams.map fun t =>
               (t.1, if t.2.owner = .prog h then { t.2 with paused := false } else t.2) }

/-- Do programs that have waited longer than `h` leave its cores alone? -/
def yields (s : State) (h : Nat) (p : Prog) : Bool :=
  (s.rot.takeWhile (· != h)).all fun w => match s.prog w with
    | some q => !(q.st == 4 && q.cores.all s.inMap && groupsMeet p q)
    | none => true

/-- Switch in every program that can run, the one that has waited longest first; none takes cores for which another has waited longer
(R41). [DEDUCED, log 166] -/
def schedule (s : State) : State :=
  s.rot.foldl (fun s h => match s.prog h with
    | some p => if p.st = 4 && s.canRun p && s.yields h p && !p.fail && !s.dc.kill.contains h then s.switchIn h else s
    | none => s) s

/-- The same, and the programs that waited for its cores or its slot go on. -/
def stopProgram (s : State) (h st : Nat) : State :=
  match s.prog h with
  | none => s
  | some p => if p.active then (s.stopBare h st).schedule else s

/-- Firmware records the aborts of the hardware path (R458): a program that stopped in between is ABORTED all the same.
[DEDUCED, log 131] -/
def applyKills (s : State) : State :=
  s.dc.kill.foldl (fun (s : State) h =>
    match s.prog h with
    | some p =>
      if p.active then s.stopProgram h 7
      else if p.st = 5 || p.st = 6 then (s.setProg h { p with st := 7 }).event 1 0 (BitVec.ofNat 64 h) 7 else s
    | none => s) { s with dc := { s.dc with kill := [] } }

/-! ## Faults (R195 to R197, R534) -/

/-- Put a record among a program's: the first 16 are kept in order of recording, but of the faults of one cycle the one of the lowest
core comes first (R196 ORDER, R197). [DEDUCED, log 76] -/
def addRecord (p : Prog) (c : Nat) (r : List Byte) : Prog :=
  let first := p.fail && (match p.recs.head? with | some q => decide (c < rd q 2 2) | none => false)
  let recs := if first then (r :: p.recs).take 16 else if p.recs.length < 16 then p.recs ++ [r] else p.recs
  { p with recs := recs.zipIdx.map fun q => patch q.1 7 (le 1 q.2),
           nfault := if p.nfault = 0xFFFFFFFF then p.nfault else p.nfault + 1 }

/-- A stream of a HALTED program stops on an error: its owner faults all the same, and its streams are cancelled (R316, R317).
[DEDUCED, log 76] -/
def haltedFault (s : State) (c h pc : Nat) (frame : Frame) (f : FaultInfo) (p : Prog) : State :=
  let s := s.setProg h { addRecord p c (s.faultRecord f c h p pc frame) with st := 6 }
  let s : State := (s.streams.filter fun t => decide (t.2.owner = .prog h)).foldl (fun s t => s.cancelStream t.1) s
  s.event 1 0 (BitVec.ofNat 64 h) 6

/-- Record a fault of a program: its core stops, and firmware stops the program at the next cycle, so that other cores may fault in
this one (R197). [DEDUCED, log 76] -/
def progFault (s : State) (c h pc : Nat) (frame : Frame) (f : FaultInfo) : State :=
  match s.prog h with
  | none => s
  | some p =>
    if p.st = 5 then s.haltedFault c h pc frame f p else
    if !p.active then s else
    let r := s.faultRecord f c h p pc frame
    let s := s.setProg h { addRecord p c r with fail := true }
    if p.st = 3 then (s.modCore c fun k => { k with fault := r }).haltCore c h 4 else s

/-- Firmware stops a program that has faulted. [DEDUCED, log 76] -/
def failOne (s : State) (h : Nat) : State :=
  match s.prog h with
  | some q => if q.fail && q.active then s.stopProgram h 6 else s
  | none => s

/-- Firmware stops every program that has faulted. [DEDUCED, log 76] -/
def failGo (s : State) : State := (s.progs.map (·.1)).foldl failOne s

/-- A fault raised by an instruction of core `c`; what it was to write is not defined (R83). -/
def fault (s : State) (c pc : Nat) (frame : Frame) (f : FaultInfo) : State :=
  (s.freeTiles c pc frame).progFault c (s.core c).holder pc frame f

end State

end Sys2Proof.Machine
end

