-- ==== Sys2Proof/Machine/Operands.lean ====
section
/-! DEFINITION. Sys2Proof/Machine/Operands.lean: how the sequencer issues one instruction (R168, R169, R175, R179, R180, R534),
and the operand forms: registers, elements in memory, ranges in the core's own memory. -/

namespace Sys2Proof.Machine

/-- An instruction that issues or starts: its core, the program, its text offset, its frame, and its number: instructions with a
lower one are earlier. -/
structure Ins where
  c  : Nat
  h  : Nat
  pc : Nat
  f  : Frame
  n  : Nat
  deriving DecidableEq, Repr

/-- What an instruction does when it tries to issue: it issues and the next instruction follows (or the one at a branch
target), it waits and nothing changes, or it faults. -/
inductive IRes where
  | done (s : State)
  | jump (s : State) (target : Int)
  | hold
  /-- It issues into the queue of its unit, for a pipeline: its operands are not free yet, or the pipeline is not. `dst` are the
  scalar registers it will write. -/
  | queue (lane : Nat) (foot : Foot) (dst : List Nat)
  /-- The core stops: the state is final (HALT). -/
  | stop (s : State)
  | fault (s : State) (f : FaultInfo)

/-! ## The frame (R168) -/

def opcode (f : Frame) : Nat := f.toNat % 256
/-- The opcodes that name an instruction (R58, R121, R171, R224, R241, R301, R315, R390). -/
def assignedOps : List Nat :=
  [0x00, 0x01, 0x02, 0x03, 0x04, 0x05, 0x06, 0x07, 0x08, 0x09, 0x0B, 0x10, 0x11, 0x12, 0x14, 0x15, 0x16, 0x17, 0x20, 0x21, 0x40, 0x44,
   0x45, 0x48, 0x49, 0x50, 0x58, 0x59, 0x5A, 0x5B, 0x5C, 0x60, 0x61, 0x62, 0x63, 0x64, 0x68, 0x6C, 0x6D, 0x80, 0x81, 0x84, 0x85, 0x88,
   0x89, 0x8C, 0x8D, 0x90, 0x91, 0x94, 0xA0, 0xA4, 0xA8, 0xA9, 0xAA, 0xAB, 0xB0, 0xB4, 0xC0, 0xC1]

def pen (f : Frame) : Bool := bitOf f 15
def pneg (f : Frame) : Bool := bitOf f 14
def psel (f : Frame) : Nat := fld f 13 11
def drain (f : Frame) : Bool := bitOf f 10

/-- The decoder's own check (R5, R534): fault `cause` with UNIT 0 unless every field of `rs` and the common frame field's
reserved bits are zero and `good` holds. [DEDUCED, log 18, 22] -/
def decodeCheck (f : Frame) (cause : Nat) (rs : List (Nat × Nat)) (good : Bool := true) : Option FaultInfo :=
  if fld f 9 8 == 0 && rs.all (fun r => fld f r.1 r.2 == 0) && good then none else some ⟨cause, 0, 0, 0, 0⟩

/-- Does the predicate let the instruction execute (R169)? -/
def executes (x : Ctx) (f : Frame) : Bool := !pen f || (x.getP (psel f) != pneg f)

/-- Where firmware keeps the text of a program (R159): one MiB per handle at the bottom of its reserved range.
[DESIGN CHOICE, log 4, 15] -/
def textBase (h : Nat) : Nat := lpEnd + h * 0x100000

namespace State

/-- A core goes on at text offset `pc`; a core that is being stepped issues no other instruction (R198).
[DEDUCED, log 88] -/
def advance (s : State) (c pc : Nat) : State :=
  s.modCore c fun k => { k with ctx := { k.ctx with pc := pc, hold := none }, issued := k.step != 0 }

/-- The instruction waits; the cycles it has waited so far are kept. [DEDUCED, log 19] -/
def wait (s : State) (c : Nat) (f : Frame) : State :=
  s.modCtx c fun x => { x with hold := some (match x.hold with | some k => { k with frame := f } | none => ⟨f, 0⟩) }

/-- Is a scalar register among `rs` still to be written by an earlier instruction (R180)? -/
def regPending (x : Ctx) (rs : List Nat) : Bool := x.pend.any fun p => rs.contains p.1

/-- Issue into a unit's queue of 8; a full queue stalls the issue (R179). -/
def intoQueue (s : State) (c : Nat) (f : Frame) (lane : Nat) (foot : Foot) (dst : List Nat) : State :=
  let x := s.ctx c
  if 8 ≤ (x.uq.filter fun q => q.lane / 10 == lane / 10).length then s.wait c f else
  let (u, s) := s.uid
  (s.modCtx c fun x => { x with
    uq := x.uq ++ [⟨u, lane, x.pc, f, x.a, x.l, foot⟩], pend := x.pend ++ dst.map fun r => (r, u) }).advance c (x.pc + 16)

/-- Issue an instruction at the core's program counter: the fetch, the decoder's checks, the predicate, DRAIN and the
scalar dependences, and then its own meaning. `dec` is the fault of the instruction frame itself, if any, and `regs`
lists the scalar registers the instruction names. [DESIGN CHOICE, log 11] [DEDUCED, log 18, 22] -/
def issueCore (c : Nat) (f : Frame) (dec : Option FaultInfo) (regs : List Nat) (body : Ins → State → IRes)
    (s : State) : State :=
  let x := s.ctx c
  let h := (s.core c).holder
  let pc := x.pc
  match s.prog h with
  | none => s
  | some p =>
    if p.textLen ≤ pc then s.fault c pc f (faultOf 6 0)
    else if s.poisoned (textBase h + pc) 16 then s.fault c pc f (faultOf 5 0)
    else match dec with
    | some i => s.fault c pc f i
    | none =>
      if !executes x f then s.advance c (pc + 16)
      else if drain f && !(s.works c h).isEmpty then s.wait c f
      else if regPending x regs then s.wait c f
      else
        match body ⟨c, h, pc, f, s.fresh⟩ s with
        | .hold => s.wait c f
        | .queue lane foot dst => s.intoQueue c f lane foot dst
        | .done s => s.advance c (pc + 16)
        | .stop s => s
        | .jump s t =>
          if t < 0 || (p.textLen : Int) ≤ t then s.fault c pc f (faultOf 6 0 t.toNat) else s.advance c t.toNat
        | .fault s i => s.fault c pc f i

/-- The row of a core instruction: the core runs, its clock too (R77), and it holds no other instruction.
[DESIGN CHOICE, log 2, 4] -/
def start (c : Nat) (f : Frame) (run : State → State) (s : State) : State :=
  let k := s.core c
  if k.st = 1 && s.clocked c && !k.issued && (match k.ctx.hold with | some w => w.frame == f | none => true) then run s else s

/-- The row of the instruction with opcode `op`. -/
def startOp (op c : Nat) (f : Frame) (run : State → State) (s : State) : State :=
  if opcode f = op then s.start c f run else s

/-- A row of HALO: the modes it has. -/
def startHalo (modes : List Nat) (c : Nat) (f : Frame) (run : State → State) (s : State) : State :=
  if modes.contains (fld f 17 16) then s.startOp 0xA4 c f run else s

/-- An event of a core occurs only while the core runs. -/
def running (s : State) (c : Nat) : Bool := (s.core c).st == 1

end State

/-! ## Elements in memory (R88 to R95) -/

/-- The code of an element of `bits` bits at bit address `a` of own memory. -/
def State.codeAt (s : State) (a bits : Nat) : Nat :=
  leNat (s.read (a / 8) ((a % 8 + bits + 7) / 8)) / 2 ^ (a % 8) % 2 ^ bits

/-- Does the element carry poison? -/
def State.poisAt (s : State) (a bits : Nat) : Bool := s.poisoned (a / 8) ((a % 8 + bits + 7) / 8)

/-- The exact value of an element, with the scale byte at `sc` for MX formats. -/
def State.elemAt (s : State) (f : Fmt) (a : Nat) (sc : Option Nat) : XF :=
  let x := decElem f (s.codeAt a f.bits)
  match sc with | some b => withScale x (s.mem.byte b).toNat | none => x

/-- Bytes of an element of a format whose elements are whole bytes. -/
def Fmt.bytes (f : Fmt) : Nat := f.bits / 8

/-! ## Own operands (R59, R79, R125) -/

/-- Where an operand of `n` bytes lies: nothing wrong, the address fault of R25, or the class's operand-location fault. -/
def State.ownFault (s : State) (c g n loc unit : Nat) : Option FaultInfo :=
  if n = 0 then none
  else if !gvalid g then some (faultOf 3 unit g)
  else if gdev g != s.fab.devnum then some (faultOf loc unit g)
  else if deckOf c ≤ gloc g && gloc g < deckOf c + deckSize && deckOf c + s.deckOpen < gloc g + n && s.fab.fcu != 0 then
    some (faultOf 3 unit g)
  else if ownRange c (gloc g) n then none
  else
    match place (gloc g) with
    | .lp => some (faultOf loc unit g)
    | .deck k _ | .spad k _ => some (faultOf (if s.inMap k then loc else 3) unit g)
    | _ => some (faultOf 3 unit g)

/-- The first fault of a list of checks. -/
def firstFault (l : List (Option FaultInfo)) : Option FaultInfo := l.findSome? id

/-- Raise fault `cause` unless `b` holds. -/
def need (b : Bool) (cause unit : Nat) (addr : Nat := 0) : Option FaultInfo :=
  if b then none else some (faultOf cause unit addr)

/-- Check `count` rows of `len` bytes. -/
def State.rowsFault (s : State) (c base stride count len loc unit : Nat) : Option FaultInfo :=
  (List.range count).findSome? fun i => s.ownFault c (base + i * stride) len loc unit

/-- The span from the lowest to the highest byte of rows (R180). -/
def rowSpan (base stride count len : Nat) (wr : Bool) : List Span :=
  if count = 0 || len = 0 then [] else [⟨gloc base, gloc base + (count - 1) * stride + len, wr⟩]

/-- The one span of an operand whose rows are `l`: from its lowest to its highest byte (R180). -/
def hull (l : List Span) : List Span :=
  match l with
  | [] => []
  | x :: r => [r.foldl (fun a b => ⟨min a.lo b.lo, max a.hi b.hi, a.wr || b.wr⟩) x]

/-! ## Conflicts with instructions in flight (R56, R135, R180) -/

def spansMeet (a b : Span) : Bool := decide (a.lo < b.hi) && decide (b.lo < a.hi) && (a.wr || b.wr)

/-- [DEDUCED, log 17] -/
def Foot.meets (a b : Foot) : Bool :=
  a.spans.any (fun x => b.spans.any (spansMeet x)) ||
  a.vregs.any (fun x => b.vregs.any fun y => x.1 == y.1 && (x.2 || y.2))

def Foot.none : Foot := ⟨[], []⟩

/-- The ranges of memory an instruction writes: address and length. -/
def Foot.outs (a : Foot) : List (Nat × Nat) := (a.spans.filter (·.wr)).map fun p => (p.lo, p.hi - p.lo)

/-- What a queued panel load reads. -/
def PanelLoad.foot (l : PanelLoad) : Foot :=
  let k := if l.trans then l.ncol else l.kp
  let rows := if l.trans then l.kp else l.ncol
  ⟨if l.src.isSome then [] else
    rowSpan l.base l.stride rows ((k * l.fmt.bits + 7) / 8) false ++
    (if l.fmt.isMx then rowSpan l.sbase 8 l.ncol ((l.kp + 31) / 32) false else []), []⟩

/-- What an attention instruction reads and writes, one span for each operand. -/
def Attn.foot (hd es osz : Nat) (a : Attn) : Foot :=
  let d := a.desc
  let n (e : AttEntry) := if a.bwd && a.mode = 1 then 16 else e.nrows
  let q (e : AttEntry) := if a.bwd && a.mode = 1 then e.arg else e.nrows
  let all (g : AttEntry → List Span) : List Span := hull (a.entries.flatMap g)
  ⟨all (fun e => rowSpan (d.q + e.qoff) d.rstr (q e) (hd * es) false) ++
    (if a.bwd then all (fun e => rowSpan (d.dO + e.qoff) d.rstr (q e) (hd * es) false) ++
       all (fun e => rowSpan (d.dD + e.loff) 4 (q e) 4 (a.mode == 0)) ++ all (fun e => rowSpan (d.l + e.loff) 4 (q e) 4 false) ++
       all (fun e => rowSpan (d.dq + e.ooff) d.rstr (n e) (hd * osz) true) ++
       (if a.mode = 1 then all (fun e => rowSpan (d.dv + e.ooff) d.rstr (n e) (hd * osz) true)
        else all (fun e => rowSpan (d.o + e.ooff) d.rstr (n e) (hd * osz) false))
     else all (fun e => rowSpan (State.attOutRow d e 0) d.rstr (n e) (hd * osz) true) ++
       all (fun e => rowSpan (d.l + e.loff) 4 (n e) 4 true)) ++
    rowSpan d.ring 0 1 (d.rslots * 32 * hd * es + 4096) true ++ rowSpan d.park 0 1 ((d.npark + 1) * 128 * hd) true,
   (List.range 34).map fun i => (30 + i, true)⟩

namespace State

/-- What an attention instruction touches, in the formats of its pool. -/
def attnFoot (s : State) (a : Attn) : Foot :=
  let p := SMap.get? s.kv.pools a.desc.pool
  a.foot (p.map (·.hdim) |>.getD 192) (p.map (fun q => Fmt.bytes q.fmt) |>.getD 2) (attOsz a.desc)

/-- What the instructions of a core that are earlier than number `n`, and have not completed, touch (R180). -/
def inFlight (s : State) (c n : Nat) : List Foot :=
  let x := s.ctx c
  (x.mx.queue.filter fun e => decide (e.uid < n)).map (·.foot) ++
  (x.mx.open.filter fun l => decide (max l.uid l.owner < n)).map (·.foot) ++
  (x.uq.filter fun q => decide (q.uid < n)).map (·.foot) ++
  (match x.attn with | some a => if a.uid < n then [s.attnFoot a] else [] | none => [])

/-- Does an instruction with footprint `f` have to wait for an earlier one of the core that is in flight?
[DEDUCED, log 17] -/
def conflict (s : State) (i : Ins) (f : Foot) : Bool := (s.inFlight i.c i.n).any f.meets

/-- Is the scoreboard of 32 spans too full for an instruction that touches `f` (R180)? [DEDUCED, log 17] -/
def boardFull (s : State) (i : Ins) (f : Foot) : Bool :=
  decide (32 < ((s.inFlight i.c i.n).map fun g => g.spans.length).sum + f.spans.length)

/-- Does an attention instruction that is earlier than number `n` hold the matrix unit, the vector compute pipeline and the row engine,
or wait for them (R228)? -/
def attAhead (s : State) (c n : Nat) : Bool :=
  let x := s.ctx c
  (match x.attn with | some a => decide (a.uid < n) | none => false) || x.uq.any fun q => q.lane == 40 && decide (q.uid < n)

/-- Has an instruction to wait in the queue of its pipeline: behind an earlier one of the pipeline, behind an attention instruction
that needs it, or for its operands (R135, R179, R180, R228)? [DEDUCED, log 17, 178] -/
def behind (s : State) (i : Ins) (lane : Nat) (f : Foot) : Bool :=
  ((s.ctx i.c).uq.any fun q => q.lane == lane && decide (q.uid < i.n)) ||
  ((lane == 21 || lane == 30 || lane == 40) && s.attAhead i.c i.n) || s.conflict i f

/-- Does a BOLLARD hold back the issue of an instruction that accesses what is not the core's own memory (R187)?
[DEDUCED, log 45] -/
def fencedOff (s : State) (i : Ins) : Bool := decide (s.fresh ≤ i.n) && s.fenced i.c

/-- How many earlier instructions with opcode `op` wait in unit queues. -/
def queuedOps (s : State) (i : Ins) (op : Nat) : Nat :=
  ((s.ctx i.c).uq.filter fun q => opcode q.frame == op && decide (q.uid < i.n)).length

/-- An instruction that a unit other than the matrix unit executes: it starts at once, or it waits in its unit's queue, or a full
scoreboard stalls its issue. [DEDUCED, log 178] -/
def enterUnit (s : State) (i : Ins) (lane : Nat) (f : Foot) (dst : List Nat) (go : IRes) : IRes :=
  if s.boardFull i f then .hold else if s.behind i lane f then .queue lane f dst else go

end State

end Sys2Proof.Machine
end

