-- ==== Sys2Proof/Machine/Flags.lean ====
section
/-! DEFINITION. Sys2Proof/Machine/Flags.lean: the sticky flags of the arithmetic status word (R106, R153). -/

namespace Sys2Proof.Machine

/-- The bits of the arithmetic status word. -/
def flagCvtInv : W32 := 0x20
def flagCvtSat : W32 := 0x10
/-- Overflow of matrix engine `e`. -/
def flagEng (e : Nat) : W32 := BitVec.ofNat 32 (2 ^ e)
def flagVovf : W32 := 0x100
def flagVinv : W32 := 0x200
def flagVdivz : W32 := 0x400
def flagVempty : W32 := 0x800
def flagRovf : W32 := 0x1000
def flagRinv : W32 := 0x2000
def flagRempty : W32 := 0x4000

/-- The bits a conversion sets, its overflow in bit `ovf` (R105). -/
def cvtBits (f : CvtFlags) (ovf : W32) : W32 :=
  (if f.ovf then ovf else 0) ||| (if f.sat then flagCvtSat else 0) ||| (if f.inv then flagCvtInv else 0)

/-- Set flags of core `c`. -/
def State.setFlags (s : State) (c : Nat) (bits : W32) : State := s.modCtx c (·.sticky bits)

end Sys2Proof.Machine
end

