-- ==== Sys2Proof/Machine/Control.lean ====
section
/-! DEFINITION. Sys2Proof/Machine/Control.lean: the control and phase classes (R171 to R190, R195). -/

namespace Sys2Proof.Machine

/-! ## Selectors -/

/-- The scalar a selector names: a0 to a15, l0 to l7, zero. -/
def selGet (x : Ctx) (v : Nat) : W64 := if v < 16 then x.getA v else if v < 24 then x.getL (v - 16) else 0

def selSet (x : Ctx) (v : Nat) (w : W64) : Ctx := if v < 16 then x.setA v w else if v < 24 then x.setL (v - 16) w else x

def selSrc (v : Nat) : Bool := v ≤ 0x18
def selDst (v : Nat) : Bool := v < 0x18

/-- Registers a selector reads. -/
def selRegs (v : Nat) : List Nat := if v < 24 then [v] else []

/-! ## Scalar arithmetic (R172, R173) -/

def salu (op : Nat) (a b : W64) : W64 :=
  let n := b.toNat % 64
  match op with
  | 0x0 => a + b | 0x1 => a - b | 0x2 => a * b | 0x3 => a &&& b | 0x4 => a ||| b | 0x5 => a ^^^ b
  | 0x6 => a <<< n | 0x7 => a >>> n | 0x8 => a.sshiftRight n
  | 0x9 => if a.toInt ≤ b.toInt then a else b
  | 0xA => if a.toInt ≤ b.toInt then b else a
  | 0xB => if a.toNat ≤ b.toNat then a else b
  | 0xC => if a.toNat ≤ b.toNat then b else a
  | _ => BitVec.ofNat 64 (a.toNat * b.toNat / 2 ^ 64)

def scmp (cmp : Nat) (a b : W64) : Bool :=
  match cmp with
  | 0 => a == b | 1 => a != b | 2 => decide (a.toInt < b.toInt) | 3 => decide (a.toInt ≤ b.toInt)
  | 4 => decide (a.toNat < b.toNat) | _ => decide (a.toNat ≤ b.toNat)

def plog (op : Nat) (a b : Bool) : Bool :=
  match op with | 0 => a && b | 1 => a || b | 2 => a != b | _ => a && !b

def imm64 (f : Frame) : W64 := f.extractLsb' 64 64

namespace State

/-- Does some earlier instruction of the core remain that `q` picks? -/
def busy (s : State) (i : Ins) (q : Work → Bool) : Bool := (s.works i.c i.h).any fun w => decide (w.uid < i.n) && q w

def setSel (s : State) (c v : Nat) (w : W64) : State := s.modCtx c fun x => selSet x v w

end State

/-! ## Instructions without an outside effect -/

def nopBody (_ : Ins) (s : State) : IRes := .done s

/-- HALT (R165, R178). -/
def haltBody (i : Ins) (s : State) : IRes :=
  if s.busy i (fun _ => true) then .hold else
  let s := (s.advance i.c (i.pc + 16)).modCore i.c fun k => { k with st := 3, halted := true }
  match s.prog i.h with
  | some p => if p.cores.all fun k => (s.core k).halted then .stop (s.stopProgram i.h 5) else .stop s
  | none => .stop s

def setiBody (i : Ins) (s : State) : IRes := .done (s.setSel i.c (fld i.f 20 16) (imm64 i.f))

def opB (x : Ctx) (f : Frame) (immb : Bool) (srcb : Nat) : W64 := if immb then imm64 f else selGet x srcb

def saluBody (i : Ins) (s : State) : IRes :=
  let x := s.ctx i.c
  .done (s.setSel i.c (fld i.f 20 16)
    (salu (fld i.f 35 32) (selGet x (fld i.f 25 21)) (opB x i.f (bitOf i.f 31) (fld i.f 30 26))))

def scmpBody (i : Ins) (s : State) : IRes :=
  let x := s.ctx i.c
  .done (s.modCtx i.c fun y => y.setP (fld i.f 18 16)
    (scmp (fld i.f 34 31) (selGet x (fld i.f 24 20)) (opB x i.f (bitOf i.f 30) (fld i.f 29 25))))

def plogBody (i : Ins) (s : State) : IRes :=
  let x := s.ctx i.c
  .done (s.modCtx i.c fun y => y.setP (fld i.f 18 16)
    (plog (fld i.f 26 25) (x.getP (fld i.f 21 19)) (x.getP (fld i.f 24 22)) != bitOf i.f 27))

/-! ## Branches (R175, R176) -/

def brBody (i : Ins) (s : State) : IRes :=
  let s := if bitOf i.f 52 then s.setSel i.c (fld i.f 51 48) (BitVec.ofNat 64 (i.pc + 16)) else s
  .jump s (i.pc + sgn 32 (fld i.f 47 16) * 16)

/-- [DEDUCED, log 20, 21] -/
def briBody (i : Ins) (s : State) : IRes :=
  let t := ((s.ctx i.c).getA (fld i.f 19 16)).toNat
  let s := if bitOf i.f 20 then s.setSel i.c (fld i.f 24 21) (BitVec.ofNat 64 (i.pc + 16)) else s
  if t % 16 != 0 then .fault s (faultOf 4 0 t) else .jump s t

def lendBody (i : Ins) (s : State) : IRes :=
  let r := fld i.f 18 16
  let n := (s.ctx i.c).getL r
  if n = 0 then .done s
  else
    let s := s.modCtx i.c fun x => x.setL r (n - 1)
    if n = 1 then .done s else .jump s (i.pc + sgn 32 (fld i.f 51 20) * 16)

/-! ## Scalar memory (R174) -/

/-- Bytes of SIZE. -/
def sizeOf' (f : Frame) : Nat := 2 ^ fld f 26 25

def slAddr (s : State) (i : Ins) : Nat :=
  ((s.ctx i.c).getA (fld i.f 24 21) + imm64 i.f).toNat

/-- How an access that ended at its source with status `e` faults: an unmapped address, or the status of the target. -/
def accessFault (unit g e : Nat) : FaultInfo :=
  if e = St.unmapped then faultOf 3 unit g else remoteFault unit (BitVec.ofNat 64 g) e

/-- The value SLD writes. -/
def sldValue (n size : Nat) (sext : Bool) : W64 :=
  if sext then BitVec.ofInt 64 (sgn (8 * size) n) else BitVec.ofNat 64 n

/-- How many SLDs of the core have left it and are outstanding. -/
def State.loadsOut (s : State) (c h : Nat) : Nat :=
  ((s.fab.outst.map (·.2.cont) ++ s.fab.waiting.map (·.cont)).filter fun k => match k with
    | .load c' h' .. => c' == c && h' == h | _ => false).length

/-- What a scalar access touches of the core's own memory; nothing for any other location. -/
def scalarFoot (s : State) (c g n : Nat) (wr : Bool) : Foot :=
  if gdev g = s.fab.devnum && ownTouch c (gloc g) n then ⟨[⟨gloc g, gloc g + n, wr⟩], []⟩ else Foot.none

/-- SLD (R174). Accesses of the core's own device take effect at once, in issue order; the spec leaves their order open where no
completion is awaited (R359, R360). [DESIGN CHOICE, log 46] -/
def sldBody (i : Ins) (s : State) : IRes :=
  let g := slAddr s i; let n := sizeOf' i.f; let r := fld i.f 20 16; let sext := bitOf i.f 27
  let foot := scalarFoot s i.c g n false
  if g % n != 0 then .fault s (faultOf 4 6 g)
  else if !gvalid g then .fault s (faultOf 3 6 g)
  else if 16 ≤ s.loadsOut i.c i.h + s.queuedOps i 6 || (foot.spans.isEmpty && s.fencedOff i) then .hold
  else s.enterUnit i 60 foot [r] <|
  if gdev g = s.fab.devnum then
    let (e, bs) := s.readPiece (gloc g) n
    if e != St.ok then .fault s (accessFault 6 g e)
    else if bs.any (·.2) then .fault s (faultOf 5 6 g)
    else .done (s.setSel i.c r (sldValue (leNat (bs.map (·.1))) n sext))
  else
    let (u, s) := s.uidFor i.n
    match s.gReadPiece g n 1 (some i.h) (.load i.c i.h u i.pc i.f (BitVec.ofNat 64 g) r n sext) with
    | (.data bs, s) =>
      if bs.any (·.2) then .fault s (faultOf 5 6 g)
      else .done (s.setSel i.c r (sldValue (leNat (bs.map (·.1))) n sext))
    | (.done e, s) => .fault s (accessFault 6 g e)
    | (.out, s) => .done (s.modCtx i.c fun x => { x with pend := x.pend ++ [(r, u)] })

/-- SST (R174), at once as SLD is. [DESIGN CHOICE, log 46] -/
def sstBody (i : Ins) (s : State) : IRes :=
  let g := slAddr s i; let n := sizeOf' i.f
  let bs := le n (selGet (s.ctx i.c) (fld i.f 20 16)).toNat
  let foot := scalarFoot s i.c g n true
  if g % n != 0 then .fault s (faultOf 4 6 g)
  else if !gvalid g then .fault s (faultOf 3 6 g)
  else if foot.spans.isEmpty && s.fencedOff i then .hold
  else s.enterUnit i 60 foot [] <|
  if gdev g = s.fab.devnum then
    if (s.ownFault i.c g n 3 6).isNone then
      if s.inFrozen (gloc g) n then .fault s (remoteFault 6 (BitVec.ofNat 64 g) St.notAuthorised)
      else .done (s.ownStore (gloc g) bs)
    else
      let (e, s) := s.writePiece (gloc g) (bs.map fun b => (b, false))
      if e = St.ok then .done s else .fault s (accessFault 6 g e)
  else
    let (u, s) := s.uidFor i.n
    match s.gWritePiece g (bs.map fun b => (b, false)) 1 (some i.h) (.store i.c i.h u i.pc i.f (BitVec.ofNat 64 g)) with
    | (.done e, s) => if e = St.ok then .done s else .fault s (accessFault 6 g e)
    | (_, s) => .done s

/-! ## Flags (R181 to R185) -/

/-- The operand v of FSIG and FWAIT. -/
def flagArg (x : Ctx) (f : Frame) (vsrc vhi vlo : Nat) : W32 :=
  if bitOf f vsrc then (x.getA (fld f vhi vlo)).setWidth 32 else f.extractLsb' 64 32

/-- [DEDUCED, log 40] -/
def fsigBody (i : Ins) (s : State) : IRes :=
  let f := i.f
  let v := flagArg (s.ctx i.c) f 36 40 37
  let set := fld f 35 34 == 1
  let ref := ((s.ctx i.c).getA (fld f 19 16)).toNat
  let loc := bitOf f 20
  let dev := if loc then s.fab.devnum else nfld ref 63 48
  let core := if loc then i.c else nfld ref 23 12
  let flag := if loc then fld f 32 21 else nfld ref 11 0
  if s.fencedOff i then .hold else
  if (!loc && nfld ref 47 24 != 0) || (dev = s.fab.devnum && !s.inMap core) then .fault s (faultOf 3 0 ref) else
  let dst : SigDst := if dev = s.fab.devnum then .here core flag else .far dev core flag
  let earlier := s.sigs.filterMap fun g => match g.src, g.dst with
    | .core c h _ _, .here k n => if c = i.c && h = i.h && k = i.c && n = flag && core = i.c && dst = g.dst then some g.uid else none
    | _, _ => none
  let rel := if bitOf f 33 then (s.works i.c i.h).filterMap (fun w => if w.writes || w.out then some w.uid else none) else []
  .done (s.signal (.core i.c i.h i.pc f) dst set v (rel ++ earlier)).2

/-- Does an FWAIT's condition hold? -/
def fwaitCond (cond : Nat) (flag v : W32) : Bool :=
  match cond with | 0 => flag != 0 | 1 => decide (0 ≤ (flag - v).toInt) | _ => flag == v

/-- Cycles the held instruction has waited. -/
def waited (x : Ctx) : Nat := match x.hold with | some h => h.waited | none => 0

def fwaitBody (i : Ins) (s : State) : IRes :=
  let f := i.f
  let x := s.ctx i.c
  let n := fld f 31 20; let cond := fld f 33 32
  let v := flagArg x f 34 38 35
  let ten := bitOf f 48
  let p (x : Ctx) (b : Bool) : Ctx := if ten then x.setP (fld f 47 45) b else x
  if fwaitCond cond (x.flag n) v then
    .done (s.modCtx i.c fun x =>
      p (if bitOf f 39 then x.setFlag n (x.flag n - if cond = 0 then 1 else v) else x) true)
  else if ten && decide (fld f 127 96 ≤ waited x) then .done (s.modCtx i.c fun x => p x false)
  else .hold

def frdBody (i : Ins) (s : State) : IRes :=
  let n := fld i.f 31 20
  .done (s.modCtx i.c fun x =>
    let y := x.setA (fld i.f 19 16) ((x.flag n).setWidth 64)
    if bitOf i.f 32 then y.setFlag n 0 else y)

/-! ## Fences and status (R187 to R190) -/

/-- BOLLARD issues at once: from now until the earlier accesses outside the core's own memory have completed, no instruction issues
that makes one (R187). [DEDUCED, log 45] -/
def bollardBody (i : Ins) (s : State) : IRes :=
  .done (s.modCtx i.c fun x => { x with fence := ((s.works i.c i.h).filter (·.out)).map (·.uid) })

/-- Is a unit selected by UMASK? -/
def umaskHas (m unit : Nat) : Bool :=
  m == 0 || match unit with | 1 => m.testBit 0 | 2 => m.testBit 1 | 3 => m.testBit 2 | 4 => m.testBit 3 | 6 => m.testBit 4 | _ => false

def waituBody (i : Ins) (s : State) : IRes :=
  if s.busy i (fun w => umaskHas (fld i.f 20 16) w.unit) then .hold else .done s

def astatBody (i : Ins) (s : State) : IRes :=
  if s.busy i (fun _ => true) then .hold else
  .done (s.modCtx i.c fun x =>
    { x.setA (fld i.f 19 16) (x.astat.setWidth 64) with astat := x.astat &&& ~~~(i.f.extractLsb' 20 32) })

def trapBody (i : Ins) (s : State) : IRes := .fault s ⟨7, 0, 0, 0, fld i.f 31 16⟩

def phaseBody (i : Ins) (s : State) : IRes :=
  if s.busy i (fun _ => true) then .hold else
  let step := if bitOf i.f 30 then (s.ctx i.c).getA (fld i.f 29 26) else 0
  .done { s with tr := { s.tr with stamps := s.tr.stamps ++ [⟨s.fab.devnum, some i.c, fld i.f 23 16, fld i.f 25 24, step, s.ftime⟩] } }

def timeBody (i : Ins) (s : State) : IRes :=
  .done (s.modCtx i.c fun x =>
    x.setA (fld i.f 19 16) (if bitOf i.f 20 then BitVec.ofNat 64 x.cycles else s.ftime))

/-! ## Opcodes that name no instruction (R6, R170) -/

/-- The reserved-field fault of an opcode's class, and the illegal-opcode fault. -/
def classCause (op : Nat) : Nat :=
  if op < 0x20 then 0x02 else if op < 0x40 then 0x21 else if op < 0x60 then 0x48 else if op < 0x90 then 0x68
  else if op < 0xA0 then 0x98 else if op < 0xB0 then 0xA8 else if op < 0xC0 then 0xB9 else if op < 0xD0 then 0xC8 else 0x01

def noneBody (_ : Ins) (_ : State) : IRes := .hold

/-! ### The rows -/

def plainDec (f : Frame) : Option FaultInfo := decodeCheck f 2 [(127, 16)]

def runNop (c : Nat) (f : Frame) (s : State) : State := s.issueCore c f (plainDec f) [] nopBody
def runHalt (c : Nat) (f : Frame) (s : State) : State := s.issueCore c f (plainDec f) [] haltBody
def runSeti (c : Nat) (f : Frame) (s : State) : State :=
  s.issueCore c f (decodeCheck f 2 [(63, 21)] (selDst (fld f 20 16))) (selRegs (fld f 20 16)) setiBody
def runSalu (c : Nat) (f : Frame) (s : State) : State :=
  s.issueCore c f (decodeCheck f 2 [(63, 36)] (decide (fld f 35 32 < 14) && selDst (fld f 20 16) && selSrc (fld f 25 21) &&
      selSrc (fld f 30 26) && (!bitOf f 31 || fld f 30 26 == 0)))
    (selRegs (fld f 20 16) ++ selRegs (fld f 25 21) ++ (if bitOf f 31 then [] else selRegs (fld f 30 26))) saluBody
def runScmp (c : Nat) (f : Frame) (s : State) : State :=
  s.issueCore c f (decodeCheck f 2 [(63, 35), (19, 19)] (decide (fld f 34 31 < 6) && selSrc (fld f 24 20) &&
      selSrc (fld f 29 25) && (!bitOf f 30 || fld f 29 25 == 0)))
    (selRegs (fld f 24 20) ++ (if bitOf f 30 then [] else selRegs (fld f 29 25))) scmpBody
def runPlog (c : Nat) (f : Frame) (s : State) : State := s.issueCore c f (decodeCheck f 2 [(127, 28)]) [] plogBody
def runSld (c : Nat) (f : Frame) (s : State) : State :=
  s.issueCore c f (decodeCheck f 2 [(63, 28)] (selDst (fld f 20 16))) (fld f 24 21 :: selRegs (fld f 20 16)) sldBody
def runSst (c : Nat) (f : Frame) (s : State) : State :=
  s.issueCore c f (decodeCheck f 2 [(63, 28)] (selSrc (fld f 20 16) && !bitOf f 27)) (fld f 24 21 :: selRegs (fld f 20 16)) sstBody
def runBr (c : Nat) (f : Frame) (s : State) : State :=
  s.issueCore c f (decodeCheck f 2 [(127, 53)]) (if bitOf f 52 then [fld f 51 48] else []) brBody
def runBri (c : Nat) (f : Frame) (s : State) : State :=
  s.issueCore c f (decodeCheck f 2 [(127, 25)]) (fld f 19 16 :: if bitOf f 20 then [fld f 24 21] else []) briBody
def runLend (c : Nat) (f : Frame) (s : State) : State :=
  s.issueCore c f (decodeCheck f 2 [(127, 52), (19, 19)]) [16 + fld f 18 16] lendBody
def runFsig (c : Nat) (f : Frame) (s : State) : State :=
  s.issueCore c f (decodeCheck f 2 [(127, 96), (63, 41)] (decide (fld f 35 34 < 2) &&
      (if bitOf f 20 then fld f 19 16 == 0 else fld f 32 21 == 0) && (!bitOf f 36 || fld f 95 64 == 0)))
    ((if bitOf f 20 then [] else [fld f 19 16]) ++ if bitOf f 36 then [fld f 40 37] else []) fsigBody
def runFwait (c : Nat) (f : Frame) (s : State) : State :=
  s.issueCore c f (decodeCheck f 2 [(63, 49), (44, 40), (19, 16)] (fld f 33 32 != 3 && (!bitOf f 34 || fld f 95 64 == 0) &&
      (if bitOf f 48 then fld f 127 96 != 0 else fld f 127 96 == 0 && fld f 47 45 == 0)))
    (if bitOf f 34 then [fld f 38 35] else []) fwaitBody
def runFrd (c : Nat) (f : Frame) (s : State) : State :=
  s.issueCore c f (decodeCheck f 2 [(127, 33)]) [fld f 19 16] frdBody
def runBollard (c : Nat) (f : Frame) (s : State) : State := s.issueCore c f (plainDec f) [] bollardBody
def runWaitu (c : Nat) (f : Frame) (s : State) : State := s.issueCore c f (decodeCheck f 2 [(127, 21)]) [] waituBody
def runAstat (c : Nat) (f : Frame) (s : State) : State :=
  s.issueCore c f (decodeCheck f 2 [(127, 52)]) [fld f 19 16] astatBody
def runTrap (c : Nat) (f : Frame) (s : State) : State := s.issueCore c f (decodeCheck f 2 [(127, 32)]) [] trapBody
def runPhase (c : Nat) (f : Frame) (s : State) : State :=
  s.issueCore c f (decodeCheck f 0xC8 [(127, 31)] (fld f 25 24 != 3 && (bitOf f 30 || fld f 29 26 == 0)))
    (if bitOf f 30 then [fld f 29 26] else []) phaseBody
def runTime (c : Nat) (f : Frame) (s : State) : State :=
  s.issueCore c f (decodeCheck f 0xC8 [(127, 21)]) [fld f 19 16] timeBody
def runNone (c : Nat) (f : Frame) (s : State) : State :=
  s.issueCore c f (some ⟨classCause (opcode f), 0, 0, 0, 0⟩) [] noneBody

def execNop (c : Nat) (f : Frame) (s : State) : Host.Outcome State Fault Refusal := .next (s.startOp 0x00 c f (runNop c f))
def execHalt (c : Nat) (f : Frame) (s : State) : Host.Outcome State Fault Refusal := .next (s.startOp 0x01 c f (runHalt c f))
def execSeti (c : Nat) (f : Frame) (s : State) : Host.Outcome State Fault Refusal := .next (s.startOp 0x02 c f (runSeti c f))
def execSalu (c : Nat) (f : Frame) (s : State) : Host.Outcome State Fault Refusal := .next (s.startOp 0x03 c f (runSalu c f))
def execScmp (c : Nat) (f : Frame) (s : State) : Host.Outcome State Fault Refusal := .next (s.startOp 0x04 c f (runScmp c f))
def execPlog (c : Nat) (f : Frame) (s : State) : Host.Outcome State Fault Refusal := .next (s.startOp 0x05 c f (runPlog c f))
def execSld (c : Nat) (f : Frame) (s : State) : Host.Outcome State Fault Refusal := .next (s.startOp 0x06 c f (runSld c f))
def execSst (c : Nat) (f : Frame) (s : State) : Host.Outcome State Fault Refusal := .next (s.startOp 0x07 c f (runSst c f))
def execBr (c : Nat) (f : Frame) (s : State) : Host.Outcome State Fault Refusal := .next (s.startOp 0x08 c f (runBr c f))
def execBri (c : Nat) (f : Frame) (s : State) : Host.Outcome State Fault Refusal := .next (s.startOp 0x09 c f (runBri c f))
def execLend (c : Nat) (f : Frame) (s : State) : Host.Outcome State Fault Refusal := .next (s.startOp 0x0B c f (runLend c f))
def execFsig (c : Nat) (f : Frame) (s : State) : Host.Outcome State Fault Refusal := .next (s.startOp 0x10 c f (runFsig c f))
def execFwait (c : Nat) (f : Frame) (s : State) : Host.Outcome State Fault Refusal := .next (s.startOp 0x11 c f (runFwait c f))
def execFrd (c : Nat) (f : Frame) (s : State) : Host.Outcome State Fault Refusal := .next (s.startOp 0x12 c f (runFrd c f))
def execBollard (c : Nat) (f : Frame) (s : State) : Host.Outcome State Fault Refusal := .next (s.startOp 0x14 c f (runBollard c f))
def execWaitu (c : Nat) (f : Frame) (s : State) : Host.Outcome State Fault Refusal := .next (s.startOp 0x15 c f (runWaitu c f))
def execAstat (c : Nat) (f : Frame) (s : State) : Host.Outcome State Fault Refusal := .next (s.startOp 0x16 c f (runAstat c f))
def execTrap (c : Nat) (f : Frame) (s : State) : Host.Outcome State Fault Refusal := .next (s.startOp 0x17 c f (runTrap c f))
def execPhase (c : Nat) (f : Frame) (s : State) : Host.Outcome State Fault Refusal := .next (s.startOp 0xC0 c f (runPhase c f))
def execTime (c : Nat) (f : Frame) (s : State) : Host.Outcome State Fault Refusal := .next (s.startOp 0xC1 c f (runTime c f))
def execIllegalOpcode (c : Nat) (f : Frame) (s : State) : Host.Outcome State Fault Refusal :=
  .next (if 0xD0 ≤ opcode f then s.start c f (runNone c f) else s)
def execUnassignedOpcode (c : Nat) (f : Frame) (s : State) : Host.Outcome State Fault Refusal :=
  .next (if 0xD0 ≤ opcode f || assignedOps.contains (opcode f) then s else s.start c f (runNone c f))

end Sys2Proof.Machine
end

