-- ==== Sys2Proof/Machine/Mbx.lean ====
section
/-! DEFINITION. Sys2Proof/Machine/Mbx.lean: how every mailbox command is taken, checked and answered (R437 to R445), staging (R449),
and long commands (R443). -/

namespace Sys2Proof.Machine

/-! ## Partners and their mailboxes (R437) -/

def portNo : Port → Nat | .host => 0 | .bmc => 1 | .fm => 2 | .svc => 3 | .jtag => 4

def portOf : Nat → Option Port
  | 0 => some .host | 1 => some .bmc | 2 => some .fm | 3 => some .svc | 4 => some .jtag | _ => none

def allPorts : List Port := [.host, .bmc, .fm, .svc, .jtag]

/-- The payload as the device reads it: 240 bytes, zero at and beyond LEN (R440). -/
def pay (m : MbxCmd) : List Byte := fit 240 (m.payload.take m.len)

/-- The 256 bytes of a command area. -/
def cmdArea (op : Nat) (m : MbxCmd) : List Byte :=
  le 2 op ++ le 2 m.len ++ le 4 m.tag.toNat ++ le 8 m.rsvd.toNat ++ fit 240 m.payload

/-- The command an area of 256 bytes holds. -/
def areaCmd (p : Port) (a : List Byte) : Nat × MbxCmd :=
  (rd a 0 2, ⟨p, BitVec.ofNat 32 (rd a 4 4), rd a 2 2, BitVec.ofNat 64 (rd a 8 8), fit 240 (a.drop 16)⟩)

/-! ## Answers -/

/-- What a command answers: at once, later, or not at all. -/
inductive Ans where
  | now (status : Nat) (payload : List Byte) (stream detail : Nat)
  | later
  | silent
  deriving DecidableEq, Repr

namespace Ans
def ok (payload : List Byte := []) : Ans := .now St.ok payload 0 0
/-- `ST_BAD_FIELD` for the field at payload offset `off`. -/
def bad (off : Nat) : Ans := .now St.badField [] 0 off
def refuse (status : Nat) : Ans := .now status [] 0 0
def accepted (stream : Nat) : Ans := .now St.accepted [] stream 0
end Ans

/-- A command of the table: opcode, mailboxes that list it, fixed payload length, whether it loads, places or starts a
program (R34) and whether the trim fault refuses it (R478), its field checks in payload order, and its work. -/
structure Cmd where
  op     : Nat
  boxes  : List Port
  len    : Nat
  launch : Bool
  trim   : MbxCmd → Bool
  check  : MbxCmd → List (Nat × Bool)
  run    : MbxCmd → State → Ans × State

/-- A reserved field of `n` bytes at `off`. -/
def zeroAt (m : MbxCmd) (off n : Nat) : Nat × Bool := (off, rd (pay m) off n == 0)

/-- The opcodes that run on the service console without a session (R509). -/
def noSession (op : Nat) : Bool := op < 0x100 || [0x0F02, 0x0800, 0x0801, 0x0804, 0x0900].contains op

namespace State

def box (s : State) (p : Port) : Mailbox := SMap.getD s.mbx (portNo p) Mailbox.reset
def setBox (s : State) (p : Port) (b : Mailbox) : State :=
  { s with mbx := SMap.setD s.mbx (portNo p) Mailbox.reset b }

/-- Is the device in hold (R493)? [DEDUCED, log 144] -/
def inHold (s : State) : Bool := s.dc.dstate == 3 && (s.pw.code == 8 || s.pw.code == 9)

/-! ## The response (R441) -/

/-- A service message leaves a port (R508). -/
def svcSend (s : State) (port ty : Nat) (payload : List Byte) : State :=
  let n := match s.tru.session with | some x => x.num | none => 0
  ({ s with tru := { s.tru with txSeq := s.tru.txSeq + 1 } }).emit (.service port ty s.tru.txSeq n payload)

/-- The type 0x7E message that carries a response area (R512). -/
def mctpReply (r : List Byte) : List Byte := le 1 0x7E ++ le 2 Config.vendorId.toNat ++ le 1 0x11 ++ r

/-- A response leaves over the transport its command came by (R509, R512). [DEDUCED, log 142] -/
def carry (s : State) (p : Port) (r : List Byte) : State :=
  match p with
  | .svc =>
    if s.tru.rspWait then
      ({ s with tru := { s.tru with rspWait := false, lastRsp := r } }).svcSend s.tru.rspPort 0x11 r
    else s
  | .bmc => if s.tru.mctpBusy then ({ s with tru := { s.tru with mctpBusy := false } }).emit (.mctp (mctpReply r)) else s
  | _ => s

/-- DONE: the response area is written, GO cleared and the partner interrupted. -/
def respond (s : State) (p : Port) (tag : W32) (status : Nat) (payload : List Byte) (stream detail : Nat) : State :=
  let b := s.box p
  let r := le 2 status ++ le 2 payload.length ++ le 4 tag.toNat ++ le 4 stream ++ le 4 detail ++ fit 240 payload
  let s := (s.setBox p { b with busy := none, done := true, resp := r }).carry p (r.take (16 + payload.length))
  if !b.ie then s else
  match p with
  | .host => s.emit (.msix 0)
  | .bmc => s.emit (.ibi 1)
  | _ => s

/-! ## The checks of R444, in order -/

/-- Checks 2 to 4: the status of the first that fails. Debug access opens the service console's commands to the probe (R505). -/
def admits (s : State) (k : Cmd) (m : MbxCmd) (session : Bool) : Option Nat :=
  if !(k.boxes.contains m.port || (m.port == .jtag && s.tru.debug != 0 && k.boxes.contains .svc)) then some St.notAuthorised
  else if m.port = .svc && s.dc.dstate != 3 && !session && !noSession k.op then some St.notAuthorised
  else if s.dc.dstate = 3 && !([0x0000, 0x0F02, 0x0100, 0x0101, 0x0900].contains k.op ||
      (k.op = 0x0F01 && rd (pay m) 0 1 = 0) || (0x0800 ≤ k.op && k.op ≤ 0x08FF)) then some St.badState
  else if s.dc.dstate = 0 && k.op != 0x0000 && k.op != 0x0F02 then some St.badState
  else if s.dc.dstate = 2 && k.launch then some St.badState
  else if s.pw.trimFault && k.trim m then some St.trimFault
  else none

/-- Check 5: LEN, the reserved header bytes, and the fields in order; the payload offset of the first that fails.
[DEDUCED, log 54] -/
def fieldsBad (k : Cmd) (m : MbxCmd) : Option Nat :=
  if m.len < k.len || 240 < m.len || m.rsvd != 0 then some 0
  else ((k.check m).find? fun c => !c.2).map (·.1)

/-- A command whose GO the device sees (R441, R444). [DEDUCED, log 144] -/
def runCmd (s : State) (k : Cmd) (m : MbxCmd) (session : Bool) : Ans × State :=
  match s.admits k m session with
  | some st => (.refuse st, s)
  | none =>
    match fieldsBad k m with
    | some off => (.bad off, s)
    | none => k.run m s

/-- GO of a mailbox whose area holds `m`. During a hand-over it waits for the new firmware (R497); in hold only two mailboxes
are served (R493), and a command on another stays unanswered. [DEDUCED, log 138] -/
def go (s : State) (op : Nat) (m : MbxCmd) (run : State → Ans × State) : State :=
  let b := s.box m.port
  if b.busy.isSome || b.done then s.setBox m.port { b with ovr := true } else
  if s.inHold && m.port != .bmc && m.port != .jtag then
    s.setBox m.port { b with busy := some (BitVec.ofNat 16 op, m), cmd := cmdArea op m, resp := [] }
  else if s.tru.handAt.isSome && op != 0x0F00 then
    ({ s with tru := { s.tru with deferred := s.tru.deferred ++ [portNo m.port] } }).setBox m.port
      { b with busy := some (BitVec.ofNat 16 op, m), cmd := cmdArea op m, resp := [] }
  else
  match run s with
  | (.now st py stream detail, s) =>
    (s.setBox m.port { s.box m.port with cmd := cmdArea op m }).respond m.port m.tag st py stream detail
  | (.later, s) =>
    s.setBox m.port { s.box m.port with busy := some (BitVec.ofNat 16 op, m), cmd := cmdArea op m, resp := [] }
  | (.silent, s) => s

/-- Does the service console have an open session? -/
def session? (s : State) : Bool := s.tru.session.isSome

/-- A partner issues a command by the steps of R441: it clears DONE when needed, writes the area and sets GO.
[DEDUCED, log 55] -/
def issueCmd (s : State) (k : Cmd) (m : MbxCmd) : State :=
  let b := s.box m.port
  let s := if b.busy.isNone && b.done then s.setBox m.port { b with done := false } else s
  s.applyKills.go k.op m fun s => s.runCmd k m s.session?

/-! ## Staging (R449) -/

end State

/-- What an item is about: an item for the same object replaces it. [DESIGN CHOICE, log 56] -/
def Item.object : Item → List Nat
  | .pslice _ => [0]
  | .region n _ => [1, n]
  | .memPart _ => [2]
  | .streamSlice _ => [3]
  | .ingest _ _ => [4]
  | .port n _ _ => [5, n]
  | .route lo hi _ => [6, lo, hi]
  | .expose n _ => [7, n]
  | .members lo hi _ => [8, lo, hi]
  | .tree t _ => [9, t]
  | .frozen _ => [10]
  | .bvConfig .. => [11]
  | .ring r _ => [12, r]
  | .bucket b _ => [13, b]
  | .norms _ => [14]
  | .phase phid _ _ => [15, phid]
  | .phlog _ _ => [16]
  | .power .. => [17]
  | .svcNet p .. => [18, p]

/-- The class of the stream that serves a long command. [DEDUCED, log 57] -/
def LongWork.cls : LongWork → Nat
  | .kvCreate _ | .kvDestroy _ | .kvEdit _ => 2
  | .igBatch _ => 3
  | .xwOpen _ | .xwClose _ => 4
  | _ => 0

/-- Put an item into a stage; `none` when the stage is full. [DESIGN CHOICE, log 56] -/
def stageItem (l : List Item) (x : Item) : Option (List Item) :=
  if l.any (fun y => y.object == x.object) then
    some (l.map fun y => if y.object == x.object then x else y)
  else if 8192 ≤ l.length then none else some (l ++ [x])

namespace State

/-- Stage an item for the partner of a command. -/
def stage (s : State) (p : Port) (x : Item) : Ans × State :=
  match stageItem (s.box p).stage x with
  | some l => (.now St.ok [] 0 l.length, s.setBox p { s.box p with stage := l })
  | none => (.refuse St.badState, s)

/-! ## Long commands (R443) -/

def noResult : Nat := 2 ^ 64

def ownedBy (p : Port) (x : Stream) : Bool := x.owner == Owner.partner p

/-- The lowest free stream number (R311). [DESIGN CHOICE, log 165] -/
def freeStream (s : State) : Option Nat :=
  if 2 ^ 24 ≤ s.streams.length then none else
  (List.range (s.streams.length + 1)).find? fun n => (s.stream? n).isNone

def newStream (cls : Nat) (o : Owner) : Stream :=
  { cls := cls, owner := o, ring := 0, rlog2 := 0, stopped := false, paused := false, saved := false, due := 0, posted := 0,
    done := 0, last := 0, bytes := 0, queue := [], run := none, long := none, opcode := 0, tag := 0, result := noResult }

/-- Create the stream of a long command; `none` when the partner has 256 outstanding or no stream is free. -/
def beginLong (s : State) (m : MbxCmd) (op result : Nat) (w : LongWork) : Option (Nat × State) :=
  let out := (s.streams.filter fun x => ownedBy m.port x.2 && x.2.long.isSome).length
  if 256 ≤ out then none else
  match s.freeStream with
  | none => none
  | some n =>
    some (n, s.setStream n { newStream w.cls (.partner m.port) with
      posted := 1, long := some w, opcode := op, tag := m.tag, result := result })

/-- Accept a long command whose work is `w`. -/
def acceptLong (s : State) (m : MbxCmd) (op result : Nat) (w : LongWork) : Ans × State :=
  match s.beginLong m op result w with
  | some (n, s) => (.accepted n, s)
  | none => (.refuse St.badState, s)

/-- A result of R320. -/
def resultBytes (status pieces value : Nat) : List Byte := le 2 status ++ zeros 2 ++ le 4 pieces ++ le 8 value

/-- Report the completion of a long command and destroy its stream; `write` when its result is still to be written.
[DEDUCED, log 153] -/
def endLong (s : State) (n status value : Nat) (write : Bool) (pieces : Nat := 1) : State :=
  match s.stream? n with
  | none => s
  | some x =>
    let s := if write && x.result != noResult then
        (s.gWrite x.result ((resultBytes status pieces value).map fun b => (b, false)) 3 none .drop).2.2
      else s
    let s := if x.owner = .partner .host then s.event 2 status (BitVec.ofNat 64 n) (BitVec.ofNat 64 x.opcode) else s
    { s with streams := SMap.del s.streams n }

end State

/-- Data a command reads before it answers: at once, or when a fetch that is under way has ended. [DEDUCED, log 167] -/
def State.withMbxData (s : State) (p : Port) (rs : List (Nat × Nat)) (k : State → Nat → List (Byte × Bool) → Ans × State) :
    Ans × State :=
  let n := (rs.map (·.2)).foldl (· + ·) 0
  let key := FetchKey.mbx (portNo p)
  let s := match s.fetch? key with | some _ => s | none => s.fetchNew key rs 3 none
  match s.fetch? key with
  | some f => if f.missing = 0 then k (s.dropFetch key) f.status (f.data 0 n) else (.later, s)
  | none => k s St.ok []

/-- A 16-byte-aligned global address that R7 allows, for a RESULT. -/
def resultOk (g : Nat) : Bool := g % 16 == 0 && gvalid g

end Sys2Proof.Machine
end

