-- ==== Sys2Proof/Machine/NumFn.lean ====
section
/-! DEFINITION. Sys2Proof/Machine/NumFn.lean: the functions of the vector and row engines, correctly rounded (R130 to R133).
A real number that is no dyadic is held between two dyadics, with more and more bits until both ends round alike. -/

namespace Sys2Proof.Machine

/-! ## Exact operations with one rounding -/

/-- `floor(a / b)` with a sticky low bit: a dyadic that rounds as the quotient does, to at least `64` bits. -/
def divSticky (a b : Int × Int) : Int × Int :=
  let n := a.1.natAbs; let d := b.1.natAbs
  let sh := 80 + (Nat.log2 d - Nat.log2 n)
  let q := (n <<< sh) / d
  let r := (n <<< sh) % d
  let m : Int := (2 * q + if r = 0 then 0 else 1 : Nat)
  (if (a.1 < 0) != (b.1 < 0) then -m else m, a.2 - b.2 - sh - 1)

/-- `a / b` (IEEE 754 special values), to be rounded once. -/
def XF.div : XF → XF → XF
  | .nan, _ | _, .nan => .nan
  | .inf s, y => if y.isInf then .nan else .inf (s != y.sign)
  | x, .inf t => .zero (x.sign != t)
  | .zero s, y => if y.isZero then .nan else .zero (s != y.sign)
  | x, .zero t => .inf (x.sign != t)
  | .fin m e, .fin n f => let q := divSticky (m, e) (n, f); .fin q.1 q.2

/-- `sqrt (n * 2^e)` of a positive number, with a sticky low bit. -/
def sqrtSticky (n : Nat) (e : Int) : Int × Int :=
  let n := if e % 2 = 0 then n else 2 * n
  let e := if e % 2 = 0 then e else e - 1
  let r := Nat.sqrt (n <<< 128)
  ((2 * r + if r * r = n <<< 128 then 0 else 1 : Nat), e / 2 - 65)

def XF.sqrt : XF → XF
  | .nan => .nan
  | .inf s => if s then .nan else .inf false
  | .zero s => .zero s
  | .fin m e => if m < 0 then .nan else let r := sqrtSticky m.natAbs e; .fin r.1 r.2

/-- `1 / sqrt (n * 2^e)` of a positive number, with a sticky low bit. -/
def rsqrtSticky (n : Nat) (e : Int) : Int × Int :=
  let n := if e % 2 = 0 then n else 2 * n
  let e := if e % 2 = 0 then e else e - 1
  let k := 2 * (80 + Nat.log2 n)
  let r := Nat.sqrt ((1 <<< k) / n)
  ((2 * r + if r * r * n = 1 <<< k then 0 else 1 : Nat), -(e / 2) - (k / 2 : Nat) - 1)

def XF.rsqrt : XF → XF
  | .nan => .nan
  | .inf s => if s then .nan else .zero false
  | .zero s => .inf s
  | .fin m e => if m < 0 then .nan else let r := rsqrtSticky m.natAbs e; .fin r.1 r.2

/-! ## Enclosures: integers scaled by `2^P` -/

/-- `lo ≤ v * 2^P ≤ hi`. -/
structure Iv where
  lo : Int
  hi : Int
  deriving DecidableEq, Repr

namespace Iv

/-- `x * 2^-k` rounded up. -/
def ceilShift (x : Int) (k : Nat) : Int := -((-x) >>> k)

def add (a b : Iv) : Iv := ⟨a.lo + b.lo, a.hi + b.hi⟩
def neg (a : Iv) : Iv := ⟨-a.hi, -a.lo⟩
def sub (a b : Iv) : Iv := a.add b.neg
def widen (a : Iv) (k : Int) : Iv := ⟨a.lo - k, a.hi + k⟩
def const (P : Nat) (n : Int) : Iv := ⟨n <<< P, n <<< P⟩

def mul (P : Nat) (a b : Iv) : Iv :=
  let p := a.lo * b.lo; let q := a.lo * b.hi; let r := a.hi * b.lo; let s := a.hi * b.hi
  ⟨min (min p q) (min r s) >>> P, ceilShift (max (max p q) (max r s)) P⟩

/-- Division by an enclosure of a positive number. -/
def div (P : Nat) (a b : Iv) : Iv :=
  let fl (x y : Int) : Int := (x <<< P).fdiv y
  let ce (x y : Int) : Int := -((-(x <<< P)).fdiv y)
  ⟨if a.lo < 0 then fl a.lo b.lo else fl a.lo b.hi, if a.hi < 0 then ce a.hi b.hi else ce a.hi b.lo⟩

def divNat (a : Iv) (n : Nat) : Iv := ⟨a.lo.fdiv n, -((-a.hi).fdiv n)⟩

/-- An enclosure of the dyadic `m * 2^e`. -/
def ofDy (P : Nat) (m e : Int) : Iv :=
  if 0 ≤ e + P then ⟨m <<< (e + P).toNat, m <<< (e + P).toNat⟩
  else ⟨m >>> (-(e + P)).toNat, ceilShift m (-(e + P)).toNat⟩

/-- Square root of an enclosure of a nonnegative number. -/
def sqrt (P : Nat) (a : Iv) : Iv := ⟨Nat.sqrt (a.lo.toNat <<< P), Nat.sqrt (a.hi.toNat <<< P) + 1⟩

/-- Horner: `1 + r/1 (1 + r/2 (1 + … ))`, `n` terms. -/
def expSeries (P : Nat) (r : Iv) : Nat → Iv
  | 0 => const P 1
  | n + 1 => loop n (n + 1) (const P 1)
where
  loop : Nat → Nat → Iv → Iv
  | 0, _, acc => (const P 1).add (mul P r acc)
  | k + 1, j, acc => loop k (j - 1) ((const P 1).add ((mul P r acc).divNat j))

def sqTimes (P : Nat) : Nat → Iv → Iv
  | 0, a => a
  | n + 1, a => sqTimes P n (mul P a a)

/-- `e^x` for `|x| ≤ 300`, at one point. -/
def expPt (P : Nat) (x : Int) : Iv :=
  let r : Iv := ⟨x >>> 10, ceilShift x 10⟩
  sqTimes P 10 ((expSeries P r (P / 3 + 8)).widen 2)

/-- `e^x` (increasing). -/
def exp (P : Nat) (x : Iv) : Iv := ⟨max 0 (expPt P x.lo).lo, (expPt P x.hi).hi⟩

/-- `sum u^(2j+1)/(2j+1)` for `0 ≤ u ≤ 1/2`: `atanh u`, alternating for `atan u`. -/
def atanSeries (P : Nat) (alt : Bool) (u : Iv) : Iv :=
  let u2 := mul P u u
  (loop u2 (P / 2 + 4) 0 u ⟨0, 0⟩).widen 2
where
  loop (u2 : Iv) : Nat → Nat → Iv → Iv → Iv
  | 0, _, _, acc => acc
  | k + 1, j, t, acc =>
    let d := t.divNat (2 * j + 1)
    loop u2 k (j + 1) (mul P t u2) (if alt && j % 2 == 1 then acc.sub d else acc.add d)

def two (a : Iv) : Iv := a.add a

def ln2 (P : Nat) : Iv := (atanSeries P false ((const P 1).divNat 3)).two

def pi (P : Nat) : Iv :=
  let a := atanSeries P true ((const P 1).divNat 5)
  let b := atanSeries P true ((const P 1).divNat 239)
  (⟨16 * a.lo, 16 * a.hi⟩ : Iv).sub ⟨4 * b.lo, 4 * b.hi⟩

/-- `ln (m * 2^e)`, `m > 0`. -/
def lnDy (P : Nat) (m : Nat) (e : Int) : Iv :=
  let L := Nat.log2 m
  let y := ofDy P m (-(L : Int))
  let one := const P 1
  let u := div P (y.sub one) (y.add one)
  let k : Int := e + L
  let kl : Iv := if 0 ≤ k then ⟨k * (ln2 P).lo, k * (ln2 P).hi⟩ else ⟨k * (ln2 P).hi, k * (ln2 P).lo⟩
  (atanSeries P false u).two.add kl

/-- `ln` of an enclosure of a positive number. -/
def ln (P : Nat) (a : Iv) : Iv :=
  ⟨(lnDy P a.lo.toNat (-(P : Int))).lo, (lnDy P a.hi.toNat (-(P : Int))).hi⟩

/-- `1 / (1 + e^(-x))`. -/
def sigm (P : Nat) (x : Iv) : Iv :=
  let one := const P 1
  div P one (one.add (exp P x.neg))

/-- `tanh x`, `|x| ≤ 140`. -/
def tanh (P : Nat) (x : Iv) : Iv :=
  let one := const P 1
  let t (z : Iv) : Iv := let q := exp P z.two.neg; div P (one.sub q) (one.add q)
  ⟨if x.lo < 0 then (t ⟨-x.lo, -x.lo⟩).neg.lo else (t ⟨x.lo, x.lo⟩).lo,
   if x.hi < 0 then (t ⟨-x.hi, -x.hi⟩).neg.hi else (t ⟨x.hi, x.hi⟩).hi⟩

/-- `sum (-t)^n / (n! (2n+1))`, for `t ≥ 0`. -/
def erfSeries (P : Nat) (t : Iv) : Iv :=
  (loop (P + 3 * (t.hi >>> P).toNat + 8) 0 (const P 1) ⟨0, 0⟩).widen 2
where
  loop : Nat → Nat → Iv → Iv → Iv
  | 0, _, _, acc => acc
  | k + 1, n, T, acc =>
    let d := T.divNat (2 * n + 1)
    loop k (n + 1) ((mul P T t).divNat (n + 1)) (if n % 2 == 1 then acc.sub d else acc.add d)

/-- Square of an enclosure. -/
def sq (P : Nat) (x : Iv) : Iv :=
  let m := mul P x x
  ⟨max 0 m.lo, m.hi⟩

/-- `erf x`, `|x| ≤ 16`. -/
def erf (P : Nat) (x : Iv) : Iv := div P ((mul P x (erfSeries P (sq P x))).two) (sqrt P (pi P))

/-- The normal distribution function, `|x| ≤ 20`. -/
def phi (P : Nat) (x : Iv) : Iv :=
  let t := (sq P x).divNat 2
  let h := div P (mul P x (erfSeries P t)) (sqrt P (pi P).two)
  (const P 1).divNat 2 |>.add h

/-- The normal density. -/
def dens (P : Nat) (x : Iv) : Iv := div P (exp P ((sq P x).divNat 2).neg) (sqrt P (pi P).two)

/-- `sqrt(2/pi) (x + 0.044715 x^3)` and its derivative (R130). -/
def gelutArg (P : Nat) (x : Iv) : Iv × Iv :=
  let k := sqrt P (div P (const P 2) (pi P))
  let c := (const P 44715).divNat 1000000
  let x2 := sq P x
  let one := const P 1
  (mul P k (mul P x (one.add (mul P c x2))), mul P k (one.add (mul P c (x2.add x2.two))))

/-! ### The functions with a branch bit: value and derivative -/

def half (P : Nat) (a : Iv) : Iv := mul P a ((const P 1).divNat 2)

/-- Which of the three functions of R132. -/
inductive Act where
  | silu | gelu | gelut
  deriving DecidableEq, Repr

def actVal (P : Nat) (k : Act) (x : Iv) : Iv :=
  match k with
  | .silu => mul P x (sigm P x)
  | .gelu => mul P x (phi P x)
  | .gelut => half P (mul P x ((const P 1).add (tanh P (gelutArg P x).1)))

def actDer (P : Nat) (k : Act) (x : Iv) : Iv :=
  let one := const P 1
  match k with
  | .silu => let s := sigm P x; mul P s (one.add (mul P x (one.sub s)))
  | .gelu => (phi P x).add (mul P x (dens P x))
  | .gelut =>
    let (u, du) := gelutArg P x
    let t := tanh P u
    half P ((one.add t).add (mul P (mul P x (one.sub (sq P t))) du))

end Iv

/-! ## Rounding an enclosed real once -/

/-- Precisions tried, in bits after the point. [DEDUCED, log 30] -/
def precisions : List Nat := [64, 128, 256, 512, 1024, 2048]

/-- The value of the real enclosed by `f P` scaled by `2^sh`, as an FP32 result: the first precision at which both
ends round to one code. [DEDUCED, log 30] -/
def roundReal (f : Nat → Iv) (sh : Int := 0) : XF :=
  go precisions
where
  pick (P : Nat) (iv : Iv) : XF × XF := (XF.ofDy iv.lo (sh - P), XF.ofDy iv.hi (sh - P))
  go : List Nat → XF
  | [] => .nan
  | [P] => (pick P (f P)).1
  | P :: ps =>
    let (a, b) := pick P (f P)
    if convert .fp32 a = convert .fp32 b then a else go ps

/-- The sign of the enclosed real: is it at least 0? [DEDUCED, log 30] -/
def realNonneg (f : Nat → Iv) : Bool :=
  go precisions
where
  go : List Nat → Bool
  | [] => false
  | P :: ps => let iv := f P; if 0 ≤ iv.lo then true else if iv.hi < 0 then false else go ps

/-- Order of a dyadic and an integer. -/
def dyGt (x : Int × Int) (n : Int) : Bool := dyLt (n, 0) x

/-- A real just above 0, resp. just below 1 or just above a dyadic, for arguments far out. -/
def tinyPos : XF := .fin 1 (-400)
def justBelowOne : XF := .fin (2 ^ 200 - 1) (-200)

/-- `e^x` of a finite value. -/
def expXF (m e : Int) : XF :=
  if dyGt (m, e) 120 then .fin 1 400 else if dyLt (m, e) (-120, 0) then tinyPos
  else roundReal fun P => Iv.exp P (Iv.ofDy P m e)

def XF.exp : XF → XF
  | .nan => .nan | .inf s => if s then .zero false else .inf false
  | .zero _ => .fin 1 0
  | .fin m e => expXF m e

/-- `2^x`: exact at integers. -/
def XF.exp2 : XF → XF
  | .nan => .nan | .inf s => if s then .zero false else .inf false
  | .zero _ => .fin 1 0
  | .fin m e =>
    if dyGt (m, e) 170 then .fin 1 400 else if dyLt (m, e) (-170, 0) then tinyPos
    else if 0 ≤ e || m % 2 ^ (-e).toNat == 0 then .fin 1 (roundInt m e)
    else roundReal fun P => Iv.exp P (Iv.mul P (Iv.ofDy P m e) (Iv.ln2 P))

/-- Is a positive dyadic a power of two, and which? -/
def dyPow2 (m : Nat) (e : Int) : Option Int := if m = 2 ^ Nat.log2 m then some (Nat.log2 m + e) else none

def XF.log : XF → XF
  | .nan => .nan | .inf s => if s then .nan else .inf false
  | .zero _ => .inf true
  | .fin m e =>
    if m < 0 then .nan else
    if dyPow2 m.natAbs e = some 0 then .zero false
    else roundReal fun P => Iv.lnDy P m.natAbs e

def XF.log2 : XF → XF
  | .nan => .nan | .inf s => if s then .nan else .inf false
  | .zero _ => .inf true
  | .fin m e =>
    if m < 0 then .nan else
    match dyPow2 m.natAbs e with
    | some k => XF.ofDy k 0
    | none => roundReal fun P => Iv.div P (Iv.lnDy P m.natAbs e) (Iv.ln2 P)

def XF.tanh : XF → XF
  | .nan => .nan | .inf s => .fin (if s then -1 else 1) 0 | .zero s => .zero s
  | .fin m e =>
    if dyGt (m.natAbs, e) 100 then (if m < 0 then justBelowOne.neg else justBelowOne)
    else roundReal fun P => Iv.tanh P (Iv.ofDy P m e)

def XF.sigm : XF → XF
  | .nan => .nan | .inf s => if s then .zero false else .fin 1 0
  | .zero _ => .fin 1 (-1)
  | .fin m e =>
    if dyGt (m, e) 120 then justBelowOne else if dyLt (m, e) (-120, 0) then tinyPos
    else roundReal fun P => Iv.sigm P (Iv.ofDy P m e)

def XF.softp : XF → XF
  | .nan => .nan | .inf s => if s then .zero false else .inf false
  | .zero _ => roundReal Iv.ln2
  | .fin m e =>
    if dyGt (m, e) 120 then let r := dyAdd (m, e) (1, -400); .fin r.1 r.2
    else if dyLt (m, e) (-120, 0) then tinyPos
    else roundReal fun P => Iv.ln P ((Iv.const P 1).add (Iv.exp P (Iv.ofDy P m e)))

def XF.erf : XF → XF
  | .nan => .nan | .inf s => .fin (if s then -1 else 1) 0 | .zero s => .zero s
  | .fin m e =>
    if dyGt (m.natAbs, e) 12 then (if m < 0 then justBelowOne.neg else justBelowOne)
    else roundReal fun P => Iv.erf P (Iv.ofDy P m e)

/-- `b (e^a - 1)`, to be rounded once (R130 ELU, R133 DSOFTP). -/
def XF.elu (a b : XF) : XF :=
  match a, b with
  | .fin m e, .fin n f =>
    if dyLt (m, e) (-300, 0) then (let r := dyAdd (-n, f) (if n < 0 then -1 else 1, f - 400); .fin r.1 r.2)
    else if dyGt (m, e) 300 then .fin n (f + 1000)
    else roundReal (fun P => let t := (Iv.exp P (Iv.ofDy P m e)).sub (Iv.const P 1)
                             if 0 ≤ n then ⟨n * t.lo, n * t.hi⟩ else ⟨n * t.hi, n * t.lo⟩) f
  | .fin m _, b => b.mul (.fin (if m < 0 then -1 else 1) 0)
  | .inf s, b => if s then b.mul (.fin (-1) 0) else b.mul (.inf false)
  | .zero _, b => b.mul (.zero false)
  | .nan, _ => .nan

/-- Beyond this distance the three functions are nearer to `x` or to 0 than any FP32 value tells apart. -/
def Iv.Act.far : Iv.Act → Int | .silu => 130 | _ => 19

/-- SiLU, GELU or GELUT of a value; of −∞, as the product −∞ × 0. [DESIGN CHOICE, log 184] -/
def XF.act (k : Iv.Act) : XF → XF
  | .nan => .nan
  | .inf s => if s then XF.mul (.inf true) (.zero false) else .inf false
  | .zero s => .zero s
  | .fin m e =>
    if dyGt (m, e) k.far then (let r := dyAdd (m, e) (-1, e - 300); .fin r.1 r.2)
    else if dyLt (m, e) (-k.far, 0) then tinyPos.neg
    else roundReal fun P => Iv.actVal P k (Iv.ofDy P m e)

/-- The branch bit of R132: `x ≥ x*`, decided by the sign of the derivative near the minimum. -/
def XF.branchBit (k : Iv.Act) : XF → Bool
  | .nan => false
  | .inf s => !s
  | .zero _ => true
  | .fin m e =>
    if 0 < m then true else if dyLt (m, e) (-2, 0) then false
    else realNonneg fun P => Iv.actDer P k (Iv.ofDy P m e)

/-- Halve the bracket `[a, b]` of the solution of `f x = y` `n` times, on the rising side (`up`) or the falling. -/
def bisect (P : Nat) (k : Iv.Act) (up : Bool) (y : Iv) : Nat → Int → Int → Iv
  | 0, a, b => ⟨a, b⟩
  | n + 1, a, b =>
    let c := (a + b) >>> 1
    let v := Iv.actVal P k ⟨c, c⟩
    let d := Iv.actDer P k ⟨c, c⟩
    if up && d.hi < 0 then bisect P k up y n c b
    else if !up && 0 < d.lo then bisect P k up y n a c
    else if v.hi < y.lo then (if up then bisect P k up y n c b else bisect P k up y n a c)
    else if y.hi < v.lo then (if up then bisect P k up y n a c else bisect P k up y n c b)
    else ⟨a, b⟩

/-- The real minimum is bracketed: is `y` at least the function's minimum value? -/
def aboveMin (k : Iv.Act) (m e : Int) : Bool :=
  realNonneg fun P => (Iv.ofDy P m e).sub (minVal P)
where
  minVal (P : Nat) : Iv := let x := argmin P (P + 4) ((-2 : Int) <<< P) 0; Iv.actVal P k x
  argmin (P : Nat) : Nat → Int → Int → Iv
  | 0, a, b => ⟨a, b⟩
  | n + 1, a, b =>
    let c := (a + b) >>> 1
    let d := Iv.actDer P k ⟨c, c⟩
    if d.hi < 0 then argmin P n c b else if 0 < d.lo then argmin P n a c else ⟨a, b⟩

/-- `b f'(x)` for the real `x` on the side `bit` at which `f x = y` (R133), one rounding. -/
def XF.actGrad (k : Iv.Act) (bit : Bool) (y b : XF) : XF :=
  match y with
  | .nan => .nan
  | .inf _ => b.mul (.zero false)
  | .zero _ => if bit then b.mul (.fin 1 (-1)) else b.mul (.zero false)
  | .fin m e =>
    if (!bit && 0 < m) || (m < 0 && !aboveMin k m e) then b.mul (.zero false) else
    match b with
    | .fin n f =>
      if dyGt (m, e) k.far then (let r := dyAdd (n, f) (if n < 0 then -1 else 1, f - 300); .fin r.1 r.2)
      else
        roundReal (fun P =>
          let y := Iv.ofDy P m e
          let x := if bit then bisect P k true y (P + 9) ((-2 : Int) <<< P) ((k.far + 2) <<< P)
                   else bisect P k false y (P + 9) ((-k.far - 2) <<< P) 0
          let d := Iv.actDer P k x
          if 0 ≤ n then ⟨n * d.lo, n * d.hi⟩ else ⟨n * d.hi, n * d.lo⟩) f
    | b => b.mul (.fin (if bit then 1 else -1) 0)

end Sys2Proof.Machine
end

