-- ==== Sys2Proof/Machine/Vector.lean ====
section
/-! DEFINITION. Sys2Proof/Machine/Vector.lean: the vector engine (R120 to R142, R154 to R156). -/

namespace Sys2Proof.Machine

/-! ## FP32 arithmetic with its flags (R126, R131, R153) -/

/-- A computation that sets bits of the arithmetic status word. -/
abbrev Fl := StateM W32

/-- The flags of an engine: overflow to infinity, and a NaN made from operands without one. -/
structure Eng where
  ovf : W32
  inv : W32

def vecEng : Eng := ⟨flagVovf, flagVinv⟩
def rowEng : Eng := ⟨flagRovf, flagRinv⟩

def raise (b : W32) : Fl Unit := modify (· ||| b)

/-- Round the exact result of an operation on `ins` to FP32. -/
def Eng.rn (g : Eng) (ins : List XF) (x : XF) : Fl XF := do
  let r := enc32f x
  raise ((if r.2 then g.ovf else 0) ||| (if x.isNan && !(ins.any XF.isNan) then g.inv else 0))
  return dec32 r.1

/-- MAX and MIN of R130: NaN when an operand is NaN. [DEDUCED, log 31] -/
def XF.max2 (a b : XF) : XF := if a.isNan || b.isNan then .nan else if XF.ltz a b then b else a
/-- [DEDUCED, log 31] -/
def XF.min2 (a b : XF) : XF := if a.isNan || b.isNan then .nan else if XF.ltz b a then b else a

/-- One addition into a compensated pair (R102, R103). -/
def Eng.padd (g : Eng) (p : Pair) (x : XF) : Fl Pair := do
  let r := p.add (enc32 x)
  raise ((if r.2 then g.ovf else 0) |||
    (if (dec32 r.1.s).isNan && !(dec32 p.norm.s).isNan && !x.isNan then g.inv else 0))
  return r.1

/-- The sum of a list in order, in a compensated pair that starts from `p`. -/
def Eng.psum (g : Eng) (p : Pair) (xs : List XF) : Fl Pair := xs.foldlM (fun p x => g.padd p x) p

/-- Read a pair as FP32. -/
def Eng.pval (g : Eng) (p : Pair) : Fl XF := g.rn [dec32 p.norm.s] p.value

/-! ## Micro-operations (R128 to R133) -/

def one : XF := .fin 1 0

/-- The functions that latch a branch bit, by operation code. -/
def latchAct : Nat → Option Iv.Act
  | 0x1B => some .silu | 0x1C => some .gelu | 0x1D => some .gelut | _ => none

/-- The derivative operations that read a branch bit. -/
def gradAct : Nat → Option Iv.Act
  | 0x27 => some .silu | 0x28 => some .gelu | 0x29 => some .gelut | _ => none

def uopKnown (u : Nat) : Bool :=
  (1 ≤ u && u ≤ 0xC) || (0x10 ≤ u && u ≤ 0x1D) || (0x20 ≤ u && u ≤ 0x29) || (0x30 ≤ u && u ≤ 0x34) || u == 0x38 ||
  (0x3C ≤ u && u ≤ 0x3E)

/-- The result of one micro-operation on its sources; `fmt` is CVT's format code and `bit` the branch bit read.
CVT's NaN of an infinity sets VINV beside CVT_INV. [DEDUCED, log 23] [DESIGN CHOICE, log 186] -/
def uop (u : Nat) (a b c : XF) (fmt : Nat) (bit : Bool) : Fl XF :=
  let r (ins : List XF) (x : XF) : Fl XF := vecEng.rn ins x
  let pole (ins : List XF) (x : XF) : Fl XF := do
    let y ← vecEng.rn ins x
    if y.isInf && ins.all XF.isFinite then raise flagVdivz
    return y
  let d (ins : List XF) (f : XF) : Fl XF := r (b :: ins) (b.mul (if f.isZero then .zero false else f))
  let cmp (p : Bool) : Fl XF := return if p then one else .zero false
  match u with
  | 0x01 => r [a, b] (a.add b)
  | 0x02 => r [a, b] (a.sub b)
  | 0x03 => r [a, b] (a.mul b)
  | 0x04 => r [a, b, c] ((a.mul b).add c)
  | 0x05 => r [a, b] (a.min2 b)
  | 0x06 => r [a, b] (a.max2 b)
  | 0x07 => r [a] a.abs
  | 0x08 => r [a] a.neg
  | 0x09 => pole [a] (one.div a)
  | 0x0A => r [a] a.sqrt
  | 0x0B => pole [a] a.rsqrt
  | 0x0C => pole [a, b] (a.div b)
  | 0x10 => r [a] a.exp
  | 0x11 => r [a] a.exp2
  | 0x12 => pole [a] a.log
  | 0x13 => pole [a] a.log2
  | 0x14 => r [a] a.tanh
  | 0x15 => r [a] a.sigm
  | 0x16 => r [a] a.softp
  | 0x17 => r [a] a.erf
  | 0x18 => r [a] (a.max2 (.zero false))
  | 0x19 => if XF.lt (.zero false) a then return a else r [a, b] (b.mul a)
  | 0x1A => if XF.lt (.zero false) a then return a else r [a, b] (a.elu b)
  | 0x1B => r [a] (a.act .silu)
  | 0x1C => r [a] (a.act .gelu)
  | 0x1D => r [a] (a.act .gelut)
  | 0x20 => d [a] (if XF.lt (.zero false) a then one else .zero false)
  | 0x21 => d [a, c] (if XF.lt (.zero false) a then one else c)
  | 0x22 => d [a] (a.mul (one.sub a))
  | 0x23 => d [a] (one.sub (a.mul a))
  | 0x24 => d [a] a
  | 0x25 => if a.isZero then d [a] a else r [a, b] (a.neg.elu b.neg)
  | 0x26 => d [a, c] (if XF.lt (.zero false) a then one else a.add c)
  | 0x27 => r [a, b] (a.actGrad .silu bit b)
  | 0x28 => r [a, b] (a.actGrad .gelu bit b)
  | 0x29 => r [a, b] (a.actGrad .gelut bit b)
  | 0x30 => cmp (XF.lt a b)
  | 0x31 => cmp (XF.le a b)
  | 0x32 => cmp (XF.eqv a b)
  | 0x33 => return if c.isZero then b else a
  | 0x34 => r [a, b, c] ((a.max2 b).min2 c)
  | 0x38 =>
    match Fmt.ofCode fmt with
    | some f => do
      let q := convert f a
      raise (cvtBits q.2 flagVovf)
      r [a] (decElem f q.1)
    | none => return a
  | _ => return a

/-- A micro-operation word, taken apart (R128). -/
structure UWord where
  u : Nat
  d : Nat
  a : Nat
  b : Nat
  c : Nat
  k : Nat
  rsvd : Nat

def UWord.of (w : Nat) : UWord :=
  ⟨nfld w 31 25, nfld w 24 21, nfld w 20 16, nfld w 15 11, nfld w 10 6, nfld w 5 1, nfld w 0 0⟩

/-- No reserved operation, selector or bit (R128). -/
def UWord.known (w : UWord) : Bool :=
  uopKnown w.u && decide (w.a ≤ 0x16) && decide (w.b ≤ 0x16) && decide (w.c ≤ 0x16) && w.rsvd == 0

/-- The format code of CVT (R130). -/
def UWord.fmtOk (w : UWord) : Bool := w.u != 0x38 || (w.k < 16 && (w.k ≤ 4 || w.k == 0xB || w.k == 0xC))

/-- What UPLOAD accepts. -/
def UWord.ok (w : UWord) : Bool := w.known && w.fmtOk

/-- The selectors an operation uses. -/
def UWord.uses (w : UWord) : List Nat :=
  let ab := [0x01, 0x02, 0x03, 0x05, 0x06, 0x0C, 0x19, 0x1A, 0x20, 0x22, 0x23, 0x24, 0x25, 0x27, 0x28, 0x29, 0x30, 0x31, 0x32]
  if w.u = 0x3E then []
  else if [0x04, 0x21, 0x26, 0x33, 0x34].contains w.u then [w.a, w.b, w.c]
  else if ab.contains w.u then [w.a, w.b] else [w.a]

/-- The lane of one element: temporaries, output values, latched and written branch bit. -/
structure Lane where
  t   : List XF
  o0  : XF
  o1  : XF
  lat : Bool
  bo  : Bool

/-- Run one word. [DESIGN CHOICE, log 27] -/
def Lane.run (ins : List XF) (consts : List W32) (bit : Bool) (l : Lane) (w : UWord) : Fl Lane := do
  let sel (v : Nat) : XF :=
    if v < 16 then (l.t[v]?).getD (.zero false)
    else if v < 20 then (ins[v - 16]?).getD (.zero false)
    else if v = 0x14 then dec32 ((consts[w.k]?).getD 0)
    else if v = 0x16 then one else .zero false
  let a := sel w.a
  if w.u = 0x3C then return { l with o0 := a }
  else if w.u = 0x3D then return { l with o1 := a }
  else if w.u = 0x3E then return { l with bo := l.lat }
  else
    let x ← uop w.u a (sel w.b) (sel w.c) w.k bit
    return { l with t := l.t.set w.d x, lat := match latchAct w.u with | some k => a.branchBit k | none => l.lat }

/-! ## Operands (R122 to R125) -/

/-- An operand of the vector engine: in memory or in registers, repeated or not, its format, and its first register or
its address. -/
structure Opnd where
  mem  : Bool
  rep  : Bool
  fmt  : Fmt
  loc  : Nat
  g    : Nat
  deriving DecidableEq, Repr

/-- Elements of a register in format FP32 or BF16. -/
def regPer (f : Fmt) : Nat := 1024 / f.bits

/-- Decoding of a specifier: reserved bits, reserved format codes. -/
def specDec (v : Nat) (used : Bool) : Option FaultInfo :=
  if !used then need (v == 0) 0x68 0
  else firstFault [need (nfld v 11 11 == 0 || nfld v 5 4 == 0) 0x68 0, need (Fmt.ofCode (nfld v 9 6)).isSome 0x61 0]

def specReg (v : Nat) : List Nat := if nfld v 11 11 = 1 then [nfld v 3 0] else []

/-- The operand a specifier names; outputs ignore REP. -/
def opnd (s : State) (c v : Nat) (out : Bool) : Opnd :=
  let m := nfld v 11 11 == 1
  let g := ((s.ctx c).getA (nfld v 3 0)).toNat
  ⟨m, nfld v 10 10 == 1 && !out, (Fmt.ofCode (nfld v 9 6)).getD .fp32, if m then gloc g else nfld v 5 0, g⟩

/-- Formats of operands in memory (R122). -/
def Fmt.isVec : Fmt → Bool
  | .fp32 | .bf16 | .fp16 | .e4m3 | .e5m2 | .int8 | .uint8 => true | _ => false

/-- Elements of the operand that `n` elements use; those of a repeated one fit its first register.
[DESIGN CHOICE, log 187] -/
def Opnd.cnt (o : Opnd) (n : Nat) : Nat := if o.rep then min n (1024 / o.fmt.bits) else n

def Opnd.regs (o : Opnd) (n : Nat) : Nat := (o.cnt n * o.fmt.bits + 1023) / 1024

/-- What an operand may be, and where. -/
def Opnd.check (s : State) (c n : Nat) (o : Opnd) : List (Option FaultInfo) :=
  if o.mem then
    [need o.fmt.isVec 0x61 2, need (o.g % 16 == 0) 0x64 2 o.g, s.ownFault c o.g (o.cnt n * o.fmt.bytes) 0x63 2]
  else
    [need (o.fmt == .fp32 || o.fmt == .bf16) 0x61 2, need (decide (o.loc + o.regs n ≤ 64)) 0x62 2]

def Opnd.foot (o : Opnd) (n : Nat) (wr : Bool) : Foot :=
  if o.mem then ⟨[⟨o.loc, o.loc + o.cnt n * o.fmt.bytes, wr⟩], []⟩
  else ⟨[], (List.range (o.regs n)).map fun i => (o.loc + i, wr)⟩

def Foot.union (l : List Foot) : Foot := ⟨l.flatMap (·.spans), l.flatMap (·.vregs)⟩

/-- Element `k` of an operand. -/
def Opnd.get (s : State) (c : Nat) (o : Opnd) (k : Nat) : XF :=
  let k := if o.rep then k % (1024 / o.fmt.bits) else k
  if o.mem then s.elemAt o.fmt ((o.loc + k * o.fmt.bytes) * 8) none
  else
    let v := (s.ctx c).getV (o.loc + k * o.fmt.bits / 1024)
    decElem o.fmt (nfld v.toNat (k * o.fmt.bits % 1024 + o.fmt.bits - 1) (k * o.fmt.bits % 1024))

/-- The address of a poisoned element among the first `n`. -/
def Opnd.bad (s : State) (n : Nat) (o : Opnd) : Option Nat :=
  if o.mem && s.poisoned o.loc (o.cnt n * o.fmt.bytes) then some o.g else none

/-- Replace `w` bits at `lo` of a register. -/
def putBits (v : BitVec 1024) (lo w n : Nat) : BitVec 1024 :=
  BitVec.ofNat 1024 (v.toNat - v.toNat / 2 ^ lo % 2 ^ w * 2 ^ lo + n % 2 ^ w * 2 ^ lo)

/-- Write element codes into registers from `v` on, elements of `bits` bits. -/
def putElems (x : Ctx) (v bits : Nat) (codes : List Nat) : Ctx :=
  codes.zipIdx.foldl (fun (x : Ctx) (y : Nat × Nat) =>
    let r := v + y.2 * bits / 1024
    x.setV r (putBits (x.getV r) (y.2 * bits % 1024) bits y.1)) x

/-- Write element codes to an output. -/
def Opnd.put (s : State) (c : Nat) (o : Opnd) (codes : List Nat) : State :=
  if o.mem then s.ownStore o.loc (codes.flatMap fun x => le o.fmt.bytes x)
  else s.modCtx c fun x => putElems x o.loc o.fmt.bits codes

/-- Does an output overlap an input without lying exactly on it (R125)? -/
def Opnd.clash (o i : Opnd) (n : Nat) : Bool :=
  (o.foot n true).meets (i.foot n false) && !(o.loc == i.loc && o.fmt == i.fmt && (!i.rep || n ≤ 1024 / i.fmt.bits))

namespace State

/-- Element codes that are not defined. -/
def freeCodes (s : State) (n bits : Nat) : List Nat × State :=
  ((List.range n).map fun i => Config.freeNat (s.fresh + i) % 2 ^ bits, { s with fresh := s.fresh + n })

/-- A range of the core's own memory becomes not defined, if that is what it is (R155). -/
def freeRange (s : State) (c lo n : Nat) : State := if ownRange c lo n && n != 0 then s.forget lo (lo + n) else s

end State

/-- The `n` elements of an output become not defined (R155). -/
def Opnd.free (s : State) (c n : Nat) (o : Opnd) : State :=
  if o.mem then s.freeRange c o.loc (n * o.fmt.bytes)
  else
    let (codes, s) := s.freeCodes (min n ((64 - o.loc) * (1024 / o.fmt.bits))) o.fmt.bits
    s.modCtx c fun x => putElems x o.loc o.fmt.bits codes

/-- An instruction of the vector or row engine before it runs: its unit and pipeline, the checks at its issue, what it touches, the
records it names, the checks at its start, how its outputs become not defined, a poisoned operand, and its effect. -/
structure VOp where
  unit   : Nat
  lane   : Nat
  checks : List (Option FaultInfo)
  foot   : Foot
  recs   : List Nat
  late   : List (Option FaultInfo)
  free   : State → State
  bad    : State → Option Nat
  act    : State → State

/-- A fault of the instruction: its outputs and the records it names are not defined (R155). [DEDUCED, log 44] -/
def VOp.stop (v : VOp) (i : Ins) (s : State) (x : FaultInfo) : IRes := .fault ((v.free s).freeSide i.c (v.recs.filter (· < 4096))) x

/-- Run an instruction of either engine (R135, R155, R228, R363). [DEDUCED, log 158] -/
def VOp.run (v : VOp) (i : Ins) (s : State) : IRes :=
  match firstFault v.checks with
  | some x => v.stop i s x
  | none =>
    s.enterUnit i v.lane v.foot [] <|
    match firstFault v.late with
    | some x => v.stop i s x
    | none =>
      match v.bad s with
      | some a => v.stop i s (faultOf 0x67 v.unit a)
      | none =>
        match s.frozenFault v.unit (v.foot.outs) with
        | some x => v.stop i s x
        | none => .done (v.act s)

/-- An element count: the field, or a register. -/
def count (s : State) (c : Nat) (csrc : Bool) (fieldv reg : Nat) : Nat :=
  if csrc then ((s.ctx c).getA reg).toNat else fieldv + 1

def countOk (n : Nat) : Option FaultInfo := need (decide (1 ≤ n) && decide (n ≤ 8192)) 0x62 2

/-! ## Element streams: VEW and VMP -/

/-- What VEW and VMP share: the operations, the streams and the branch-bit stream. -/
structure Elem where
  ops    : List UWord
  consts : List W32
  ins    : List Opnd
  outs   : List Opnd
  n      : Nat
  bben   : Bool
  bdir   : Bool
  bba    : Nat

/-- Branch bit `k` of the stream. -/
def Elem.bit (s : State) (e : Elem) (k : Nat) : Bool := (s.mem.byte (gloc e.bba + k / 8)).getLsbD (k % 8)

/-- Write branch bits from bit 0 on, keeping the bits beyond them. -/
def putBranch (s : State) (a : Nat) (bits : List Bool) : State :=
  let n := bits.length
  s.ownStore a ((List.range ((n + 7) / 8)).map fun i =>
    iterate 8 (s.mem.byte (a + i)) fun j b =>
      if 8 * i + j < n then
        (if (bits[8 * i + j]?).getD false then b ||| BitVec.ofNat 8 (2 ^ j) else b &&& ~~~(BitVec.ofNat 8 (2 ^ j)))
      else b)

/-- Every element, in order: the lanes after the operations. [DESIGN CHOICE, log 27] -/
def Elem.lanes (s : State) (c : Nat) (e : Elem) : Fl (List Lane) :=
  (List.range e.n).mapM fun k =>
    e.ops.foldlM (fun l w => l.run (e.ins.map fun o => o.get s c k) e.consts (e.bben && !e.bdir && e.bit s k) w)
      ⟨List.replicate 16 (.zero false), .zero false, .zero false, Config.freeNat (s.fresh + k) % 2 == 1, false⟩

/-- The effect: outputs converted, the branch bits, the flags. -/
def Elem.act (c : Nat) (e : Elem) (s : State) : State :=
  let (ls, bits) := (e.lanes s c).run 0
  let s := { s with fresh := s.fresh + e.n }
  let clash := e.outs.any fun o => e.ins.any fun i => o.clash i e.n
  let (s, bits) := e.outs.zipIdx.foldl (fun (a : State × W32) (o : Opnd × Nat) =>
    let cs := ls.map fun l => convert o.1.fmt (if o.2 = 0 then l.o0 else l.o1)
    let fl := cs.foldl (fun b x => b ||| cvtBits x.2 flagVovf) a.2
    let (codes, s) := if clash then a.1.freeCodes e.n o.1.fmt.bits else (cs.map (·.1), a.1)
    (o.1.put s c codes, fl)) (s, bits)
  let s := if e.bben && e.bdir then putBranch s (gloc e.bba) (ls.map (·.bo)) else s
  s.setFlags c bits

/-- The branch bits written become not defined. -/
def Elem.freeBits (s : State) (c n : Nat) (e : Elem) : State :=
  if !(e.bben && e.bdir && ownRange c (gloc e.bba) ((n + 7) / 8)) then s else
  let (bits, s) := s.freeCodes n 1
  putBranch s (gloc e.bba) (bits.map (· == 1))

/-- The instruction over element streams; `more` are checks at its issue and `late` those at its start. -/
def Elem.op (s : State) (c : Nat) (e : Elem) (more late : List (Option FaultInfo)) : VOp :=
  let n := min e.n 8192
  let bb := (n + 7) / 8
  { unit := 2, lane := 21, late := late,
    free := fun s => e.outs.foldl (fun s o => o.free s c n) (e.freeBits s c n),
    checks := [countOk e.n] ++ more ++ (e.ins ++ e.outs).flatMap (·.check s c n) ++
      (if e.bben then [need (e.bba % 8 == 0) 0x64 2 e.bba, s.ownFault c e.bba bb 0x63 2] else []),
    foot := Foot.union (e.ins.map (·.foot n false) ++ e.outs.map (·.foot n true) ++
      [⟨if e.bben then [⟨gloc e.bba, gloc e.bba + bb, e.bdir⟩] else [], []⟩]),
    recs := [],
    bad := fun s => (e.ins.findSome? (·.bad s n)).or
      (if e.bben && !e.bdir && s.poisoned (gloc e.bba) bb then some e.bba else none),
    act := e.act c }

/-- Inputs 0 to NIN of the specifiers `vs`. -/
def vewIns (f : Frame) : List Nat := [fld f 55 44, fld f 67 56, fld f 79 68].take (fld f 17 16 + 1)

def vewDec (f : Frame) : Option FaultInfo :=
  let nin := fld f 17 16
  firstFault ([decodeCheck f 0x68 [(127, 124), (23, 18)] (nin != 3 && (!bitOf f 37 || fld f 36 28 == 0))] ++
    [fld f 55 44, fld f 67 56, fld f 79 68].zipIdx.map (fun v => specDec v.1 (decide (v.2 ≤ nin))) ++
    [specDec (fld f 91 80) true, need ((UWord.of (fld f 123 92)).known && (UWord.of (fld f 123 92)).d == 0) 0x68 0])

def vewRegs (f : Frame) : List Nat :=
  (vewIns f).flatMap specReg ++ specReg (fld f 91 80) ++ (if bitOf f 39 then [fld f 43 40] else []) ++
  (if bitOf f 37 then [fld f 27 24] else [])

/-- VEW (R133), taken apart. [DESIGN CHOICE, log 27] -/
def vewOp (i : Ins) (s : State) : VOp :=
  let f := i.f
  let w := UWord.of (fld f 123 92)
  let nin := fld f 17 16 + 1
  let bben := bitOf f 39; let bdir := bitOf f 38
  let selOk := w.uses.all fun v => (0x10 ≤ v && v < 0x10 + nin) || v == 0x15 || v == 0x16
  let latch := (latchAct w.u).isSome; let grad := (gradAct w.u).isSome
  let e : Elem :=
    { ops := [w, ⟨0x3C, 0, 0, 0, 0, 0, 0⟩, ⟨0x3E, 0, 0, 0, 0, 0, 0⟩], consts := [],
      ins := (vewIns f).map fun v => opnd s i.c v false, outs := [opnd s i.c (fld f 91 80) true],
      n := count s i.c (bitOf f 37) (fld f 36 24) (fld f 27 24), bben := bben, bdir := bdir, bba := ((s.ctx i.c).getA (fld f 43 40)).toNat }
  e.op s i.c [need (w.fmtOk && selOk && !(0x3C ≤ w.u && w.u ≤ 0x3E) &&
    (!grad || (bben && !bdir)) && (!(bben && bdir) || latch)) 0x65 2] []

def vewBody (i : Ins) (s : State) : IRes := (vewOp i s).run i s

def vmpIns (f : Frame) : List Nat := [fld f 51 40, fld f 63 52, fld f 75 64, fld f 87 76].take (fld f 17 16 + 1)
def vmpOuts (f : Frame) : List Nat := [fld f 99 88, fld f 111 100].take (fld f 19 18)

def vmpDec (f : Frame) : Option FaultInfo :=
  let nin := fld f 17 16; let nout := fld f 19 18
  firstFault ([decodeCheck f 0x68 [(127, 116)] (nout != 3 && (!bitOf f 33 || fld f 32 24 == 0))] ++
    [fld f 51 40, fld f 63 52, fld f 75 64, fld f 87 76].zipIdx.map (fun v => specDec v.1 (decide (v.2 ≤ nin))) ++
    [fld f 99 88, fld f 111 100].zipIdx.map (fun v => specDec v.1 (decide (v.2 < nout))))

def vmpRegs (f : Frame) : List Nat :=
  (vmpIns f).flatMap specReg ++ (vmpOuts f).flatMap specReg ++ (if bitOf f 35 then [fld f 39 36] else []) ++
  (if bitOf f 33 then [fld f 23 20] else [])

/-- VMP (R129), taken apart. [DESIGN CHOICE, log 27] -/
def vmpOp (i : Ins) (s : State) : VOp :=
  let f := i.f
  let nin := fld f 17 16 + 1; let nout := fld f 19 18
  let bben := bitOf f 35; let bdir := bitOf f 34
  let u := SMap.get? (s.ctx i.c).uops (fld f 115 112)
  let ops := match u with | some u => u.ops.map fun w => UWord.of w.toNat | none => []
  let has (k : Nat) : Bool := ops.any fun w => w.u == k
  let grad := ops.any fun w => (gradAct w.u).isSome
  let e : Elem :=
    { ops := ops, consts := (u.map (·.consts)).getD [],
      ins := (vmpIns f).map fun v => opnd s i.c v false, outs := (vmpOuts f).map fun v => opnd s i.c v true,
      n := count s i.c (bitOf f 33) (fld f 32 20) (fld f 23 20), bben := bben, bdir := bdir,
      bba := ((s.ctx i.c).getA (fld f 39 36)).toNat }
  e.op s i.c [] [need (u.isSome &&
      (ops.all fun w => w.uses.all fun v => !(0x10 + nin ≤ v && v < 0x14)) &&
      (nout < 1 || has 0x3C) && (nout < 2 || has 0x3D) && (nout == 2 || !has 0x3D) &&
      (!(bben && bdir) || has 0x3E) && (!has 0x3E || (bben && bdir)) && (!grad || (bben && !bdir))) 0x65 2]

/-- Does an UPLOAD wait before the instruction, so that its micro-program is not known yet? -/
def State.uploading (s : State) (i : Ins) : Bool := (s.ctx i.c).uq.any fun q => opcode q.frame == 0x68 && decide (q.uid < i.n)

def vmpBody (i : Ins) (s : State) : IRes := if s.uploading i then .hold else (vmpOp i s).run i s

/-! ## UPLOAD (R127) -/

/-- A micro-program slot becomes not defined. [DESIGN CHOICE, log 47] -/
def State.freeUprog (s : State) (c slot : Nat) : State :=
  let (ws, s) := s.freeCodes 64 32
  let u : UProg := ⟨(ws.take 32).map (BitVec.ofNat 32), (ws.drop 32).map (BitVec.ofNat 32)⟩
  s.modCtx c fun x => { x with uops := SMap.put x.uops slot u }

/-- UPLOAD: the words beyond NOPS are not loaded, and not checked. A fault leaves the slot, its output, not defined, and the fault of a
word leaves it empty (R127, R128, R155). [DESIGN CHOICE, log 47] -/
def uploadBody (i : Ins) (s : State) : IRes :=
  let f := i.f
  let g := ((s.ctx i.c).getA (fld f 19 16)).toNat
  let n := fld f 28 24 + 1; let slot := fld f 23 20
  let a := gloc g
  match firstFault [need (g % 16 == 0) 0x64 2 g, s.ownFault i.c g 256 0x63 2] with
  | some x => .fault (s.freeUprog i.c slot) x
  | none =>
    s.enterUnit i 21 ⟨[⟨a, a + 256, false⟩], []⟩ [] <|
    if s.poisoned a 256 then .fault (s.freeUprog i.c slot) (faultOf 0x67 2 g)
    else
      let bs := s.read a 256
      let ops := (List.range n).map fun k => BitVec.ofNat 32 (rd bs (4 * k) 4)
      if ops.all fun w => (UWord.of w.toNat).ok then
        .done (s.modCtx i.c fun x => { x with
          uops := SMap.put x.uops slot ⟨ops, (List.range 32).map fun k => BitVec.ofNat 32 (rd bs (0x80 + 4 * k) 4)⟩ })
      else .fault (s.modCtx i.c fun x => { x with uops := SMap.del x.uops slot }) (faultOf 0x65 2)

/-! ## VLD, VST and VRED (R137, R138) -/

def vldDec (f : Frame) : Option FaultInfo :=
  let m := Fmt.ofCode (fld f 45 42)
  firstFault [decodeCheck f 0x68 [(127, 60), (23, 16)] ((!bitOf f 37 || fld f 36 28 == 0) &&
      (match m with | some m => m.isMx || fld f 59 56 == 0 | none => true)),
    need (m.isSome && (Fmt.ofCode (fld f 41 38)).isSome) 0x61 0]

def vldRegs (f : Frame) : List Nat :=
  [fld f 55 52, fld f 59 56] ++ (if bitOf f 37 then [fld f 27 24] else [])

/-- The exact value of an XW128 element in memory: with the base exponent of the open region it lies in, else with one the
spec does not give. [DESIGN CHOICE, log 28] -/
def State.xwAt (s : State) (a : Nat) : XF :=
  let eb := match s.regions.find? fun r => decide (r.2.base ≤ a) && decide (a < r.2.base + 16 * r.2.count) with
    | some r => r.2.eb
    | none => (Config.freeNat s.fresh % 384 : Nat) - 256
  (Xw.dec (leNat (s.read a 16))).value eb

/-- Pack codes of `bits` bits into bytes; the last byte is filled with zeros. -/
def packCodes (bits : Nat) (codes : List Nat) : List Byte :=
  if bits % 8 = 0 then codes.flatMap fun x => le (bits / 8) x
  else
    let n := codes.zipIdx.foldl (fun a (x : Nat × Nat) => a + x.1 % 2 ^ bits * 2 ^ (bits * x.2)) 0
    le ((codes.length * bits + 7) / 8) n

/-- What VLD and VST share. [DEDUCED, log 24] -/
def vmoveOp (load : Bool) (i : Ins) (s : State) : VOp :=
  let f := i.f
  let m := (Fmt.ofCode (fld f 45 42)).getD .fp32
  let r := (Fmt.ofCode (fld f 41 38)).getD .fp32
  let v := fld f 51 46
  let n := count s i.c (bitOf f 37) (fld f 36 24) (fld f 27 24)
  let k := min n 8192
  let g := ((s.ctx i.c).getA (fld f 55 52)).toNat; let gs := ((s.ctx i.c).getA (fld f 59 56)).toNat
  let len := (k * m.bits + 7) / 8; let nb := (k + 31) / 32
  let reg : Opnd := ⟨false, false, r, v, 0⟩
  let scale (j : Nat) : Option Nat := if m.isMx then some (gloc gs + j / 32) else none
  { unit := 2, lane := if load then 20 else 22, late := [],
    free := fun s =>
      if load then reg.free s i.c k
      else
        let s := s.freeRange i.c (gloc g) len
        if m.isMx then s.freeRange i.c (gloc gs) nb else s,
    checks := [countOk n, need (load || m != .xw) 0x61 2] ++ reg.check s i.c k ++
      [need (g % 16 == 0) 0x64 2 g, s.ownFault i.c g len 0x63 2] ++
      (if m.isMx then [need (gs % 16 == 0) 0x64 2 gs, s.ownFault i.c gs nb 0x63 2] else []),
    foot := Foot.union [⟨[⟨gloc g, gloc g + len, !load⟩] ++
      (if m.isMx then [⟨gloc gs, gloc gs + nb, !load⟩] else []), []⟩, reg.foot k load],
    recs := [],
    bad := fun s =>
      if !load then none
      else if s.poisoned (gloc g) len then some g
      else if m.isMx && s.poisoned (gloc gs) nb then some gs else none,
    act := fun s =>
      if load then
        let cs := (List.range k).map fun j => convert r
          (if m = .xw then s.xwAt (gloc g + 16 * j) else s.elemAt m (gloc g * 8 + j * m.bits) (scale j))
        let s := if m = .xw then { s with fresh := s.fresh + 1 } else s
        (reg.put s i.c (cs.map (·.1))).setFlags i.c (cs.foldl (fun b x => b ||| cvtBits x.2 flagVovf) 0)
      else
        let xs := (List.range k).map fun j => reg.get s i.c j
        if m.isMx then
          let qs := (List.range nb).map fun j => mxQuant m ((xs.drop (32 * j)).take 32)
          (s.ownStore (gloc g) (packCodes m.bits (qs.flatMap (·.2)))).ownStore (gloc gs)
            (qs.map fun q => BitVec.ofNat 8 q.1)
        else
          let cs := xs.map fun x => convert m x
          (s.ownStore (gloc g) (cs.flatMap fun x => le m.bytes x.1)).setFlags i.c
            (cs.foldl (fun b x => b ||| cvtBits x.2 flagVovf) 0) }

def vldBody (i : Ins) (s : State) : IRes := (vmoveOp true i s).run i s
def vstBody (i : Ins) (s : State) : IRes := (vmoveOp false i s).run i s

def vredDec (f : Frame) : Option FaultInfo :=
  firstFault [decodeCheck f 0x68 [(127, 60), (40, 40), (25, 16)] (!bitOf f 39 || fld f 38 30 == 0),
    specDec (fld f 55 44) true]

def vredRegs (f : Frame) : List Nat :=
  [fld f 59 56] ++ specReg (fld f 55 44) ++ (if bitOf f 39 then [fld f 29 26] else [])

def pairBytes (p : Pair) : List Byte := le 4 p.s.toNat ++ le 4 p.c.toNat
def pairOf (bs : List Byte) : Pair := ⟨BitVec.ofNat 32 (rd bs 0 4), BitVec.ofNat 32 (rd bs 4 4)⟩

/-- VRED (R138), taken apart. [DEDUCED, log 24] -/
def vredOp (i : Ins) (s : State) : VOp :=
  let f := i.f
  let o := opnd s i.c (fld f 55 44) false
  let n := count s i.c (bitOf f 39) (fld f 38 26) (fld f 29 26)
  let k := min n 8192
  let g := ((s.ctx i.c).getA (fld f 59 56)).toNat
  let rop := fld f 43 42; let acc := bitOf f 41
  let out : Span := ⟨gloc g, gloc g + 8, true⟩
  { unit := 2, lane := 21, late := [], free := fun s => s.freeRange i.c (gloc g) 8,
    checks := [countOk n] ++ o.check s i.c k ++ [need (g % 16 == 0) 0x64 2 g, s.ownFault i.c g 8 0x63 2],
    foot := Foot.union [o.foot k false, ⟨[out], []⟩],
    recs := [],
    bad := fun s => (o.bad s k).or (if acc && s.poisoned (gloc g) 8 then some g else none),
    act := fun s =>
      let xs := (List.range k).map fun j => o.get s i.c j
      let p0 : Pair := if acc then pairOf (s.read (gloc g) 8) else Pair.zero
      let m0 : List XF := if acc then [dec32 p0.s] else []
      let comp : Fl Pair :=
        match rop with
        | 0 => vecEng.psum p0 xs
        | 1 => do
          let qs ← xs.mapM fun x => vecEng.rn [x] (x.mul x)
          vecEng.psum p0 qs
        | _ =>
          match xs ++ m0 with
          | [] => return p0
          | x :: ys => return ⟨enc32 (ys.foldl (if rop = 2 then XF.max2 else XF.min2) x), 0⟩
      let (p, bits) := comp.run 0
      let clash := o.mem && spansMeet out ⟨o.loc, o.loc + o.cnt k * o.fmt.bytes, false⟩
      let (bs, s) := if clash then
          let (cs, s) := s.freeCodes 8 8
          (cs.map fun x => BitVec.ofNat 8 x, s) else (pairBytes p, s)
      (s.ownStore (gloc g) bs).setFlags i.c bits }

def vredBody (i : Ins) (s : State) : IRes := (vredOp i s).run i s

/-! ## Pooling (R139 to R142) -/

/-- A window descriptor (R139). -/
structure Win3 where
  ins  : List Nat
  outs : List Nat
  k    : List Nat
  st   : List Nat
  dil  : List Nat
  pad  : List Nat
  cb   : Nat
  cbw  : Nat
  xs   : List Nat
  ys   : List Nat
  rsvd : Bool

def Win3.of (d : List Byte) : Win3 :=
  let h (o : Nat) : List Nat := [rd d o 2, rd d (o + 2) 2, rd d (o + 4) 2]
  let b (o : Nat) : List Nat := [rd d o 1, rd d (o + 1) 1, rd d (o + 2) 1]
  let w (o : Nat) : List Nat := [rd d (o + 8) 4, rd d (o + 4) 4, rd d o 4, rd d (o + 12) 4]
  ⟨h 0, h 6, b 0xC, b 0x10, b 0x14, b 0x18, rd d 0x1C 2, rd d 0x1E 1, w 0x20, w 0x30,
   [0xF, 0x13, 0x17, 0x1B, 0x1F].all fun o => rd d o 1 == 0⟩

def nth (l : List Nat) (i : Nat) : Nat := (l[i]?).getD 0

def Win3.ok (w : Win3) : Bool :=
  (w.ins ++ w.outs ++ [w.cb]).all (1 ≤ ·) &&
  (List.range 3).all (fun i => 1 ≤ nth w.k i && nth w.k i ≤ nth [7, 15, 15] i && 1 ≤ nth w.st i && nth w.st i ≤ 8 &&
    1 ≤ nth w.dil i && nth w.dil i ≤ 64 && nth w.pad i ≤ (nth w.k i - 1) * nth w.dil i) &&
  (w.cbw == 16 || w.cbw == 32)

/-- Length of the byte range that a tensor of dimensions `ds` takes. -/
def tensorLen (ds str : List Nat) (cb cbw es : Nat) : Nat :=
  ((List.range 3).map fun i => (nth ds i - 1) * nth str i).foldl (· + ·) 0 + (cb - 1) * nth str 3 + cbw * es

def tensorAt (str : List Nat) (p : List Nat) (cb lane es : Nat) : Nat :=
  nth p 0 * nth str 0 + nth p 1 * nth str 1 + nth p 2 * nth str 2 + cb * nth str 3 + lane * es

/-- Positions of a box in order, the last dimension fastest. -/
def boxOf (d : List Nat) : List (List Nat) :=
  (List.range (nth d 0)).flatMap fun a => (List.range (nth d 1)).flatMap fun b => (List.range (nth d 2)).map fun c => [a, b, c]

/-- The input positions of an output position's window, in scan order. -/
def Win3.window (w : Win3) (p : List Nat) : List (List Nat) :=
  (boxOf w.k).filterMap fun t =>
    let x := (List.range 3).map fun i =>
      ((nth p i * nth w.st i + nth t i * nth w.dil i : Nat) : Int) - nth w.pad i
    if (x.zip w.ins).all fun y => decide (0 ≤ y.1) && decide (y.1 < y.2) then some (x.map Int.toNat) else none

def Win3.taps (w : Win3) : Nat := nth w.k 0 * nth w.k 1 * nth w.k 2

/-- The maximum of a window, NaN when any input is. -/
def winMax : List XF → XF
  | [] => .zero false
  | x :: xs => xs.foldl XF.max2 x

/-- Where POOLB's max mode sends a gradient: the first input that is the window's maximum, or the first NaN. -/
def maxAt (xs : List XF) : Nat :=
  let m := winMax xs
  (xs.findIdx? fun x => if m.isNan then x.isNan else !(XF.ltz x m) && !x.isNan).getD 0

/-- One output of POOL. [DEDUCED, log 26] -/
def poolOut (mode taps : Nat) (xs : List XF) : Fl XF :=
  match mode, xs with
  | 0, [] => do raise flagVempty; return .zero false
  | 2, [] => do raise flagVempty; return .zero false
  | 0, xs => return winMax xs
  | m, xs => do
    let p ← vecEng.psum Pair.zero xs
    let t ← vecEng.pval p
    vecEng.rn [t] (t.div (.fin (if m = 1 then taps else xs.length) 0))

def poolDec (bwd : Bool) (f : Frame) : Option FaultInfo :=
  firstFault [decodeCheck f 0x68 ([(127, 48), (23, 18)] ++ if bwd then [] else [(47, 44)]) (fld f 17 16 != 3),
    need ((Fmt.ofCode (fld f 31 28)).isSome && (Fmt.ofCode (fld f 27 24)).isSome) 0x61 0]

def poolRegs (bwd : Bool) (f : Frame) : List Nat :=
  [fld f 43 40, fld f 39 36, fld f 35 32] ++ if bwd then [fld f 47 44] else []

/-- Store one element of a tensor. -/
def putElem (s : State) (a es code : Nat) : State := s.ownStore a (le es code)

/-- POOL and POOLB with the window of their descriptor, taken apart. POOLB sets no VEMPTY.
[DEDUCED, log 26] [DESIGN CHOICE, log 185] -/
def poolOp (bwd : Bool) (i : Ins) (s : State) (w : Win3) : VOp :=
  let f := i.f
  let mode := fld f 17 16
  let xf := (Fmt.ofCode (fld f 27 24)).getD .fp32; let yf := (Fmt.ofCode (fld f 31 28)).getD .fp32
  let ar (hi lo : Nat) : Nat := ((s.ctx i.c).getA (fld f hi lo)).toNat
  let gx := ar 35 32; let gy := ar 39 36; let gd := ar 47 44; let gw := ar 43 40
  let xl := tensorLen w.ins w.xs w.cb w.cbw xf.bytes
  let ol := if bwd then tensorLen w.ins w.xs w.cb w.cbw yf.bytes else tensorLen w.outs w.ys w.cb w.cbw yf.bytes
  let dl := tensorLen w.outs w.ys w.cb w.cbw xf.bytes
  let readX := !bwd || mode == 0
  let rds : List Span := (if readX then [⟨gloc gx, gloc gx + xl, false⟩] else []) ++
    (if bwd then [⟨gloc gd, gloc gd + dl, false⟩] else [])
  let out : Span := ⟨gloc gy, gloc gy + ol, true⟩
  let chans := (List.range w.cb).flatMap fun b => (List.range w.cbw).map fun l => (b, l)
  let xAt (p : List Nat) (ch : Nat × Nat) : Nat := gloc gx + tensorAt w.xs p ch.1 ch.2 xf.bytes
  let dAt (p : List Nat) (ch : Nat × Nat) : Nat := gloc gd + tensorAt w.ys p ch.1 ch.2 xf.bytes
  { unit := 2, lane := 21, late := [],
    free := fun s => (boxOf (if bwd then w.ins else w.outs)).foldl (fun s p => (List.range w.cb).foldl (fun s b =>
      s.freeRange i.c (gloc gy + tensorAt (if bwd then w.xs else w.ys) p b 0 yf.bytes) (w.cbw * yf.bytes)) s) s,
    checks := (if readX then [need (gx % 16 == 0) 0x64 2 gx, s.ownFault i.c gx xl 0x63 2] else []) ++
      (if bwd then [need (gd % 16 == 0) 0x64 2 gd, s.ownFault i.c gd dl 0x63 2] else []) ++
      [need (gy % 16 == 0) 0x64 2 gy, s.ownFault i.c gy ol 0x63 2],
    foot := ⟨⟨gloc gw, gloc gw + 64, false⟩ :: out :: rds, []⟩,
    recs := [],
    bad := fun s =>
      ((if readX then (boxOf w.outs).findSome? fun p => (w.window p).findSome? fun q =>
          if s.poisoned (xAt q (0, 0)) 1 || chans.any (fun ch => s.poisoned (xAt q ch) xf.bytes)
          then some (gx + (xAt q (0, 0) - gloc gx)) else none
        else none).or
       (if bwd then (boxOf w.outs).findSome? fun p =>
          if chans.any (fun ch => s.poisoned (dAt p ch) xf.bytes) then some (gd + (dAt p (0, 0) - gloc gd)) else none
        else none)),
    act := fun s =>
      let clash := rds.any fun r => spansMeet r out && !(r.lo == out.lo && r.hi == out.hi && xf == yf)
      let x (p : List Nat) (ch : Nat × Nat) : XF := s.elemAt xf (xAt p ch * 8) none
      -- the outputs, each with its address
      let comp : Fl (List (Nat × XF)) :=
        if !bwd then
          chans.flatMapM fun ch => (boxOf w.outs).mapM fun p => do
            let v ← poolOut mode w.taps ((w.window p).map fun q => x q ch)
            return (tensorAt w.ys p ch.1 ch.2 yf.bytes, v)
        else
          chans.flatMapM fun ch => do
            let m ← (boxOf w.outs).foldlM (fun (m : SMap Pair) p => do
              let qs := w.window p
              let dy := s.elemAt xf (dAt p ch * 8) none
              let key (q : List Nat) : Nat := (nth q 0 * 65536 + nth q 1) * 65536 + nth q 2
              if mode = 0 then
                match qs[maxAt (qs.map fun q => x q ch)]? with
                | some q => do
                  let t ← vecEng.padd (SMap.getD m (key q) Pair.zero) dy
                  return SMap.put m (key q) t
                | none => return m
              else do
                let v ← vecEng.rn [dy] (dy.div (.fin (if mode = 1 then w.taps else max 1 qs.length) 0))
                qs.foldlM (fun (m : SMap Pair) q => do
                  let t ← vecEng.padd (SMap.getD m (key q) Pair.zero) v
                  return SMap.put m (key q) t) m) []
            return (boxOf w.ins).map fun q =>
              (tensorAt w.xs q ch.1 ch.2 yf.bytes,
               (SMap.getD m ((nth q 0 * 65536 + nth q 1) * 65536 + nth q 2) Pair.zero).value)
      let (vs, bits) := comp.run 0
      let cs := vs.map fun v => (v.1, convert yf v.2)
      let bits := cs.foldl (fun b v => b ||| cvtBits v.2.2 flagVovf) bits
      let (free, s) := if clash then s.freeCodes cs.length yf.bits else ([], s)
      let codes := if clash then free else cs.map (·.2.1)
      ((cs.zip codes).foldl (fun s v => putElem s (gloc gy + v.1.1) yf.bytes v.2) s).setFlags i.c bits }

/-- POOL and POOLB. -/
def poolBody (bwd : Bool) (i : Ins) (s : State) : IRes :=
  let f := i.f
  let xf := (Fmt.ofCode (fld f 27 24)).getD .fp32; let yf := (Fmt.ofCode (fld f 31 28)).getD .fp32
  let gw := ((s.ctx i.c).getA (fld f 43 40)).toNat
  match firstFault [need (xf.isVec && yf.isVec) 0x61 2, need (gw % 16 == 0) 0x64 2 gw, s.ownFault i.c gw 64 0x63 2] with
  | some x => .fault s x
  | none =>
    if s.conflict i ⟨[⟨gloc gw, gloc gw + 64, false⟩], []⟩ then .hold
    else if s.poisoned (gloc gw) 64 then .fault s (faultOf 0x67 2 gw)
    else
      let w := Win3.of (s.read (gloc gw) 64)
      match firstFault [need w.rsvd 0x68 2, need w.ok 0x62 2] with
      | some x => .fault (if w.ok then (poolOp bwd i s w).free s else s) x
      | none => (poolOp bwd i s w).run i s

/-! ### The rows -/

def runVew (c : Nat) (f : Frame) (s : State) : State := s.issueCore c f (vewDec f) (vewRegs f) vewBody
def runVmp (c : Nat) (f : Frame) (s : State) : State := s.issueCore c f (vmpDec f) (vmpRegs f) vmpBody
def runVld (c : Nat) (f : Frame) (s : State) : State := s.issueCore c f (vldDec f) (vldRegs f) vldBody
def runVst (c : Nat) (f : Frame) (s : State) : State := s.issueCore c f (vldDec f) (vldRegs f) vstBody
def runVred (c : Nat) (f : Frame) (s : State) : State := s.issueCore c f (vredDec f) (vredRegs f) vredBody
def runUpload (c : Nat) (f : Frame) (s : State) : State :=
  s.issueCore c f (decodeCheck f 0x68 [(127, 29)]) [fld f 19 16] uploadBody
def runPool (c : Nat) (f : Frame) (s : State) : State := s.issueCore c f (poolDec false f) (poolRegs false f) (poolBody false)
def runPoolb (c : Nat) (f : Frame) (s : State) : State := s.issueCore c f (poolDec true f) (poolRegs true f) (poolBody true)

def execVew (c : Nat) (f : Frame) (s : State) : Host.Outcome State Fault Refusal := .next (s.startOp 0x60 c f (runVew c f))
def execVmp (c : Nat) (f : Frame) (s : State) : Host.Outcome State Fault Refusal := .next (s.startOp 0x61 c f (runVmp c f))
def execVld (c : Nat) (f : Frame) (s : State) : Host.Outcome State Fault Refusal := .next (s.startOp 0x62 c f (runVld c f))
def execVst (c : Nat) (f : Frame) (s : State) : Host.Outcome State Fault Refusal := .next (s.startOp 0x63 c f (runVst c f))
def execVred (c : Nat) (f : Frame) (s : State) : Host.Outcome State Fault Refusal := .next (s.startOp 0x64 c f (runVred c f))
def execUpload (c : Nat) (f : Frame) (s : State) : Host.Outcome State Fault Refusal := .next (s.startOp 0x68 c f (runUpload c f))
def execPool (c : Nat) (f : Frame) (s : State) : Host.Outcome State Fault Refusal := .next (s.startOp 0x6C c f (runPool c f))
def execPoolb (c : Nat) (f : Frame) (s : State) : Host.Outcome State Fault Refusal := .next (s.startOp 0x6D c f (runPoolb c f))

end Sys2Proof.Machine
end

