-- ==== Sys2Proof/Machine/Atomics.lean ====
section
/-! DEFINITION. Sys2Proof/Machine/Atomics.lean: memory-side atomics, exact regions with their window slots, recalibration and the
patrol scrubber (R291, R295, R301 to R310, R329 to R332). -/

namespace Sys2Proof.Machine

/-! ## Operations (R302) -/

/-- Bytes of an operation's target. -/
def atomBytes (op : Nat) : Nat := match op with | 1 => 16 | 2 | 3 => 4 | _ => 8

/-- A format an atomic takes as a plain value. -/
def atomFmt (c : Nat) : Option Fmt :=
  match Fmt.ofCode c with
  | some .fp32 => some .fp32 | some .bf16 => some .bf16 | some .fp16 => some .fp16
  | some .e4m3 => some .e4m3 | some .e5m2 => some .e5m2 | _ => none

/-- Do OKIND, OFMT and EA fit the operation? -/
def atomFields (op okind ofmt : Nat) (ea : Int) : Bool :=
  (okind == 3 || ea == 0) && decide (-256 ≤ ea) && decide (ea ≤ 127) &&
  match op with
  | 0 => okind == 0 && (atomFmt ofmt).isSome
  | 1 => decide (okind < 4) && if okind = 0 then (atomFmt ofmt).isSome else ofmt == 0
  | _ => okind == 0 && ofmt == 0

/-- The exact addend of FADDC and XADD (R111, R302). -/
def AtomOp.addend (o : AtomOp) : XF :=
  match o.okind with
  | 0 => match atomFmt o.ofmt with
    | some f => decElem f (o.v1.toNat % 2 ^ f.bits)
    | none => .nan
  | 1 => Pair.value ⟨o.v1.setWidth 32, o.v1.extractLsb' 32 32⟩
  | 2 => XF.ofDy (sint32 (o.v1.setWidth 32)) 0
  | _ => (Xw.dec (o.v1.toNat + 2 ^ 64 * o.v2.toNat)).value o.ea

/-- What the operations other than XADD store, and the value they return. -/
def AtomOp.apply (o : AtomOp) (old : Nat) : Nat × W64 :=
  let w := BitVec.ofNat 64 old
  match o.op with
  | 0 =>
    let r := Pair.add ⟨w.setWidth 32, w.extractLsb' 32 32⟩ (enc32 o.addend)
    (r.1.s.toNat + 2 ^ 32 * r.1.c.toNat, if r.2 then 1 else 0)
  | 2 => ((enc32 (XF.min2 (dec32 (w.setWidth 32)) (dec32 (o.v1.setWidth 32)))).toNat, w)
  | 3 => ((enc32 (XF.max2 (dec32 (w.setWidth 32)) (dec32 (o.v1.setWidth 32)))).toNat, w)
  | 4 => ((if o.v1.toInt < w.toInt then o.v1 else w).toNat, w)
  | 5 => ((if w.toInt < o.v1.toInt then o.v1 else w).toNat, w)
  | 6 => (o.v1.toNat, w)
  | _ => ((if w = o.v1 then o.v2 else w).toNat, w)

namespace State

/-! ## Units and window slots (R304, R309) -/

/-- The unit that serves a local address: XA units 0 to 11 (R292), the deck atomic unit of core c as 12 + c. -/
def atomUnit (a : Nat) : Nat := match place a with | .deck c _ => 12 + c | _ => a / 256 % 12

def xunit (s : State) (u : Nat) : XUnit := SMap.getD s.xunits u XUnit.empty
def setXunit (s : State) (u : Nat) (x : XUnit) : State := { s with xunits := SMap.setD s.xunits u XUnit.empty x }

def slotCount (u : Nat) : Nat := if u < 12 then 64 else 8

/-- The units a region takes slots in. -/
def regionUnits (base : Nat) : List Nat := match place base with | .deck c _ => [12 + c] | _ => List.range 12

/-- The open region an address lies in, by its key. -/
def regionAt (s : State) (a : Nat) : Option (Nat × Region) :=
  s.regions.find? fun r => decide (r.2.base ≤ a) && decide (a < r.2.base + 16 * r.2.count)

/-- The cycle at which a slice that begins now ends: the length in force is the committed one (R43, R309, R318). -/
def sliceEnd (s : State) : Nat := s.now + s.slice * 2400

/-- A region moves into a slot of a unit, for a slice. -/
def enterSlot (x : XUnit) (key due : Nat) : XUnit := { x with slots := x.slots ++ [key], due := SMap.put x.due key due }

/-- Give region `key` a slot of a unit, or queue it there. -/
def takeSlot (s : State) (key u : Nat) : State :=
  let x := s.xunit u
  s.setXunit u (if x.slots.length < slotCount u then enterSlot x key s.sliceEnd else { x with wait := x.wait ++ [key] })

/-- XADDs held for region `key` at unit `u` may go on. -/
def unhold (s : State) (key u : Nat) : State :=
  { s with atoms := s.atoms.map fun (a : Atom) =>
      if a.held && atomUnit a.op.addr = u && ((s.regionAt a.op.addr).map (·.1) == some key) then { a with held := false }
      else a }

/-- The region that has waited longest moves into a free slot of a unit. -/
def fillSlot (s : State) (u : Nat) : State :=
  let x := s.xunit u
  match x.wait with
  | k :: rest => if x.slots.length < slotCount u then (s.setXunit u (enterSlot { x with wait := rest } k s.sliceEnd)).unhold k u else s
  | [] => s

def freeSlots (s : State) (key : Nat) : State :=
  (regionUnits key).foldl (fun (s : State) u =>
    let x := s.xunit u
    (s.setXunit u { x with slots := x.slots.filter (· != key), wait := x.wait.filter (· != key), due := SMap.del x.due key }).fillSlot u) s

/-- Is a region's window in at a unit? -/
def windowIn (s : State) (key u : Nat) : Bool := (s.xunit u).slots.contains key

/-! ## Applying an atomic (R302, R303, R307) -/

/-- Unpoisoned bytes stored wherever the address is served. -/
def putAt (s : State) (a : Nat) (bs : List Byte) : State :=
  match s.site a bs.length with
  | .saved h c => s.modSaved h c fun v => { v with mem := v.mem.map fun m => m.store a bs }
  | _ => s.store a bs

def countOp (s : State) (u : Nat) : State :=
  let x := s.xunit u
  s.setXunit u { x with ops := x.ops + 1 }

/-- Add an exact addend to element `ix` of an open region (R307): bit 0 of the returned value, and the state after. -/
def addElem (s : State) (key : Nat) (r : Region) (ix : Nat) (x : XF) : W64 × State :=
  let a := r.base + 16 * ix
  let old := leNat ((s.readPiece a 16).2.map (·.1))
  let acc := (SMap.getD r.elems ix (XwAcc.open (Xw.dec old))).add r.eb x
  let s := (s.putAt a (le 16 (Xw.enc acc.result))).putAt (r.shadow + 8 * ix) (le 8 acc.shadow.toNat)
  (if acc.finite && acc.exceeded then 1 else 0,
   { s with regions := SMap.put s.regions key { r with elems := SMap.put r.elems ix acc, adds := r.adds + 1 } })

/-- Does a region take an XADD with number `uid`: its window is open, or the XADD reached its unit before the close (R308)? -/
def regionTakes (r : Region) (uid : Nat) : Bool := r.phase == 2 || (r.phase == 4 && decide (uid < r.closeAt))

/-- Apply an atomic with number `uid` at its unit: status and returned value; `judged` says that the frozen ranges were judged when it
arrived (R353). [DEDUCED, log 68] -/
def applyAtom (s : State) (o : AtomOp) (uid : Nat := s.fresh) (judged : Bool := false) : Nat × W64 × State :=
  let n := atomBytes o.op
  let spad := match place o.addr with | .spad c k => s.inMap c && decide (k + n ≤ spillLo) | _ => false
  if spad || o.addr % n != 0 then (St.badField, 0, s) else
  let (e, bs) := s.readPiece o.addr n
  if e != St.ok then (e, 0, s.countAccess o.addr e)
  else if !judged && s.inFrozen o.addr n then (St.notAuthorised, 0, s)
  else
    let old := leNat (bs.map (·.1))
    if o.op = 1 then
      match s.regionAt o.addr with
      | some (key, r) =>
        if !regionTakes r uid then (St.badState, 0, s)
        else if bs.any (·.2) then (St.poisoned, 0, s)
        else
          let (v, s) := s.addElem key r ((o.addr - r.base) / 16) o.addend
          (St.ok, v, s.countOp (atomUnit o.addr))
      | none => (St.badState, 0, s)
    else if s.inRegion o.addr n then (St.badState, 0, s)
    else if bs.any (·.2) then (St.poisoned, 0, s)
    else
      let (v, ret) := o.apply old
      (St.ok, ret, (s.putAt o.addr (le n v)).countOp (atomUnit o.addr))

/-! ## Completion -/

/-- A scalar register that an outstanding instruction was to write is written, wherever the program's state lies. -/
def writePend (s : State) (h c uid reg : Nat) (v : W64) : State :=
  s.modProgCtx h c fun x =>
    if x.pend.any (fun p => p.2 == uid) then { selSet x reg v with pend := x.pend.filter fun p => p.2 != uid } else x

/-- Send a response (R348, R356): it takes the entry of the requester's number. [DEDUCED, log 93] -/
def respondPkt (s : State) (op : Nat) (src tag vl status : Nat) (bs : List (Byte × Bool)) (frozen : Bool := false) :
    State :=
  let s : State := if status = St.ok then s else { s with fab := { s.fab with refused := s.fab.refused + 1 } }
  match s.pickLink src (tag + src) with
  | none => s
  | some l =>
    s.sendPacket l vl { pktBlank with
      op := BitVec.ofNat 8 op, flags := if frozen then 3 else 1, src := BitVec.ofNat 16 s.fab.devnum,
      dst := BitVec.ofNat 16 src, tag := BitVec.ofNat 16 tag, len := bs.length, status := BitVec.ofNat 16 status,
      poison := poisNibble bs, data := bs.map (·.1) }

/-- An element of a REDADD has been applied: its status, and whether its addition overflowed. -/
def elemDone (s : State) (st status : Nat) (ovr : Bool) : State :=
  match s.stream? st with
  | some x =>
    match x.run with
    | some r =>
      s.setStream st { x with run := some { r with
        wait := r.wait - 1, status := if r.status = St.ok then status else r.status,
        value := if ovr then r.value + 1 else r.value } }
    | none => s
  | none => s

/-- The status a target on this device reports for an address R25 refuses. [DEDUCED, log 63] -/
def outside (e : Nat) : Nat := if e = St.unmapped then St.notAuthorised else e

/-- An atomic has been applied: its source hears of it. -/
def atomDone (s : State) (a : Atom) (status : Nat) (v : W64) : State :=
  match a.src with
  | .core c h pc f dst =>
    if status = St.ok then (match dst with | some r => s.writePend h c a.uid r v | none => s)
    else s.progFault c h pc f (accessFault 5 (s.fab.devnum * 2 ^ 48 + a.op.addr) status)
  | .fabric _ src tag vl => s.respondPkt 3 src tag vl (outside status) (if status = St.ok then (le 8 v.toNat).map fun b => (b, false) else [])
  | .stream st => s.elemDone st (stOf status) (a.op.op == 0 && v == 1)
  | .gone => s

/-- Take atomic `a` out of the queue and apply it. -/
def takeAtom (s : State) (a : Atom) : State :=
  let s : State := { s with atoms := s.atoms.filter fun x => x.uid != a.uid }
  let (e, v, s) := s.applyAtom a.op a.uid (match a.src with | .fabric .. => true | _ => false)
  s.atomDone a e v

/-- Where a local LPDDR5X address lies (R292): its channel number, which is channel `/ 12` of the package of MC `% 12`, and its offset
there. -/
def channelOf (a : Nat) : Nat := a / 256 % 96
def channelOffset (a : Nat) : Nat := a / 256 / 96 * 256 + a % 256

/-- The local address at an offset of a channel. -/
def channelAddr (ch off : Nat) : Nat := (off / 256 * 96 + ch) * 256 + off % 256

/-- Does a recalibration pause hold requests to this address (R295)? -/
def channelPaused (s : State) (a : Nat) : Bool :=
  match place a with | .lp | .fw => (SMap.get? s.paused (channelOf a)).isSome | _ => false

/-- Does an XADD wait because its region's window is switched out at its unit? -/
def windowOut (s : State) (o : AtomOp) : Bool :=
  o.op == 1 && match s.regionAt o.addr with
    | some (k, r) => (r.phase == 2 || r.phase == 4) && !s.windowIn k (atomUnit o.addr)
    | none => false

/-- Do two atomics meet at one 16-byte block? -/
def sameTarget (a b : AtomOp) : Bool := a.addr / 16 == b.addr / 16

/-- May a newly arrived operation be applied before everything that is queued at its unit? [DEDUCED, log 64] -/
def unitFree (s : State) (o : AtomOp) : Bool :=
  !s.channelPaused o.addr && !s.windowOut o &&
  s.atoms.all fun b => atomUnit b.op.addr != atomUnit o.addr

/-- ATOMIC_APPLY: the `ix`-th queued atomic is applied when its unit has reached it, or enters the hold queue (R309).
[DESIGN CHOICE, log 172] -/
def atomicApply (s : State) (ix : Nat) : State :=
  match s.atoms[ix]? with
  | none => s
  | some a =>
    let u := atomUnit a.op.addr
    let before := s.atoms.take ix
    if a.held || s.channelPaused a.op.addr ||
        before.any (fun b => atomUnit b.op.addr == u &&
          (sameTarget a.op b.op || !(b.held || s.channelPaused b.op.addr))) then s
    else if s.windowOut a.op then
      if 256 ≤ (s.atoms.filter fun b => b.held && atomUnit b.op.addr == u).length then s
      else { s with atoms := s.atoms.set ix { a with held := true } }
    else s.takeAtom a

/-! ## Opening and closing a region (R305 to R308) -/

/-- Do two ranges of elements lie in one area that may hold a region? -/
def regionArea (s : State) (a n b m : Nat) : Bool :=
  (decide (a + n ≤ lpEnd) && decide (b + m ≤ lpEnd)) ||
  match place a, place b with
  | .deck c o, .deck d p => c == d && s.inMap c && decide (o + n ≤ s.deckOpen) && decide (p + m ≤ s.deckOpen)
  | _, _ => false

/-- The payload position, counted from BASE, of the first rule of R305 that an opening breaks; `none` if it keeps them. -/
def regionBad (s : State) (base shadow count : Nat) (eb : Int) : Option Nat :=
  let n := 16 * count; let m := 8 * count
  if base % 16 != 0 then some 0
  else if shadow % 8 != 0 then some 8
  else if count = 0 || 2 ^ 26 < count then some 0x10
  else if eb < -256 || 127 < eb then some 0x14
  else if !s.regionArea base n shadow m then some 0
  else if meet base n shadow m then some 8
  else if s.inRegion base n then some 0
  else if s.inRegion shadow m then some 8
  else none

end State

/-- The bytes of `lo ≤ a < hi` become zero; a granule covered only in part keeps its poison (R299). -/
def Memory.zero (m : Memory) (lo hi : Nat) : Memory :=
  let g := Memory.granBase hi
  let k := m.cut lo hi
  if hi % Memory.granSize hi = 0 then k else k.mark g (m.granPois g)

namespace State

/-- Zero bytes wherever the range is served. -/
def zeroAt (s : State) (a n : Nat) : State :=
  match s.site a n with
  | .saved h c => s.modSaved h c fun v => { v with mem := v.mem.map fun m => m.zero a (a + n) }
  | _ => { s with mem := s.mem.zero a (a + n) }

/-- An opening begins. -/
def beginOpen (s : State) (base shadow count : Nat) (eb : Int) : State :=
  { s with regions := SMap.put s.regions base ⟨base, shadow, count, eb, 1, 0, [], 0⟩ }

/-- Memory shows each element of a region as a close would leave it: the VALUE of one that is not finite is zero (R114, R115). -/
def shownElems (s : State) (r : Region) : State :=
  iterate r.count s fun i (s : State) =>
    let old := leNat ((s.readPiece (r.base + 16 * i) 16).2.map (·.1))
    let new := Xw.enc (Xw.dec old)
    if new = old then s else s.putAt (r.base + 16 * i) (le 16 new)

/-- An opening completes: shadow words zero, slots taken or queued. -/
def finishOpen (s : State) (key : Nat) : State :=
  match SMap.get? s.regions key with
  | some r =>
    let s := (s.zeroAt r.shadow (8 * r.count)).shownElems r
    let s : State := { s with regions := SMap.put s.regions key { r with phase := 2 } }
    (regionUnits key).foldl (fun (s : State) u => s.takeSlot key u) s
  | none => s

/-- The same, refused where the shadow area lies in a frozen range (R363); the status. [DEDUCED, log 158] -/
def openRegion (s : State) (key : Nat) : Nat × State :=
  match SMap.get? s.regions key with
  | some r =>
    if s.inFrozen r.shadow (8 * r.count) then (St.notAuthorised, { s with regions := SMap.del s.regions key })
    else (St.ok, s.finishOpen key)
  | none => (St.ok, s)

/-- Every XADD that has reached a unit of the region before its close (R308). [DEDUCED, log 69] -/
def drainRegion (s : State) (r : Region) : State :=
  (s.atoms.filter fun a => a.op.op == 1 && a.uid < r.closeAt && r.base ≤ a.op.addr && a.op.addr < r.base + 16 * r.count).foldl
    (fun (s : State) a => s.takeAtom a) s

def setPhase (s : State) (key p : Nat) : State :=
  match SMap.get? s.regions key with
  | some r => { s with regions := SMap.put s.regions key { r with phase := p } }
  | none => s

/-- A close of an open region begins: what reaches its units from now on comes too late (R308). [DEDUCED, log 69] -/
def beginClose (s : State) (key : Nat) : State :=
  match SMap.get? s.regions key with
  | some r => if r.phase = 2 then { s with regions := SMap.put s.regions key { r with phase := 4, closeAt := s.fresh } } else s
  | none => s

/-- Close a region: status and VALUE (R308, R321). [DEDUCED, log 69] -/
def closeRegion (s : State) (key : Nat) : Nat × Nat × State :=
  let s := s.beginClose key
  match SMap.get? s.regions key with
  | none => (St.badField, 0, s)
  | some r =>
    let s := s.drainRegion r
    let r := (SMap.get? s.regions key).getD r
    let s := s.shownElems r
    let s : State := { s with regions := SMap.del s.regions key }
    let s := s.freeSlots key
    match r.elems.find? fun e => e.2.finite && e.2.exceeded with
    | some e => (St.windowExceeded, e.1, s)
    | none => (St.ok, allOnes64, s)

/-- WINDOW_SLOT_SWITCH: the slice of the region longest in a slot ends at a unit where regions wait (R41, R309). -/
def slotSwitch (s : State) (u : Nat) : State :=
  let x := s.xunit u
  match x.slots, x.wait with
  | out :: rest, inn :: more =>
    if s.now < SMap.getD x.due out 0 then s else
    (s.setXunit u (enterSlot { x with slots := rest, wait := more ++ [out], due := SMap.del x.due out } inn s.sliceEnd)).unhold inn u
  | _, _ => s

/-! ## The memory controllers (R291, R295, R299) -/

/-- The protection block of segment `seg` of a channel (R293): for each of its fifteen data blocks three check bytes and the metadata byte,
which holds the poison mark, and the CRC of these. It says nothing that the data and the marks do not, so it is computed from them.
[DESIGN CHOICE, log 172] -/
def protection (s : State) (ch seg : Nat) : List Byte :=
  let b := (List.range 15).flatMap fun j =>
    let a := channelAddr ch ((15 * seg + j) * 64)
    let meta' : List Byte := le 1 (if s.mem.granPois a then 1 else 0)
    le 3 (Config.rsCheck (s.read a 64 ++ meta')).toNat ++ meta'
  b ++ le 4 (crc32 b)

def mc (s : State) (k : Nat) : Mc := SMap.getD s.mcs k Mc.reset
def setMc (s : State) (k : Nat) (x : Mc) : State := { s with mcs := SMap.setD s.mcs k Mc.reset x }

/-- A channel pauses unless another of its controller does. [DESIGN CHOICE, log 172] -/
def recalPause (s : State) (ch : Nat) : State :=
  if 96 ≤ ch || s.paused.any (fun p => p.1 % 12 == ch % 12) then s
  else { s with paused := SMap.put s.paused ch s.now }

/-- A pause ends, after 2 µs at most; the longest is kept in units of 10 ns (R295). [DESIGN CHOICE, log 172] -/
def recalEnd (s : State) (ch : Nat) : State :=
  match SMap.get? s.paused ch with
  | none => s
  | some t =>
    let x := s.mc (ch % 12)
    let n := min ((s.now - t) / 24) 200
    ({ s with paused := SMap.del s.paused ch }).setMc (ch % 12)
      (if x.longest.toNat < n then { x with longest := BitVec.ofNat 16 (min n 65535) } else x)

/-- The scrubber's find at a word or block (R291, R299): corrected, or poisoned and logged once per granule.
[DESIGN CHOICE, log 172, 189] -/
def scrub (s : State) (a err : Nat) : State :=
  let lp := a < fwEnd
  let k := a / 256 % 12
  let src := if lp then k else 0x60
  let stored := match place a with | .lp | .fw => true | .deck c _ | .spad c _ => s.inMap c | _ => false
  if !stored then s
  else if err = 1 then
    let x := s.mc k
    let s := if lp then s.setMc k { x with ce := x.ce + 1 } else s
    s.logErr src 1 (BitVec.ofNat 64 a)
  else if err = 2 then
    let g := Memory.granBase a
    if s.mem.granPois g then s else
    let x := s.mc k
    let s := if lp then s.setMc k { x with ue := x.ue + 1, ueAddr := BitVec.ofNat 64 g } else s
    { s with mem := s.mem.mark g true }.logErr src 2 (BitVec.ofNat 64 g) St.poisoned
  else s

end State

/-! ## ATOM (R301, R303) -/

def atomEa (f : Frame) : Int := sgn 9 (fld f 54 46)

def State.atomsOut (s : State) (c h : Nat) : Nat :=
  (s.atoms.filter fun a => match a.src with | .core c' h' .. => c' == c && h' == h | _ => false).length +
  ((s.fab.outst.map (·.2.cont) ++ s.fab.waiting.map (·.cont)).filter fun k => match k with
    | .atom c' h' .. => c' == c && h' == h | _ => false).length

def atomBody (i : Ins) (s : State) : IRes :=
  let f := i.f
  let x := s.ctx i.c
  let g := (x.getA (fld f 32 29)).toNat
  let op := fld f 19 16
  let n := atomBytes op
  let dst := if bitOf f 45 then some (fld f 44 41) else none
  let foot := scalarFoot s i.c g n true
  let o : AtomOp := ⟨gloc g, op, fld f 24 23, fld f 28 25, atomEa f, x.getA (fld f 36 33), x.getA (fld f 40 37)⟩
  if !atomFields op o.okind o.ofmt o.ea then .fault s (faultOf 0x26 5)
  else if g % n != 0 then .fault s (faultOf 0x24 5 g)
  else if !gvalid g then .fault s (faultOf 3 5 g)
  else if 64 ≤ s.atomsOut i.c i.h + s.queuedOps i 0x21 || (foot.spans.isEmpty && s.fencedOff i) then .hold
  else s.enterUnit i 50 foot dst.toList <|
    let pend (s : State) (u : Nat) : State := match dst with
      | some r => s.modCtx i.c fun x => { x with pend := x.pend ++ [(r, u)] }
      | none => s
    if gdev g = s.fab.devnum then
      let spad := match place (gloc g) with | .spad c o => s.inMap c && decide (o + n ≤ spillLo) | _ => false
      if spad then .fault s (remoteFault 5 (BitVec.ofNat 64 g) St.badField)
      else if s.site (gloc g) n = .no then .fault s (faultOf 3 5 g)
      else
        let (u, s) := s.uidFor i.n
        .done (pend { s with atoms := s.atoms ++ [⟨u, .core i.c i.h i.pc f dst, o, false⟩] } u)
    else
      let (u, s) := s.uidFor i.n
      let p : Packet := { pktBlank with
        op := 3, dst := BitVec.ofNat 16 (gdev g), addr := BitVec.ofNat 64 g, len := 16,
        aop := BitVec.ofNat 16 (op + o.okind * 16 + o.ofmt * 64), ea := BitVec.ofInt 16 o.ea,
        data := le 8 o.v1.toNat ++ le 8 o.v2.toNat }
      match s.request p 2 (some i.h) (.atom i.c i.h u i.pc f (BitVec.ofNat 64 g) dst) with
      | .error e => .fault s (remoteFault 5 (BitVec.ofNat 64 g) e)
      | .ok s => .done (pend s u)

def runAtom (c : Nat) (f : Frame) (s : State) : State :=
  s.issueCore c f (decodeCheck f 0x21 [(127, 55), (22, 20)] (decide (fld f 19 16 < 8)))
    ([fld f 32 29, fld f 36 33, fld f 40 37] ++ if bitOf f 45 then [fld f 44 41] else []) atomBody

def execAtom (c : Nat) (f : Frame) (s : State) : Host.Outcome State Fault Refusal := .next (s.startOp 0x21 c f (runAtom c f))
def execAtomicApply (ix : Nat) (s : State) : Host.Outcome State Fault Refusal := .next (s.atomicApply ix)
def execWindowSlotSwitch (u : Nat) (s : State) : Host.Outcome State Fault Refusal := .next (s.slotSwitch u)
def execRecalibrationPause (ch : Nat) (_ : Bool) (s : State) : Host.Outcome State Fault Refusal := .next (s.recalPause ch)
def execRecalibrationPauseEnd (ch : Nat) (s : State) : Host.Outcome State Fault Refusal := .next (s.recalEnd ch)
def execPatrolScrub (a err : Nat) (s : State) : Host.Outcome State Fault Refusal := .next (s.scrub a err)

/-! ## Commands (R329, R330) -/

def memBoxes : List Port := [.host, .svc]

def memPartition : Cmd :=
  { op := 0x0300, boxes := memBoxes, len := 4, launch := false, trim := fun _ => false,
    check := fun m => [(0, [0, 2, 4, 8].contains (rd (pay m) 0 1)), zeroAt m 1 3],
    run := fun m s => s.stage m.port (.memPart (rd (pay m) 0 1)) }

def xwOpenCmd : Cmd :=
  { op := 0x0301, boxes := memBoxes, len := 0x20, launch := false, trim := fun _ => false,
    check := fun m => [zeroAt m 0x16 2, (0x18, resultOk (rd (pay m) 0x18 8))],
    run := fun m s =>
      let p := pay m
      let base := rd p 0 8; let shadow := rd p 8 8; let count := rd p 0x10 4; let eb := rdS p 0x14 2
      match s.regionBad base shadow count eb with
      | some off => (.bad off, s)
      | none =>
        if 4096 ≤ s.regions.length then (.refuse St.badState, s) else
        match s.beginLong m 0x0301 (rd p 0x18 8) (.xwOpen base) with
        | some (n, s) => (.accepted n, s.beginOpen base shadow count eb)
        | none => (.refuse St.badState, s) }

def xwCloseCmd : Cmd :=
  { op := 0x0302, boxes := memBoxes, len := 0x10, launch := false, trim := fun _ => false,
    check := fun m => [(8, resultOk (rd (pay m) 8 8))],
    run := fun m s =>
      let base := rd (pay m) 0 8
      match SMap.get? s.regions base with
      | none => (.bad 0, s)
      | some r =>
        if r.phase != 2 then (.refuse St.badState, s) else
        match s.beginLong m 0x0302 (rd (pay m) 8 8) (.xwClose base) with
        | some (n, s) => (.accepted n, s.beginClose base)
        | none => (.refuse St.badState, s) }

/-- STATE of CMD_XW_STATUS. -/
def State.regionState (s : State) (key : Nat) (r : Region) : Nat :=
  if r.phase = 2 && (State.regionUnits key).any (fun u => !s.windowIn key u) then 3 else r.phase

def xwStatusCmd : Cmd :=
  { op := 0x0303, boxes := [.host, .svc, .fm], len := 8, launch := false, trim := fun _ => false, check := fun _ => [],
    run := fun m s =>
      let base := rd (pay m) 0 8
      match SMap.get? s.regions base with
      | none => (.ok (zeros 0x18), s)
      | some r =>
        let held := (s.atoms.filter fun a => a.held && (s.regionAt a.op.addr).map (·.1) == some base).length
        (.ok (le 1 (s.regionState base r) ++ zeros 1 ++ le 2 (BitVec.ofInt 16 r.eb).toNat ++ le 4 r.count ++ le 8 r.adds ++
          le 8 held), s) }

def execCmdMemPartition (m : MbxCmd) (s : State) : Host.Outcome State Fault Refusal := .next (s.issueCmd memPartition m)
def execCmdXwOpen (m : MbxCmd) (s : State) : Host.Outcome State Fault Refusal := .next (s.issueCmd xwOpenCmd m)
def execCmdXwClose (m : MbxCmd) (s : State) : Host.Outcome State Fault Refusal := .next (s.issueCmd xwCloseCmd m)
def execCmdXwStatus (m : MbxCmd) (s : State) : Host.Outcome State Fault Refusal := .next (s.issueCmd xwStatusCmd m)

end Sys2Proof.Machine
end

