-- ==== Sys2Proof/Machine/KvMan.lean ====
section
/-! DEFINITION. Sys2Proof/Machine/KvMan.lean: the KV manager: pools, frames, sequence records, edits, spills (R199 to R214, R235). -/

namespace Sys2Proof.Machine

/-! ## Pools and frames (R199 to R203) -/

/-- Bytes of one key or value row of one head. -/
def KvPool.rowBytes (q : KvPool) : Nat := q.hdim * (q.fmt.bits / 8)
/-- PSZ. -/
def KvPool.psz (q : KvPool) : Nat := 32 * q.heads * q.rowBytes

def noFrame : Nat := 0xC0000000

def KvPool.lease (q : KvPool) (dev : Nat) : Option Lease := q.leases.find? fun l => l.frames != 0 && l.dev == dev

/-- The global address of the frame of an entry; `none` for a bad entry or tier 0b11. -/
def KvPool.frameAddr (q : KvPool) (devnum entry : Nat) : Option Nat :=
  let f := entry % 2 ^ 30
  match entry / 2 ^ 30 with
  | 0 => if f < q.deckFrames then some (devnum * 2 ^ 48 + q.deckBase + f * q.psz) else none
  | 1 => if f < q.lpFrames then some (devnum * 2 ^ 48 + q.lpBase + f * q.psz) else none
  | 2 =>
    match q.lease (f / 2 ^ 17) with
    | some l => if f % 2 ^ 17 < l.frames then some (l.dev * 2 ^ 48 + l.base + f % 2 ^ 17 * q.psz) else none
    | none => none
  | _ => none

/-- Frames in use with entries from `lo` to `hi - 1`. -/
def KvPool.used (q : KvPool) (lo hi : Nat) : Nat := (q.frames.filter fun f => decide (lo ≤ f.1) && decide (f.1 < hi)).length

def KvPool.freeDeck (q : KvPool) : Nat := q.deckFrames - q.used 0 (2 ^ 30)
def KvPool.freeLp (q : KvPool) : Nat := q.lpFrames - q.used (2 ^ 30) (2 ^ 31)
def leaseBase (l : Lease) : Nat := 2 ^ 31 + l.dev * 2 ^ 17
def KvPool.freeLease (q : KvPool) (l : Lease) : Nat := l.frames - q.used (leaseBase l) (leaseBase l + 2 ^ 17)
def KvPool.freeRemote (q : KvPool) : Nat := (q.leases.map q.freeLease).foldl (· + ·) 0

/-- Some free frame among `count` from entry `base` on; which one is open. [DESIGN CHOICE, log 165] -/
def KvPool.pick (q : KvPool) (base count k : Nat) : Option Nat :=
  if count = 0 then none else
  let start := Config.freeNat k % count
  ((List.range (min count (q.used base (base + count) + 1))).find? fun i =>
    (SMap.get? q.frames (base + (start + i) % count)).isNone).map fun i => base + (start + i) % count

def KvPool.pickDeck (q : KvPool) (k : Nat) : Option Nat := q.pick 0 q.deckFrames k
def KvPool.pickLp (q : KvPool) (k : Nat) : Option Nat := q.pick (2 ^ 30) q.lpFrames k
/-- The lowest-numbered lease with a free frame comes first (R214). -/
def KvPool.pickRemote (q : KvPool) (k : Nat) : Option Nat :=
  (q.leases.zipIdx.findSome? fun l => if l.1.frames = 0 then none else q.pick (leaseBase l.1) l.1.frames (k + l.2))
/-- The deck tier first (R206 RESERVE). -/
def KvPool.pickAny (q : KvPool) (k : Nat) : Option Nat :=
  (q.pickDeck k).or ((q.pickLp (k + 1)).or (q.pickRemote (k + 2)))

/-- A later table version. -/
def newer (v w : W32) : Bool := decide (0 < (v - w).toInt)

namespace State

def kvPool (s : State) (n : Nat) : Option KvPool := SMap.get? s.kv.pools n
def setPool (s : State) (n : Nat) (q : KvPool) : State := { s with kv := { s.kv with pools := SMap.put s.kv.pools n q } }
def kvSeq (s : State) (ref : Nat) : Option KvSeq := SMap.get? s.kv.seqs ref
def setSeq (s : State) (ref : Nat) (r : KvSeq) : State := { s with kv := { s.kv with seqs := SMap.put s.kv.seqs ref r } }

/-- Bits [41:10] of the fabric time (R213). -/
def kvTick (s : State) : Nat := s.ftime.toNat / 2 ^ 10 % 2 ^ 32

/-- The KV manager writes entry `p` of a page table (R203). -/
def writeEntry (s : State) (ref p entry : Nat) : State :=
  match s.kvPool (ref / 2 ^ 28) with
  | some q => (s.devWrite (q.tblBase + (ref % 2 ^ 20 * q.maxPages + p) * 4) (le 4 entry)).2
  | none => s

/-- Give page `p` of a sequence an entry, `noFrame` to take it away. -/
def setPage (s : State) (ref p entry : Nat) : State :=
  match s.kvSeq ref with
  | some r =>
    (s.setSeq ref { r with pages := if entry = noFrame then SMap.del r.pages p else SMap.put r.pages p entry }).writeEntry
      ref p entry
  | none => s

/-- Take a frame into use with one reference. -/
def takeFrame (s : State) (pool entry : Nat) : State :=
  match s.kvPool pool with
  | some q => s.setPool pool { q with frames := SMap.put q.frames entry ⟨1, s.kvTick⟩ }
  | none => s

/-- Drop one reference of a frame by an edit that made version `ver` of sequence `ref` (R210, R211). -/
def dropFrame (s : State) (pool entry ref : Nat) (ver : W32) : State :=
  match s.kvPool pool with
  | some q =>
    match SMap.get? q.frames entry with
    | some f =>
      let s := s.setPool pool { q with frames := SMap.put q.frames entry { f with refs := f.refs - 1 } }
      { s with kv := { s.kv with releases := s.kv.releases ++ [⟨pool, entry, ref, ver⟩] } }
    | none => s
  | none => s

/-- Is a walk or a fetch latched on the sequence? -/
def latched (s : State) (ref : Nat) : Bool := s.kv.latches.any fun l => l.seq == ref

/-- Put a record into the edit log when a latched walk needs it; `none` when all sixteen slots are taken (R209). -/
def logEdit (s : State) (ref lo hi : Nat) (ver : W32) (trunc : Bool) : Option State :=
  if !s.latched ref then some s else
  match s.kvSeq ref with
  | none => some s
  | some r =>
    if 16 ≤ r.log.length then none else
    some (s.setSeq ref { r with log := r.log ++
      [⟨lo, hi, r.pages.filter fun p => decide (lo ≤ p.1) && decide (p.1 < hi), r.len, ver, trunc⟩] })

/-! ## Records (R204, R205) -/

def residents (s : State) : Nat := (s.kv.seqs.filter fun r => r.2.resident).length

/-- A record is used: it is brought in when there is room. -/
def useSeq (s : State) (ref : Nat) (r : KvSeq) : Option State :=
  if r.resident || s.residents < 16384 then some (s.setSeq ref { r with resident := true, lastUse := s.now }) else none

/-! ## Copies (R206, R214) -/

/-- The data of a frame, once its fetch is complete: `none` while reads are out. A fetch is begun when there is none. -/
def frameData (s : State) (key : FetchKey) (addr n vl : Nat) : Option (Nat × List (Byte × Bool)) × State :=
  match s.fetch? key with
  | some f =>
    if f.missing = 0 then (some (f.status, f.data 0 n), s.dropFetch key) else (none, s)
  | none =>
    let s := s.fetchNew key [(addr, n)] vl none
    match s.fetch? key with
    | some f => if f.missing = 0 then (some (f.status, f.data 0 n), s.dropFetch key) else (none, s)
    | none => (some (St.ok, []), s)

/-! ## Results of edits (R206, R225, R233) -/

/-- Bytes written to a core of a program, where its state lies. -/
def progStore (s : State) (h c a : Nat) (bs : List Byte) : State :=
  match s.prog h with
  | some p =>
    if p.st == 3 then s.ownStore a bs
    else if p.st == 4 then s.modSaved h c fun v => { v with mem := v.mem.map fun m => m.store a bs }
    else s
  | none => s

/-- An edit completes. -/
def editDone (s : State) (e : Edit) (status : Nat) (ver : W32) (len result : Nat) : State :=
  let bs := le 2 status ++ zeros 2 ++ le 4 ver.toNat ++ le 4 len ++ le 4 result
  let s : State := { s with kv := { s.kv with edits := s.kv.edits.filter fun x => x.uid != e.uid } }
  match e.src with
  | .core c h req flag =>
    ((s.progStore h c (req + 0x10) bs).signal (.core c h 0 0x94) (.here c flag) false 1 []).2
  | .cmd st result =>
    let s := (s.gWrite result (bs.map fun b => (b, false)) 1 none .drop).2.2
    match s.stream? st with
    | some x => s.setStream st { x with last := status, long := some (.kvEdit 0) }
    | none => s
  | .gone req => (s.devWrite (req + 0x10) bs).2

/-- An edit completes with the record as it is now. -/
def editEnd (s : State) (e : Edit) (status ref result : Nat) : State :=
  match s.kvSeq ref with
  | some r => s.editDone e status r.ver r.len result
  | none => s.editDone e status 0 0 result

/-- A request without effect. -/
def editBad (s : State) (e : Edit) : State := s.editEnd e St.badField e.seq 0

/-! ## The edits (R206 to R212) -/

/-- May a released frame return to its free list: no edit-log slot holds it, and no walk that latched an older version remains (R210)? -/
def canRelease (s : State) (pool entry : Nat) : Bool :=
  let mine := s.kv.releases.filter fun r => r.pool == pool && r.entry == entry
  let held := s.kv.seqs.any fun r => r.1 / 2 ^ 28 == pool && r.2.log.any fun l => l.old.any fun o => o.2 == entry
  let walks := mine.any fun r => s.kv.latches.any fun l => l.seq == r.seq && newer r.ver l.ver
  (match (s.kvPool pool).bind fun q => SMap.get? q.frames entry with | some f => f.refs == 0 | none => false) &&
    !mine.isEmpty && !held && !walks

/-- Is a frame of a pool with an entry from `lo` to `hi - 1` on its way to its free list: a spill moves its page, or it may be released?
[DEDUCED, log 34] -/
def comingFree (s : State) (pool lo hi : Nat) : Bool :=
  s.kv.spills.any (fun x => x.pool == pool && decide (lo ≤ x.frm) && decide (x.frm < hi)) ||
  s.kv.releases.any fun r => r.pool == pool && decide (lo ≤ r.entry) && decide (r.entry < hi) && s.canRelease pool r.entry

/-- Has the pool to spill from a tier: below the mark, or on the way to twice the mark? -/
def mustSpill (low : Bool) (free lwm frames : Nat) : Bool :=
  decide (256 * free < lwm * frames) || (low && decide (256 * free < 2 * lwm * frames))

/-- The page to spill next from entries `lo` to `hi - 1`: the oldest tick, then the lowest frame. -/
def spillVictim (s : State) (pool lo hi : Nat) (q : KvPool) : Option Nat :=
  let pend := s.kv.seqs.flatMap fun r => if r.1 / 2 ^ 28 = pool then r.2.pend.map (·.2) else []
  let cands := q.frames.filter fun f => decide (lo ≤ f.1) && decide (f.1 < hi) && f.2.refs != 0 && !pend.contains f.1 &&
    !s.kv.spills.any fun x => x.pool == pool && x.frm == f.1
  (cands.foldl (fun (b : Option (Nat × FrameRec)) f => match b with
    | some x => if f.2.tick < x.2.tick then some f else b
    | none => some f) none).map (·.1)

/-- The lowest free sequence number of a pool. [DESIGN CHOICE, log 165] -/
def freeSeqNo (s : State) (pool maxSeq : Nat) : Option Nat :=
  (List.range (min maxSeq (s.kv.seqs.length + 1))).find? fun n => (s.kvSeq (pool * 2 ^ 28 + n)).isNone

/-- The number a CREATE or FORK makes: `none` for one that is taken, out of range or not to be found. [DEDUCED, log 34] -/
def newSeqNo (s : State) (pool maxSeq arg : Nat) : Except Nat Nat :=
  if arg = 0xFFFFFFFF then (match s.freeSeqNo pool maxSeq with | some n => .ok n | none => .error St.badState)
  else if maxSeq ≤ arg || (s.kvSeq (pool * 2 ^ 28 + arg)).isSome then .error St.badField else .ok arg

/-- A new record, of an open first version. -/
def newSeq (s : State) (ref len : Nat) : State :=
  let v := (Config.freeW64 s.fresh).setWidth 32
  ({ s with fresh := s.fresh + 1 }).setSeq ref ⟨len, [], v, [], [], true, s.now⟩

def doCreate (s : State) (e : Edit) (pool : Nat) (q : KvPool) : Option State :=
  match s.newSeqNo pool q.maxSeq e.arg0 with
  | .error st => some (s.editDone e st 0 0 0)
  | .ok n =>
    if 16384 ≤ s.residents then none else
    let ref := pool * 2 ^ 28 + n
    some ((s.newSeq ref 0).editEnd e St.ok ref n)

def doQuery (s : State) (e : Edit) (r : KvSeq) : Option State := some (s.editEnd e St.ok e.seq (16 * r.pages.length))

/-- Take the frames of pages away: the entries, their pending frames, and one reference each. -/
def dropPages (s : State) (pool ref : Nat) (ps : List (Nat × Nat)) (ver : W32) : State :=
  ps.foldl (fun (s : State) p => (s.setPage ref p.1 noFrame).dropFrame pool p.2 ref ver) s

def doFree (s : State) (e : Edit) (pool : Nat) (r : KvSeq) : Option State :=
  let s := s.dropPages pool e.seq r.pages (r.ver + 1)
  let s := r.pend.foldl (fun (s : State) p => s.dropFrame pool p.2 e.seq (r.ver + 1)) s
  let s : State := { s with kv := { s.kv with seqs := SMap.del s.kv.seqs e.seq } }
  some (s.editDone e St.ok r.ver 0 0)

/-- Give frames to the pages listed, from the deck first. -/
def reservePages (s : State) (pool ref : Nat) (ps : List Nat) : State :=
  ps.foldl (fun (s : State) p =>
    match s.kvPool pool with
    | some q =>
      match q.pickAny s.fresh with
      | some f => (({ s with fresh := s.fresh + 16 }).takeFrame pool f).setPage ref p f
      | none => s
    | none => s) s

def doReserve (s : State) (e : Edit) (pool : Nat) (q : KvPool) (r : KvSeq) : Option State :=
  let top := r.len + e.arg0
  if q.maxPages * 16 < top then some (s.editBad e) else
  let need := (List.range ((top + 15) / 16)).filter fun p => (SMap.get? r.pages p).isNone
  if need.isEmpty then some (s.editEnd e St.ok e.seq 0xFFFFFFFF)
  else if r.log.any (fun l => l.trunc && need.any fun p => decide (l.lo ≤ p) && decide (p < l.hi)) then none
  else if q.freeDeck + q.freeLp + q.freeRemote < need.length then
    if s.comingFree pool 0 (2 ^ 32) then none else some (s.editEnd e St.badState e.seq 0)
  else some ((s.reservePages pool e.seq need).editEnd e St.ok e.seq (need.head?.getD 0))

def doExtend (s : State) (e : Edit) (q : KvPool) (r : KvSeq) : Option State :=
  let len := r.len + e.arg0
  if q.maxPages * 16 < len || 16 * r.pages.length < len then some (s.editBad e) else
  some ((s.setSeq e.seq { r with len := len }).editEnd e St.ok e.seq 0)

def doTruncate (s : State) (e : Edit) (pool : Nat) (r : KvSeq) : Option State :=
  if r.len < e.arg0 then some (s.editBad e) else
  let first := (e.arg0 + 15) / 16
  let gone := r.pages.filter fun p => decide (first ≤ p.1)
  let pend := r.pend.filter fun p => decide (first ≤ p.1)
  let v := r.ver + 1
  let hi := gone.foldl (fun n p => max n (p.1 + 1)) first
  match (if gone.isEmpty && r.len = e.arg0 then some s else s.logEdit e.seq first (max hi ((r.len + 15) / 16)) v true) with
  | none => none
  | some s =>
    let s := s.dropPages pool e.seq gone v
    let s := pend.foldl (fun (s : State) p => s.dropFrame pool p.2 e.seq v) s
    match s.kvSeq e.seq with
    | some r =>
      some ((s.setSeq e.seq { r with len := e.arg0, ver := v, pend := r.pend.filter fun p => decide (p.1 < first) }).editEnd
        e St.ok e.seq 0)
    | none => none

/-- Can a page leave the deck, now or after one has left the local LPDDR5X (R213)? -/
def canSpill (s : State) (pool : Nat) (q : KvPool) : Bool :=
  mustSpill q.lowDeck q.freeDeck q.lwm q.deckFrames && (s.spillVictim pool 0 (2 ^ 30) q).isSome &&
  (q.freeLp != 0 || s.comingFree pool (2 ^ 30) (2 ^ 31) ||
    (mustSpill q.lowLp q.freeLp q.lwm q.lpFrames && (s.spillVictim pool (2 ^ 30) (2 ^ 31) q).isSome && q.freeRemote != 0))

/-- A free deck frame for a copy: `none` while a spill or a release makes one, an error when nothing can (R212).
[DEDUCED, log 34] -/
def deckFrame (s : State) (pool : Nat) (q : KvPool) : Option (Except Unit Nat) :=
  match q.pickDeck s.fresh with
  | some f => some (.ok f)
  | none => if s.canSpill pool q || s.comingFree pool 0 (2 ^ 30) then none else some (.error ())

/-- Copy page `p` of a sequence into a new deck frame and go on with it. [DEDUCED, log 34] -/
def copyPage (s : State) (e : Edit) (pool : Nat) (q : KvPool) (entry : Nat) (k : State → Nat → Option State) : Option State :=
  match s.deckFrame pool q with
  | none => none
  | some (.error _) => some (s.editEnd e St.badState e.seq 0)
  | some (.ok f) =>
    match q.frameAddr s.fab.devnum entry with
    | none => some (s.editEnd e St.badState e.seq 0)
    | some a =>
      match s.frameData (.edit e.uid) a q.psz 1 with
      | (none, s) => some s
      | (some (st, bs), s) =>
        if st != St.ok then some (s.editEnd e St.badState e.seq 0) else
        let s := ({ s with fresh := s.fresh + 1 }).takeFrame pool f
        k (s.extWrite (q.deckBase + f * q.psz) bs).2 f

def inPages (r : KvSeq) (p : Nat) : Bool := decide (p < (r.len + 15) / 16)

/-- [DEDUCED, log 34] -/
def doStage (s : State) (e : Edit) (pool : Nat) (q : KvPool) (r : KvSeq) : Option State :=
  match SMap.get? r.pages e.arg0 with
  | none => some (s.editBad e)
  | some old =>
    if !inPages r e.arg0 then some (s.editBad e) else
    s.copyPage e pool q old fun s f =>
      let s := match SMap.get? r.pend e.arg0 with | some g => s.dropFrame pool g e.seq r.ver | none => s
      some ((s.setSeq e.seq { r with pend := SMap.put r.pend e.arg0 f }).editEnd e St.ok e.seq f)

/-- Replace the entry of a page, as an edit of a new version. -/
def replaceEntry (s : State) (pool ref p f : Nat) : Option State :=
  match s.kvSeq ref with
  | none => some s
  | some r =>
    let v := r.ver + 1
    match s.logEdit ref p (p + 1) v false with
    | none => none
    | some s =>
      let s := match SMap.get? r.pages p with | some old => s.dropFrame pool old ref v | none => s
      let s := s.setPage ref p f
      match s.kvSeq ref with
      | some r => some (s.setSeq ref { r with ver := v })
      | none => some s

/-- An edit gives a page this frame: its last-access tick (R213). -/
def stampFrame (s : State) (pool entry : Nat) : State :=
  match s.kvPool pool with
  | some q => match SMap.get? q.frames entry with
    | some f => s.setPool pool { q with frames := SMap.put q.frames entry { f with tick := s.kvTick } }
    | none => s
  | none => s

def doInstall (s : State) (e : Edit) (pool : Nat) (r : KvSeq) : Option State :=
  match SMap.get? r.pend e.arg0 with
  | none => some (s.editBad e)
  | some f =>
    match s.replaceEntry pool e.seq e.arg0 f with
    | none => none
    | some s =>
      let s := s.stampFrame pool f
      match s.kvSeq e.seq with
      | some r => some ((s.setSeq e.seq { r with pend := SMap.del r.pend e.arg0 }).editEnd e St.ok e.seq f)
      | none => none

def doPromote (s : State) (e : Edit) (pool : Nat) (q : KvPool) (r : KvSeq) : Option State :=
  match SMap.get? r.pages e.arg0 with
  | none => some (s.editBad e)
  | some old =>
    if !inPages r e.arg0 then some (s.editBad e)
    else if old < 2 ^ 30 then some (s.editEnd e St.ok e.seq old)
    else if s.latched e.seq && 16 ≤ r.log.length then none
    else s.copyPage e pool q old fun s f =>
      match s.replaceEntry pool e.seq e.arg0 f with
      | none => none
      | some s => some (s.editEnd e St.ok e.seq f)

/-- Share a page of the parent with the child. -/
def sharePage (s : State) (pool child p entry : Nat) : State :=
  match s.kvPool pool with
  | some q =>
    match SMap.get? q.frames entry with
    | some f => (s.setPool pool { q with frames := SMap.put q.frames entry ⟨f.refs + 1, s.kvTick⟩ }).setPage child p entry
    | none => s.setPage child p entry
  | none => s

def doFork (s : State) (e : Edit) (pool : Nat) (q : KvPool) (r : KvSeq) : Option State :=
  match s.newSeqNo pool q.maxSeq e.arg0 with
  | .error st => some (s.editEnd e st e.seq 0)
  | .ok n =>
    if 16384 ≤ s.residents then none else
    let child := pool * 2 ^ 28 + n
    let full := r.pages.filter fun p => decide (p.1 < r.len / 16)
    let make (s : State) : State := full.foldl (fun (s : State) p => s.sharePage pool child p.1 p.2) (s.newSeq child r.len)
    match (if r.len % 16 = 0 then none else SMap.get? r.pages (r.len / 16)) with
    | none => some ((make s).editEnd e St.ok e.seq n)
    | some last =>
      s.copyPage e pool q last fun s f => some (((make s).setPage child (r.len / 16) f).editEnd e St.ok e.seq n)

/-- The sequences of a pool whose page tables name an entry, with the page. -/
def sharers (s : State) (pool entry : Nat) : List (Nat × Nat) :=
  s.kv.seqs.flatMap fun r =>
    if r.1 / 2 ^ 28 = pool then (r.2.pages.filter fun p => p.2 == entry).map fun p => (r.1, p.1) else []

/-- Edits whose earlier writes have all completed arrive, and take their places in the order of arrival (R208). -/
def arriveEdits (s : State) : State :=
  (s.kv.edits.filter fun e => e.arr == 0 && !e.after.any s.alive).foldl (fun (s : State) e =>
    let (u, s) := s.uid
    { s with kv := { s.kv with edits := s.kv.edits.map fun x => if x.uid = e.uid then { x with arr := u + 1 } else x } }) s

/-- Has the edit arrived, and nothing of its sequence that arrived before it waits: an edit, or a spill's (R208, R209)? Edits of one core
keep their order. -/
def editReady (s : State) (e : Edit) : Bool :=
  s.tru.handAt.isNone && e.arr != 0 &&
  !(s.kv.edits.any fun x => x.seq == e.seq && x.uid != e.uid && ((x.arr != 0 && decide (x.arr < e.arr)) ||
    (decide (x.uid < e.uid) && match x.src, e.src with | .core c h _ _, .core c' h' _ _ => c == c' && h == h' | _, _ => false))) &&
  !s.kv.spills.any fun y => y.held != 0 && decide (y.held < e.arr) && (s.sharers y.pool y.frm).any fun r => r.1 == e.seq

/-- Apply an edit, or leave it waiting. -/
def applyEdit (s : State) (e : Edit) : State :=
  if !s.editReady e then s else
  let pool := e.seq / 2 ^ 28
  let wait (r : Option State) : State := r.getD s
  if e.bad || 9 < e.op || nfld e.seq 27 20 != 0 then s.editDone e St.badField 0 0 0 else
  match s.kvPool pool with
  | none => s.editDone e St.badField 0 0 0
  | some q =>
    if q.phase != 2 then s.editDone e St.badState 0 0 0
    else if e.op = 1 then wait (s.doCreate e pool q)
    else
      match s.kvSeq e.seq with
      | none => s.editDone e St.badField 0 0 0
      | some r =>
        match s.useSeq e.seq r with
        | none => s
        | some s' =>
          let r := { r with resident := true, lastUse := s.now }
          let res : Option State := match e.op with
            | 0 => if e.arg0 = 0 then s'.doQuery e r else some (s'.editBad e)
            | 2 => if e.arg0 = 0 then s'.doFree e pool r else some (s'.editBad e)
            | 3 => s'.doReserve e pool q r
            | 4 => s'.doExtend e q r
            | 5 => s'.doTruncate e pool r
            | 6 => s'.doStage e pool q r
            | 7 => s'.doInstall e pool r
            | 8 => s'.doPromote e pool q r
            | _ => s'.doFork e pool q r
          res.getD s'

/-- The row of an operation: the `ix`-th edit, when it is of that operation. [DESIGN CHOICE, log 2] -/
def editRow (s : State) (op ix : Nat) : State :=
  let s := s.arriveEdits
  match s.kv.edits[ix]? with
  | some e => if e.op = op then s.applyEdit e else s
  | none => s

/-! ## Spills (R213, R214) -/

/-- Begin the copy of a page to the next tier. [DEDUCED, log 35] -/
def beginSpill (s : State) (pool frm dst : Nat) (q : KvPool) : State :=
  match q.frameAddr s.fab.devnum frm, q.frameAddr s.fab.devnum dst with
  | some a, some b =>
    let key := FetchKey.spill pool frm
    let s := s.setPool pool { q with frames := SMap.put q.frames dst ⟨0, s.kvTick⟩ }
    let (st, bs) := s.extRead (gloc a) q.psz
    let (e, n, s) := ({ s with fresh := s.fresh + 16 }).gWrite b bs 4 none (.fetch key 0)
    let s := s.setFetch ⟨key, [], [], n, if st = St.ok then stOf e else stOf st⟩
    { s with kv := { s.kv with spills := s.kv.spills ++ [⟨pool, frm, dst, 0⟩] } }
  | _, _ => s

/-- KV_PAGE_SPILL. -/
def kvSpill (s : State) (pool : Nat) : State :=
  match s.kvPool pool with
  | none => s
  | some q =>
    if q.phase != 2 then s else
    let goingD := (s.kv.spills.filter fun x => x.pool == pool && decide (x.frm < 2 ^ 30)).length
    let goingL := (s.kv.spills.filter fun x => x.pool == pool && decide (2 ^ 30 ≤ x.frm)).length
    let d := mustSpill q.lowDeck (q.freeDeck + goingD) q.lwm q.deckFrames
    let l := mustSpill q.lowLp (q.freeLp + goingL) q.lwm q.lpFrames
    let q := { q with lowDeck := d, lowLp := l }
    let s := s.setPool pool q
    match (if d then s.spillVictim pool 0 (2 ^ 30) q else none), q.pickLp s.fresh with
    | some f, some t => s.beginSpill pool f t q
    | _, _ =>
      match (if l then s.spillVictim pool (2 ^ 30) (2 ^ 31) q else none), q.pickRemote s.fresh with
      | some f, some t => s.beginSpill pool f t q
      | _, _ => s

/-- Does an edit that waits for a log slot of a sharing sequence come before a held install (R209)? [DEDUCED, log 35] -/
def spillBehind (s : State) (x : Spill) : Bool :=
  x.held != 0 && s.kv.edits.any fun e => (e.op == 5 || e.op == 7) && e.arr != 0 && decide (e.arr < x.held) &&
    (s.sharers x.pool x.frm).any fun r => r.1 == e.seq

/-- A spill's install that has to wait takes its place in the order of arrival. [DEDUCED, log 35] -/
def holdSpill (s : State) (x : Spill) : State :=
  if x.held != 0 then s else
  let (u, s) := s.uid
  { s with kv := { s.kv with spills := s.kv.spills.map fun y => if y == x then { y with held := u + 1 } else y } }

/-- Install a spilled page in every sequence that shares it; `none` while an edit log has no slot. -/
def installSpill (s : State) (x : Spill) : Option State :=
  if s.spillBehind x then none else
  (s.sharers x.pool x.frm).foldl (fun (a : Option State) r => match a with
    | some s => s.replaceEntry x.pool r.1 r.2 x.dst
    | none => none) (some s)

/-- SPILL_COPY_DONE. -/
def spillDone (s : State) (ix : Nat) (ok : Bool) : State :=
  match s.kv.spills[ix]? with
  | none => s
  | some x =>
    let key := FetchKey.spill x.pool x.frm
    match s.fetch? key, s.kvPool x.pool with
    | some f, some q =>
      if f.missing != 0 then s else
      let off (s : State) : State :=
        { s with kv := { s.kv with spills := s.kv.spills.filter fun y => !(y == x) } }
      let n := (s.sharers x.pool x.frm).length
      if ok && f.status = St.ok && n != 0 then
        match s.installSpill x with
        | none => s.holdSpill x
        | some s =>
          let s := off (s.dropFetch key)
          match s.kvPool x.pool with
          | some q => s.setPool x.pool { q with
              frames := SMap.put q.frames x.dst ⟨n, (SMap.getD q.frames x.frm ⟨0, 0⟩).tick⟩
              spillDeck := if x.frm < 2 ^ 30 then q.spillDeck + 1 else q.spillDeck
              spillLp := if x.frm < 2 ^ 30 then q.spillLp else q.spillLp + 1 }
          | none => s
      else
        let s := off ((s.dropFetch key).setPool x.pool { q with frames := SMap.del q.frames x.dst })
        if ok && f.status = St.ok then s
        else s.logErr 0x90 0xE (BitVec.ofNat 64 ((q.frameAddr 0 x.frm).getD 0)) f.status
    | _, _ => s

/-! ## Records, log slots and frames -/

/-- Is an entry of a core's attention instruction set aside for its record? -/
def setAside (x : Ctx) : Bool := match x.attn with | some a => a.walks.any fun w => w.phase == 1 | none => false

/-- RECORD_EVICTION (R205): only when a request waits for a record and the room is full. -/
def evictRecord (s : State) (ref : Nat) : State :=
  match s.kvSeq ref, s.kvPool (ref / 2 ^ 28) with
  | some r, some q =>
    let onCore := s.kv.latches.any fun l => l.seq == ref && match l.holder with
      | .walk u _ => s.cores.any fun k => k.2.st == 1 && (match k.2.ctx.attn with | some a => a.uid == u | none => false)
      | .stream _ => false
    let waits := s.kv.edits.any (fun e => e.op == 1 || e.op == 9 || (match s.kvSeq e.seq with | some x => !x.resident | none => false)) ||
      s.cores.any (fun k => setAside k.2.ctx) || s.progs.any (fun p => p.2.st == 4 && p.2.saved.any fun v => setAside v.2.ctx) ||
      s.streams.any fun x => match x.2.run with
        | some r => rd r.desc 0 1 == 5 && !r.fin && !(s.kv.latches.any fun l => l.holder == LatchBy.stream x.1)
        | none => false
    let oldest := s.kv.seqs.all fun x => !x.2.resident || decide (r.lastUse ≤ x.2.lastUse)
    if r.resident && 16384 ≤ s.residents && waits && !onCore && oldest && r.lastUse + q.idleUs * 2400 ≤ s.now then
      s.setSeq ref { r with resident := false }
    else s
  | _, _ => s

/-- EDIT_LOG_SLOT_FREE (R209): slots no latched walk can need any more. -/
def freeLogSlots (s : State) (ref : Nat) : State :=
  match s.kvSeq ref with
  | some r => s.setSeq ref { r with log := r.log.filter fun l => s.kv.latches.any fun k => k.seq == ref && newer l.ver k.ver }
  | none => s

/-- FRAME_RELEASE (R210, R211). -/
def releaseFrame (s : State) (pool entry : Nat) : State :=
  match s.kvPool pool with
  | none => s
  | some q =>
    if s.canRelease pool entry then
      let s := s.setPool pool { q with frames := SMap.del q.frames entry }
      { s with kv := { s.kv with releases := s.kv.releases.filter fun r => !(r.pool == pool && r.entry == entry) } }
    else s

end State

/-! ### The rows -/

def execQuery (ix : Nat) (s : State) : Host.Outcome State Fault Refusal := .next (s.editRow 0 ix)
def execCreate (ix : Nat) (s : State) : Host.Outcome State Fault Refusal := .next (s.editRow 1 ix)
def execFree (ix : Nat) (s : State) : Host.Outcome State Fault Refusal := .next (s.editRow 2 ix)
def execReserve (ix : Nat) (s : State) : Host.Outcome State Fault Refusal := .next (s.editRow 3 ix)
def execExtend (ix : Nat) (s : State) : Host.Outcome State Fault Refusal := .next (s.editRow 4 ix)
def execTruncate (ix : Nat) (s : State) : Host.Outcome State Fault Refusal := .next (s.editRow 5 ix)
def execStage (ix : Nat) (s : State) : Host.Outcome State Fault Refusal := .next (s.editRow 6 ix)
def execInstall (ix : Nat) (s : State) : Host.Outcome State Fault Refusal := .next (s.editRow 7 ix)
def execPromote (ix : Nat) (s : State) : Host.Outcome State Fault Refusal := .next (s.editRow 8 ix)
def execFork (ix : Nat) (s : State) : Host.Outcome State Fault Refusal := .next (s.editRow 9 ix)
def execKvPageSpill (pool : Nat) (s : State) : Host.Outcome State Fault Refusal := .next (s.kvSpill pool)
def execSpillCopyDone (ix : Nat) (ok : Bool) (s : State) : Host.Outcome State Fault Refusal := .next (s.spillDone ix ok)
def execRecordEviction (seq : Nat) (s : State) : Host.Outcome State Fault Refusal := .next (s.evictRecord seq)
def execEditLogSlotFree (seq : Nat) (s : State) : Host.Outcome State Fault Refusal := .next (s.freeLogSlots seq)
def execFrameRelease (pool : Nat) (entry : W32) (s : State) : Host.Outcome State Fault Refusal :=
  .next (s.releaseFrame pool entry.toNat)

end Sys2Proof.Machine
end

