-- ==== Sys2Proof/Machine/Matrix.lean ====
section
/-! DEFINITION. Sys2Proof/Machine/Matrix.lean: the matrix class (chapter 02): panels, passes, accumulators, the gather window. -/

namespace Sys2Proof.Machine

/-! ## Formats and depths (R45, R46) -/

def Fmt.kc : Fmt → Nat
  | .bf16 | .fp16 => 4 | .mxe2m1 => 16 | _ => 8

def Fmt.kMax (f : Fmt) : Nat := 16 * f.kc

def Fmt.isPanel : Fmt → Bool
  | .fp32 | .uint8 | .xw => false | _ => true

/-- The pairings of R46, panel format first. -/
def pairs (w a : Fmt) : Bool :=
  match w with
  | .bf16 => a == .bf16
  | .fp16 => a == .fp16
  | .e4m3 | .e5m2 => a == .e4m3 || a == .e5m2
  | .mxe4m3 | .mxe5m2 | .mxe3m2 | .mxe2m3 => a == .mxe4m3 || a == .mxe5m2 || a == .mxe3m2 || a == .mxe2m3
  | .mxe2m1 => a == .mxe2m1
  | .mxint8 => a == .mxint8
  | .int8 => a == .int8 || a == .uint8
  | _ => false

/-- Formats an output may be stored in (R73, R122). -/
def Fmt.isOut : Fmt → Bool
  | .fp32 | .bf16 | .fp16 | .e4m3 | .e5m2 => true | _ => false

/-- Cycles of a row group (R49 text, R53): `ceil (kp / kc)`. -/
def slices (f : Fmt) (kp : Nat) : Nat := (kp + f.kc - 1) / f.kc

/-! ## Panel loads (R49 to R51) -/

/-- The length of a panel load. -/
def PanelLoad.dur (l : PanelLoad) : Nat :=
  let c := (l.kp * l.fmt.bits + 255) / 256
  let half := l.trans && (l.fmt == .mxe3m2 || l.fmt == .mxe2m3 || l.fmt == .mxe2m1)
  l.ncol * (if half then 2 * c else c)

/-- Source latency of R51: 12 cycles from the deck slice, 4 from the scratchpad. -/
def srcLat (a : Nat) : Nat := if a < spadBase then 12 else 4

/-- Bit address of the panel element at depth `k` and column `n`. -/
def PanelLoad.elemAddr (l : PanelLoad) (k n : Nat) : Nat :=
  if l.trans then (l.base + k * l.stride) * 8 + n * l.fmt.bits else (l.base + n * l.stride) * 8 + k * l.fmt.bits

/-- Scale byte of the element, for MX formats. -/
def PanelLoad.scaleAddr (l : PanelLoad) (k n : Nat) : Option Nat :=
  if l.fmt.isMx then some (l.sbase + n * 8 + k / 32) else none

/-- Column-major bit addresses of the panel; `none` is a padding lane. -/
def PanelLoad.cells (l : PanelLoad) : List (List (Option Nat × Option Nat)) :=
  (List.range l.ncol).map fun n => (List.range l.kp).map fun k =>
    match l.src with
    | some m => (((m[n * l.kp + k]?).getD none), if l.fmt.isMx then some (l.sbase + n * l.stride + k / 32) else none)
    | none => (some (l.elemAddr k n), l.scaleAddr k n)

/-- Is any byte of the panel or its scales poisoned? -/
def PanelLoad.bad (s : State) (l : PanelLoad) : Bool :=
  l.cells.any fun col => col.any fun p =>
    match p.1 with
    | some a => s.poisAt a l.fmt.bits || (match p.2 with | some b => s.poisoned b 1 | none => false)
    | none => false

/-- Read the panel. -/
def PanelLoad.fill (s : State) (l : PanelLoad) : PanelLoad :=
  { l with data := l.cells.map fun col => col.map fun p => p.1.map fun a => s.elemAt l.fmt a p.2 }

/-! ## Accumulators (R57, R102) -/

def Matrix.pair (m : Matrix) (k : Nat) : Pair :=
  let w := SMap.getD m.acc k 0
  ⟨w.extractLsb' 0 32, w.extractLsb' 32 32⟩

def Matrix.setPair (m : Matrix) (k : Nat) (p : Pair) : Matrix :=
  { m with acc := SMap.setD m.acc k 0 (p.s.setWidth 64 ||| p.c.setWidth 64 <<< 32) }

/-- Key of an engine tile. -/
def tileKey (e bank tile : Nat) : Nat := (e * 4 + bank) * 16 + tile

def Matrix.isInt (m : Matrix) (e bank tile : Nat) : Bool := SMap.getD m.ints (tileKey e bank tile) false
def Matrix.setInt (m : Matrix) (e bank tile : Nat) (b : Bool) : Matrix :=
  { m with ints := SMap.setD m.ints (tileKey e bank tile) false b }
def Matrix.setLive (m : Matrix) (e bank : Nat) (b : Bool) : Matrix :=
  { m with live := if b then m.live ||| BitVec.ofNat 16 (2 ^ (e * 4 + bank))
                   else m.live &&& ~~~(BitVec.ofNat 16 (2 ^ (e * 4 + bank))) }
def Matrix.release (m : Matrix) (bank : Nat) : Matrix := iterate 4 m fun e m => m.setLive e bank false

/-- The products of one slice (R48, R98). -/
def sliceProducts (act pan : List (Option XF)) (i kc : Nat) : List XF :=
  (List.range kc).map fun j =>
    match (act[i * kc + j]?).getD none, (pan[i * kc + j]?).getD none with
    | some a, some b => a.mul b
    | _, _ => .zero false

/-- Accumulate the slices of one row into one output: the pair, and whether the engine overflowed (R100 to R103). -/
def accumulate (isInt : Bool) (p : Pair) (act pan : List (Option XF)) (kc n : Nat) : Pair × Bool :=
  (List.range n).foldl (fun (a : Pair × Bool) i =>
    let x := sliceSum (sliceProducts act pan i kc)
    if isInt then
      let d := x.dy
      let v := sint32 a.1.s + roundInt d.1 d.2
      (⟨BitVec.ofInt 32 v, 0⟩, a.2 || decide (v < -(2 ^ 31)) || decide ((2 : Int) ^ 31 ≤ v))
    else
      let (w, o1) := enc32f x
      let (q, o2) := a.1.add w
      (q, a.2 || o1 || o2)) (p, false)

/-! ## Feeding a slot -/

namespace State

def mx (s : State) (c : Nat) : Matrix := (s.ctx c).mx
def modMx (s : State) (c : Nat) (g : Matrix → Matrix) : State := s.modCtx c fun x => { x with mx := g x.mx }

/-- Does a streamed row read poison? -/
def rowBad (s : State) (f : Fmt) (r : RowSrc) : Bool :=
  r.addrs.any (fun a => match a with | some a => s.poisAt a f.bits | none => false) ||
  r.scales.any (fun a => match a with | some a => s.poisoned a 1 | none => false)

/-- Feed one row: its elements against every column of the panel; columns at and beyond NCOL keep what they hold, also with ACC = 0.
[DESIGN CHOICE, log 180] -/
def feedRow (s : State) (c bank : Nat) (p : PassSpec) (l : PanelLoad) (r : RowSrc) : State :=
  let e := r.row / 4
  let isInt := l.fmt == .int8
  let act := r.addrs.zipIdx.map fun a => a.1.map fun b =>
    s.elemAt p.afmt b (if p.afmt.isMx then (r.scales[a.2 / 32]?).getD none else none)
  l.data.zipIdx.foldl (fun s col => s.modCtx c fun x =>
    let k := accKey e bank r.tile (r.row % 4) col.2
    let p0 := if p.fresh then Pair.zero else x.mx.pair k
    let (q, ov) := accumulate isInt p0 act col.1 l.fmt.kc (slices l.fmt l.kp)
    let x := { x with mx := ((x.mx.setPair k q).setInt e bank r.tile isInt).setLive e bank true }
    if ov then x.sticky (flagEng e) else x) s

/-- Feed slots `from` to `to - 1` of a pass, or find a poisoned row. -/
def feed (s : State) (c bank lo hi : Nat) (p : PassSpec) (l : PanelLoad) : Option State :=
  let rows := ((p.slots.drop lo).take (hi - lo)).flatten
  if rows.any (s.rowBad p.afmt) then none else some (rows.foldl (fun s r => s.feedRow c bank p l r) s)

/-! ## Instructions that work on the accumulators -/

/-- The element an output is stored as: code, flags (R73, R104). -/
def accCode (m : Matrix) (e bank tile row col : Nat) (f : Fmt) : Nat × CvtFlags :=
  let p := m.pair (accKey e bank tile row col)
  if m.isInt e bank tile then (p.s.toNat, CvtFlags.none) else convert f p.value

/-- The rows ACCST writes. -/
def accstOut (count ncol : Nat) (ofmt : Fmt) (base dstr tstr mask : Nat) : List (Nat × Nat) :=
  (List.range count).flatMap fun q => (List.range 16).filterMap fun i =>
    if mask.testBit i then some (base + q * tstr + i * dstr, ncol * ofmt.bytes) else none

/-- ACCST (R73). -/
def doAccst (s : State) (c bank tile count ncol : Nat) (ofmt : Fmt) (base dstr tstr mask : Nat) (rel : Bool) : State :=
  let m := s.mx c
  let s := (List.range count).foldl (fun s q => (List.range 16).foldl (fun s i =>
    if !mask.testBit i then s else
    let cs := (List.range ncol).map fun n => accCode m (i / 4) bank (tile + q) (i % 4) n ofmt
    let fl := cs.foldl (fun b x => b ||| cvtBits x.2 (flagEng (i / 4))) 0
    (s.ownStore (base + q * tstr + i * dstr) (cs.flatMap fun x => le ofmt.bytes x.1)).setFlags c fl) s) s
  if rel then s.modMx c (·.release bank) else s

/-- ACCMV (R74). -/
def doAccmv (s : State) (c bank tile vreg : Nat) (rel : Bool) : State :=
  let m := s.mx c
  let half (h : Nat) : Nat × W32 := (List.range 32).foldl (fun (a : Nat × W32) j =>
    let i := 8 * h + j / 4
    let x := accCode m (i / 4) bank tile (i % 4) (j % 4) .fp32
    (a.1 + x.1 * 2 ^ (32 * j), a.2 ||| cvtBits x.2 (flagEng (i / 4)))) (0, 0)
  let s := s.modCtx c fun x =>
    (((x.setV vreg (BitVec.ofNat 1024 (half 0).1)).setV (vreg + 1) (BitVec.ofNat 1024 (half 1).1)).sticky
      ((half 0).2 ||| (half 1).2))
  if rel then s.modMx c (·.release bank) else s

/-- ACCZ (R57, R75). -/
def doAccz (s : State) (c bank tile count : Nat) : State :=
  s.modMx c fun m =>
    let m := { m with
      acc := ((List.range count).flatMap fun q => tileKeys bank (tile + q)).foldl (fun a k => SMap.del a k) m.acc
      ints := ((List.range count).flatMap fun q => (List.range 4).map fun e => tileKey e bank (tile + q)).foldl
        (fun a k => SMap.del a k) m.ints }
    if tile = 0 && count = 16 then m.release bank else m

/-- The raw image of a bank (R76): engine, tile, output of each 8 bytes. -/
def rawKeys (bank : Nat) : List Nat :=
  (List.range 4).flatMap fun e => (List.range 16).flatMap fun t => (List.range 16).map fun i =>
    accKey e bank t (i / 4) (i % 4)

/-- ACCSV (R76). -/
def doAccsv (s : State) (c bank base : Nat) : State :=
  s.ownStore base ((rawKeys bank).flatMap fun k => le 8 (SMap.getD (s.mx c).acc k 0).toNat)

/-- ACCLD (R76, R103). Whether a tile so loaded holds integers is not said: it is left free. -/
def doAccld (s : State) (c bank base : Nat) : State :=
  let bs := s.read base 8192
  let k := s.fresh
  let s := { s with fresh := k + 64 }
  s.modMx c fun m =>
    let m := (rawKeys bank).zipIdx.foldl (fun m (x : Nat × Nat) =>
      { m with acc := SMap.setD m.acc x.1 0 (BitVec.ofNat 64 (rd bs (8 * x.2) 8)) }) m
    iterate 4 m fun e m => iterate 16 (m.setLive e bank true) fun t m =>
      m.setInt e bank t (Config.freeNat (k + e * 16 + t) % 2 == 1)

/-- The start of CONV (R247): the outputs named, columns 0 to 3. -/
def doConvInit (s : State) (c bank : Nat) (rows : List (Nat × Nat)) (bias : Option Nat) (isInt : Bool) : State :=
  let v (n : Nat) : W32 := match bias with | some a => BitVec.ofNat 32 (leNat (s.read (a + 4 * n) 4)) | none => 0
  s.modMx c fun m =>
    let m := rows.foldl (fun m r => (iterate 4 m fun n m => m.setPair (accKey (r.2 / 4) bank r.1 (r.2 % 4) n) ⟨v n, 0⟩).setInt
      (r.2 / 4) bank r.1 isInt) m
    iterate 4 m fun e m => m.setLive e bank true

/-! ## The gather window (R66 to R69) -/

/-- The mask of armed slots whose flags are set. -/
def gatherMask (x : Ctx) (g : Gather) : Nat :=
  iterate 16 0 fun i n => if g.arm.testBit i && x.flag (g.fbase + i) != 0 then n + 2 ^ i else n

/-- Has the window's timeout elapsed in cycle `n`? -/
def gatherLate (n : Nat) (g : Gather) : Bool :=
  g.tmo != 0 && (match g.since with | some t => decide (t + g.tmo ≤ n) | none => false)

/-- A cycle of a core whose clock runs passes at its gather window: a flag set in the cycle that ends arrived in it, or in the
window's first cycle, and is set before the next (R67, R69). [DEDUCED, log 155] -/
def gatherTick (x : Ctx) (g : Gather) : Gather :=
  let m := gatherMask x g
  { g with since := if g.since.isNone && m != 0 then some (max x.cycles g.opened) else g.since, seen := m }

/-- A new window (R69): flags already set for its slots count, and its first cycle stands for their arrival. -/
def gatherOpen (x : Ctx) (base stride arm fbase tmo : Nat) : Gather :=
  let g : Gather := ⟨base, stride, arm, fbase, tmo, none, x.cycles, 0, none⟩
  let m := gatherMask x g
  { g with since := if m != 0 then some x.cycles else none, seen := m }

/-- Close the window with a mask: write it, clear its flags, open the next window in the next cycle (R67). -/
def gatherClose (s : State) (c dst uid mask : Nat) : State :=
  s.modCtx c fun x =>
    let x := { x.setA dst (BitVec.ofNat 64 mask) with pend := x.pend.filter fun p => p.2 != uid }
    match x.mx.gather with
    | some g =>
      let x := iterate 16 x fun i x => if mask.testBit i then x.setFlag (g.fbase + i) 0 else x
      { x with mx := { x.mx with gather := some { g with since := none, opened := x.cycles + 1, seen := 0, due := none } } }
    | none => x

/-- Is the condition of R67 met, the timeout apart: every armed slot's flag set before this cycle? -/
def gatherFull (g : Gather) : Bool := g.seen == g.arm

end State

/-! ## The tap decoder (R246) -/

/-- Has the CONV with number `u` a decoder that has not finished? -/
def Matrix.decoding (m : Matrix) (u : Nat) : Bool := m.decs.any fun d => d.uid == u

/-- The loads of PLOAD, TLOAD and CONV whose panels no pass has taken (R60, R246). [DEDUCED, log 177] -/
def Matrix.queued (m : Matrix) : List PanelLoad := m.loads.filter fun l => l.frame.toNat % 256 != 0x50

/-- What the tap decoders do up to cycle `n`: a skipped tap takes a cycle, a fed tap none, and its loads enter the panel queue while
it has room; a decoder begins when the one before it has finished (R246). [DEDUCED, log 177] -/
def Matrix.decode : Nat → Nat → Matrix → Matrix
  | 0, _, m => m
  | k + 1, n, m =>
    match m.decs with
    | [] => m
    | d :: rest =>
      match d.held, d.taps with
      | l :: ls, _ =>
        if 4 ≤ m.queued.length then m
        else decode k n { m with loads := m.loads ++ [l],
                                 decs := { d with held := ls, at' := if ls.isEmpty then max d.at' n else d.at' } :: rest }
      | [], [] => if d.at' ≤ n then decode k n { m with decs := rest.map fun e => { e with at' := max e.at' d.at' } } else m
      | [], [] :: t => if d.at' < n then decode k n { m with decs := { d with at' := d.at' + 1, taps := t } :: rest } else m
      | [], (l :: ls) :: t =>
        if d.at' ≤ n then
          decode k n { m with decs := { d with held := (l :: ls).map (fun l => { l with issue := d.at' }), taps := t } :: rest }
        else m

namespace State

/-! ## The matrix queue (R47, R56, R179) -/

def popEntry (s : State) (c : Nat) : State := s.modMx c fun m => { m with queue := m.queue.drop 1, prevEnd := s.cyc c }

/-- A fault of a queued instruction (R83). -/
def entryFault (s : State) (c : Nat) (e : MEntry) (i : FaultInfo) : State := s.fault c e.pc e.frame i

/-- Has an instruction of the matrix queue to wait for an earlier one that is not in it: an attention instruction, an instruction in
another unit's queue, or a panel load (R180, R228, R533)? [DEDUCED, log 17] -/
def matrixWaits (s : State) (c : Nat) (e : MEntry) : Bool :=
  let x := s.ctx c
  s.attAhead c e.uid || (x.uq.any fun q => decide (q.uid < e.uid) && e.foot.meets q.foot) ||
  x.mx.open.any fun l => decide (max l.uid l.owner < e.uid) && e.foot.meets l.foot

/-- Let the instruction at the front of the matrix queue act, if it can; passes act by their own events. -/
def runFront (s : State) (c : Nat) : Bool × State :=
  let x := s.ctx c
  if x.attn.isSome || !s.running c || decide (s.cyc c < x.mx.ready) then (false, s) else
  match x.mx.queue with
  | [] => (false, s)
  | e :: _ =>
    if s.matrixWaits c e then (false, s) else
    match e.kind with
    | .passes _ todo _ => if todo.isEmpty && !x.mx.decoding e.uid then (true, s.popEntry c) else (false, s)
    | .accz b t n => (true, (s.doAccz c b t n).popEntry c)
    | .accst b t n nc f base d ts mask rel =>
      let ints := (List.range n).any fun q => (List.range 4).any fun g => x.mx.isInt g b (t + q)
      if ints && f != .fp32 then (false, s.entryFault c e (faultOf 0x41 1))
      else match s.frozenFault 1 (accstOut n nc f base d ts mask) with
        | some i => (false, s.entryFault c e i)
        | none => (true, (s.doAccst c b t n nc f base d ts mask rel).popEntry c)
    | .accmv b t v rel => (true, (s.doAccmv c b t v rel).popEntry c)
    | .accsv b base =>
      match s.frozenFault 1 [(base, 8192)] with
      | some i => (false, s.entryFault c e i)
      | none => (true, (s.doAccsv c b base).popEntry c)
    | .accld b base =>
      if s.poisoned base 8192 then (false, (s.freeAcc c (rawKeys b)).entryFault c e (faultOf 0x47 1 (s.fab.devnum * 2 ^ 48 + base)))
      else (true, (s.doAccld c b base).popEntry c)
    | .convInit b rows bias isInt =>
      match bias with
      | some a => if s.poisoned a 16 then (false, s.entryFault c e (faultOf 0xA7 1 (s.fab.devnum * 2 ^ 48 + a)))
                  else (true, (s.doConvInit c b rows bias isInt).popEntry c)
      | none => (true, (s.doConvInit c b rows bias isInt).popEntry c)
    | .gwset base st arm fb tmo =>
      (true, (s.modMx c fun m => { m with gather := some (gatherOpen x base st arm fb tmo) }).popEntry c)
    | .gwait dst =>
      match x.mx.gather with
      | none => (true, (s.gatherClose c dst e.uid 0).popEntry c)
      | some g =>
        if gatherFull g then (true, (s.gatherClose c dst e.uid g.seen).popEntry c)
        else if g.due.isNone && gatherLate x.cycles g then
          (false, s.modMx c fun m => { m with gather := some { g with due := some g.seen } })
        else (false, s)

/-- Let the queue act until it waits. -/
def runQueue : Nat → State → Nat → State
  | 0, s, _ => s
  | n + 1, s, c => let (go, s) := s.runFront c; if go then runQueue n s c else s

/-- Let the tap decoders and the queue act until they wait. -/
def runMatrix (n : Nat) (s : State) (c : Nat) : State :=
  if (s.mx c).decs.isEmpty then s.runQueue n c else (s.modMx c (Matrix.decode 32 (s.cyc c))).runQueue n c

/-- The a-registers that MMA and MMAWG read, in the order of their fields. [DEDUCED, log 174] -/
def argsOf (x : Ctx) (f : Frame) : List W64 :=
  let r (hi lo : Nat) : W64 := x.getA (fld f hi lo)
  match opcode f with
  | 0x40 => [r 39 36, r 43 40, r 47 44, r 51 48]
  | 0x50 => [r 51 48, r 55 52, r 59 56, r 63 60, r 67 64, r 71 68, r 75 72]
  | _ => []

/-- Enter an instruction in the matrix queue; it acts at once when nothing is before it. -/
def enqueue (s : State) (i : Ins) (kind : MKind) (foot : Foot) : Nat × State :=
  let (u, s) := s.uid
  let s := s.modMx i.c fun m => { m with queue := m.queue ++ [⟨u, i.f, i.pc, s.cyc i.c, kind, foot, argsOf (s.ctx i.c) i.f⟩] }
  (u, s)

/-- Instructions that hold an entry of the matrix queue: those issued and not started (R179). CONV's preparation is no
instruction of its own. [DEDUCED, log 50] -/
def entries (s : State) (c : Nat) : Nat :=
  ((s.mx c).queue.filter fun e => match e.kind with | .convInit .. => false | _ => true).length -
    if (s.mx c).pass.isSome then 1 else 0

/-- Issue into the matrix queue: while it or the scoreboard is full, the issue waits (R179, R180). -/
def enter (s : State) (i : Ins) (kind : MKind) (foot : Foot) : IRes :=
  if 8 ≤ s.entries i.c || s.boardFull i foot then .hold else
  let (_, s) := s.enqueue i kind foot
  .done (s.runMatrix 10 i.c)

end State

/-! ## The instructions -/

def areg (s : State) (c : Nat) (f : Frame) (hi lo : Nat) : Nat := ((s.ctx c).getA (fld f hi lo)).toNat

/-- Fault or go on. Where one instruction breaks several checks, the first of the list is its cause.
[DESIGN CHOICE, log 182] -/
def orFault (s : State) (l : List (Option FaultInfo)) (k : IRes) : IRes :=
  match firstFault l with | some i => .fault s i | none => k

/-- Aligned to `n` bytes, else fault `cause`. -/
def aligned (n cause unit : Nat) (a : Nat) : Option FaultInfo := need (a % n == 0) cause unit a

/-- The loads of PLOAD and TLOAD whose panels no pass has taken (R60), claimed by a waiting MMA or not.
[DEDUCED, log 175] -/
def State.untaken (s : State) (c : Nat) : List PanelLoad := (s.mx c).loads.filter fun l => l.owner == 0

/-- PLOAD and TLOAD (R60, R61). [DEDUCED, log 177] -/
def ploadBody (trans : Bool) (i : Ins) (s : State) : IRes :=
  let f := i.f
  match Fmt.ofCode (fld f 19 16) with
  | none => .fault s ⟨0x41, 0, 0, 0, 0⟩
  | some w =>
    let kp := fld f 28 20; let nc := fld f 32 30
    let base := areg s i.c f 39 36; let str := areg s i.c f 43 40; let scl := areg s i.c f 47 44
    let l : PanelLoad := ⟨0, 0, f, i.pc, w, kp, nc, trans, gloc base, str, gloc scl, none, s.cyc i.c, none, none, []⟩
    let rows := if trans then kp else nc
    let len := ((if trans then nc else kp) * w.bits + 7) / 8
    orFault s [need w.isPanel 0x41 1, need (decide (1 ≤ kp) && decide (kp ≤ w.kMax)) 0x42 1,
        aligned 16 0x44 1 base, aligned 16 0x44 1 str, if w.isMx then aligned 8 0x44 1 scl else none,
        s.rowsFault i.c base str rows len 0x43 1,
        if w.isMx then s.rowsFault i.c scl 8 nc ((kp + 31) / 32) 0x43 1 else none] <|
      if 4 ≤ (s.mx i.c).queued.length || !(s.mx i.c).decs.isEmpty || s.boardFull i l.foot || s.conflict i l.foot ||
          s.attAhead i.c i.n then .hold else
      let (u, s) := s.uid
      .done (s.modMx i.c fun m => { m with loads := m.loads ++ [{ l with uid := u }] })

def ploadDec (f : Frame) : Option FaultInfo :=
  let mx := match Fmt.ofCode (fld f 19 16) with | some w => w.isMx | none => true
  let nc := fld f 32 30
  firstFault [decodeCheck f 0x48 [(127, 48), (35, 33), (29, 29)] (mx || fld f 47 44 == 0),
    if (Fmt.ofCode (fld f 19 16)).isNone then some ⟨0x41, 0, 0, 0, 0⟩ else none,
    if nc = 0 || 5 ≤ nc then some ⟨0x42, 0, 0, 0, 0⟩ else none]

def ploadRegs (f : Frame) : List Nat := [fld f 39 36, fld f 43 40, fld f 47 44]

/-- The shapes of R62: rows, panels, groups per engine; `none` for a reserved code. -/
def shapeOf : Nat → Option (Nat × Nat × Nat)
  | 0 => some (16, 1, 1) | 1 => some (8, 1, 1) | 2 => some (4, 1, 1) | 3 => some (1, 1, 1)
  | 4 => some (16, 2, 1) | 5 => some (16, 4, 1) | 6 => some (64, 1, 4) | _ => none

/-- A row of `kp` contiguous elements at byte address `a` with scales from `sc`. -/
def rowSrc (f : Fmt) (row tile a sc kp : Nat) : RowSrc :=
  ⟨row, tile, (List.range kp).map (fun k => some (a * 8 + k * f.bits)),
   if f.isMx then (List.range ((kp + 31) / 32)).map (fun j => some (sc + j)) else []⟩

/-- The slots of a pass: for engine `e`, its `k`-th fed row group stands in slot `k` (R65). -/
def packSlots (groups : List (List RowSrc)) : List (List RowSrc) :=
  let fed := groups.filter fun g => !g.isEmpty
  let of (e : Nat) := fed.filter fun g => match g with | r :: _ => r.row / 4 == e | [] => false
  let n := (List.range 4).foldl (fun n e => max n (of e).length) 0
  (List.range n).map fun k => (List.range 4).flatMap fun e => ((of e)[k]?).getD []

/-- How many queued panels earlier MMA instructions take. -/
def State.claimed (s : State) (c : Nat) : Nat :=
  (s.mx c).queue.foldl (fun n e => match e.kind with | .passes _ todo false => n + todo.length | _ => n) 0 -
    (match (s.mx c).pass, (s.mx c).queue.head? with
     | some _, some ⟨_, _, _, _, .passes _ _ false, _, _⟩ => 1
     | _, _ => 0)

/-- Panels queued by PLOAD and TLOAD that no earlier MMA takes: those the next MMA takes. [DEDUCED, log 175] -/
def State.unclaimed (s : State) (c : Nat) : List PanelLoad := (s.untaken c).drop (s.claimed c)

def mmaDec (f : Frame) : Option FaultInfo :=
  let mx := match Fmt.ofCode (fld f 23 20) with | some w => w.isMx | none => true
  firstFault [decodeCheck f 0x48 [(127, 52), (19, 16)] (mx || fld f 51 48 == 0),
    if (Fmt.ofCode (fld f 23 20)).isNone then some ⟨0x41, 0, 0, 0, 0⟩ else none,
    if (shapeOf (fld f 27 24)).isNone then some ⟨0x42, 0, 0, 0, 0⟩ else none]

def mmaRegs (f : Frame) : List Nat :=
  [fld f 39 36, fld f 43 40, fld f 51 48] ++ if bitOf f 29 then [fld f 47 44] else []

/-- MMA (R61 to R65). A panel no pass has taken is untaken, also when an earlier MMA waits to take it; the K_p of a panel that is
not queued yet is known when a pass takes it. [DEDUCED, log 175] -/
def mmaBody (i : Ins) (s : State) : IRes :=
  let f := i.f
  match Fmt.ofCode (fld f 23 20), shapeOf (fld f 27 24) with
  | some a, some (rows, np, groups) =>
    let tile := fld f 35 32; let bank := fld f 31 30
    let base := areg s i.c f 39 36; let str := areg s i.c f 43 40; let scl := areg s i.c f 51 48
    let mask := if bitOf f 29 then areg s i.c f 47 44 else 2 ^ 64 - 1
    let tiles := if groups = 4 then 4 else np
    let ps := (s.unclaimed i.c).take np
    let kp := match ps with | l :: _ => l.kp | [] => a.kMax
    let len := ((match ps with | l :: _ => l.kp | [] => 1) * a.bits + 7) / 8
    let used := (List.range rows).filter fun r => mask.testBit r
    let group (t j e : Nat) : List RowSrc :=
      ((List.range 4).map fun m => 16 * j + 4 * e + m).filterMap fun r =>
        if r < rows && mask.testBit r then some (rowSrc a (r % 16) t (gloc base + r * str) (gloc scl + r * 8) kp) else none
    let spec (p : Nat) : PassSpec :=
      ⟨packSlots ((List.range groups).flatMap fun j => (List.range 4).map fun e =>
        group (if groups = 4 then tile + j else tile + p) j e), a, !bitOf f 28, kp, p, 0⟩
    let foot : Foot := ⟨hull (used.flatMap fun r => rowSpan (base + r * str) 0 1 ((kp * a.bits + 7) / 8) false) ++
      (if a.isMx then hull (used.flatMap fun r => rowSpan (scl + r * 8) 0 1 ((kp + 31) / 32) false) else []), []⟩
    orFault s [need (decide (tile + tiles ≤ 16)) 0x42 1, need (decide (np ≤ (s.untaken i.c).length)) 0x45 1,
        aligned 16 0x44 1 base, aligned 16 0x44 1 str, if a.isMx then aligned 8 0x44 1 scl else none,
        used.findSome? fun r => s.ownFault i.c (base + r * str) len 0x43 1,
        if a.isMx then used.findSome? fun r => s.ownFault i.c (scl + r * 8) ((kp + 31) / 32) 0x43 1 else none] <|
      s.enter i (.passes bank ((List.range np).map spec) false) foot
  | _, _ => .fault s (faultOf 0x42 0)

def mmawgDec (f : Frame) : Option FaultInfo :=
  let p := Fmt.ofCode (fld f 19 16); let r := Fmt.ofCode (fld f 23 20)
  let mx (x : Option Fmt) : Bool := match x with | some w => w.isMx | none => true
  firstFault [decodeCheck f 0x48 [(127, 77)] ((mx p || fld f 71 68 == 0) && (mx r || fld f 75 72 == 0)),
    if p.isNone || r.isNone then some ⟨0x41, 0, 0, 0, 0⟩ else none]

def mmawgRegs (f : Frame) : List Nat :=
  [fld f 51 48, fld f 55 52, fld f 59 56, fld f 63 60, fld f 67 64, fld f 71 68, fld f 75 72]

/-- An instruction that loads its own panels: its checks, what it reads, its passes, and by the number of the instruction its panel
loads, those of each tap together. -/
structure Plan where
  checks : List (Option FaultInfo)
  foot   : Foot
  todo   : List PassSpec
  loads  : Nat → List (List PanelLoad)

/-- MMAWG (R70 to R72) with the formats of its panels and rows, taken apart. -/
def mmawgPlan (i : Ins) (s : State) (w a : Fmt) : Plan :=
  let f := i.f
  let mode := bitOf f 24; let cnt := fld f 28 25 + 1; let tile := fld f 35 32
  let kp := fld f 44 36; let nc := fld f 47 45; let trans := bitOf f 76
  let padr := areg s i.c f 51 48; let pstr := areg s i.c f 55 52
  let radr := areg s i.c f 59 56; let rstr := areg s i.c f 63 60
  let mask := areg s i.c f 67 64 % 65536
  let pscl := areg s i.c f 71 68; let rscl := areg s i.c f 75 72
  let sel := (List.range cnt).filter fun b => mask.testBit b
  let panels := if mode then sel else if sel.isEmpty then [] else [0]
  let pbase (p : Nat) := padr + if trans then p * 4 * w.bits / 8 else p * 4 * pstr
  let ncol (p : Nat) := if !mode || p + 1 = cnt then nc else 4
  let row (b t r : Nat) := rowSrc a r t (gloc radr + (16 * b + r) * rstr) (gloc rscl + (16 * b + r) * 8) kp
  let blocks := if mode then (if sel.isEmpty then [] else [0]) else sel
  let spec (ix : Nat) (slots : List (List RowSrc)) : PassSpec := ⟨slots, a, !bitOf f 29, kp, ix, 0⟩
  let todo := if mode then sel.zipIdx.map fun p => spec p.2 [(List.range 16).map (row 0 (tile + p.1))]
    else if sel.isEmpty then [] else [spec 0 (sel.map fun b => (List.range 16).map (row b (tile + b)))]
  let len := (kp * a.bits + 7) / 8
  let prow (p : Nat) := (if trans then kp else ncol p, ((if trans then ncol p else kp) * w.bits + 7) / 8)
  let foot : Foot := ⟨hull (blocks.flatMap fun b => rowSpan (radr + 16 * b * rstr) rstr 16 len false) ++
    (if a.isMx then hull (blocks.flatMap fun b => rowSpan (rscl + 128 * b) 8 16 ((kp + 31) / 32) false) else []) ++
    hull (panels.flatMap fun p => rowSpan (pbase p) pstr (prow p).1 (prow p).2 false) ++
    (if w.isMx then hull (panels.flatMap fun p => rowSpan (pscl + 32 * p) 8 (ncol p) ((kp + 31) / 32) false) else []), []⟩
  { checks := [need (w.isPanel && pairs w a) 0x41 1,
      need (decide (1 ≤ kp) && decide (kp ≤ w.kMax) && decide (1 ≤ nc) && decide (nc ≤ 4) && decide (tile + cnt ≤ 16))
        0x42 1,
      need (s.untaken i.c).isEmpty 0x46 1,
      aligned 16 0x44 1 padr, aligned 16 0x44 1 pstr, aligned 16 0x44 1 radr, aligned 16 0x44 1 rstr,
      if w.isMx then aligned 8 0x44 1 pscl else none, if a.isMx then aligned 8 0x44 1 rscl else none,
      blocks.findSome? fun b => s.rowsFault i.c (radr + 16 * b * rstr) rstr 16 len 0x43 1,
      panels.findSome? fun p => s.rowsFault i.c (pbase p) pstr (prow p).1 (prow p).2 0x43 1,
      if a.isMx then blocks.findSome? fun b => s.rowsFault i.c (rscl + 128 * b) 8 16 ((kp + 31) / 32) 0x43 1 else none,
      if w.isMx then panels.findSome? fun p => s.rowsFault i.c (pscl + 32 * p) 8 (ncol p) ((kp + 31) / 32) 0x43 1
        else none],
    foot := foot,
    todo := todo,
    loads := fun u => panels.map fun p =>
      [(⟨0, u, f, i.pc, w, kp, ncol p, trans, gloc (pbase p), pstr, gloc (pscl + 32 * p), none, s.cyc i.c, none, none, []⟩ :
        PanelLoad)] }

/-- MMAWG. -/
def mmawgBody (i : Ins) (s : State) : IRes :=
  match Fmt.ofCode (fld i.f 19 16), Fmt.ofCode (fld i.f 23 20) with
  | some w, some a =>
    let q := mmawgPlan i s w a
    orFault s q.checks <|
      if 8 ≤ s.entries i.c || !(s.mx i.c).decs.isEmpty || s.boardFull i q.foot || s.conflict i q.foot ||
          s.attAhead i.c i.n then .hold else
      let (u, s) := s.enqueue i (.passes (fld i.f 31 30) q.todo true) q.foot
      .done ((s.modMx i.c fun m => { m with loads := m.loads ++ (q.loads u).flatten }).runMatrix 10 i.c)
  | _, _ => .fault s (faultOf 0x41 0)

/-- ACCZ (R75). -/
def acczBody (i : Ins) (s : State) : IRes :=
  let n := fld i.f 29 26 + 1; let t := fld i.f 25 22
  orFault s [need (decide (t + n ≤ 16)) 0x42 1] <| s.enter i (.accz (fld i.f 21 20) t n) Foot.none

def accstDec (f : Frame) : Option FaultInfo :=
  firstFault [decodeCheck f 0x48 [(127, 51)],
    if (Fmt.ofCode (fld f 19 16)).isNone then some ⟨0x41, 0, 0, 0, 0⟩ else none]

def accstRegs (f : Frame) : List Nat :=
  [fld f 33 30, fld f 37 34, fld f 41 38] ++ if bitOf f 50 then [fld f 49 46] else []

/-- ACCST (R73). -/
def accstBody (i : Ins) (s : State) : IRes :=
  let f := i.f
  match Fmt.ofCode (fld f 19 16) with
  | none => .fault s (faultOf 0x41 0)
  | some o =>
    let bank := fld f 21 20; let tile := fld f 25 22; let n := fld f 29 26 + 1; let nc := fld f 45 43
    let base := areg s i.c f 33 30; let dstr := areg s i.c f 37 34; let tstr := areg s i.c f 41 38
    let mask := if bitOf f 50 then areg s i.c f 49 46 % 65536 else 65535
    let rows := (List.range n).flatMap fun q => ((List.range 16).filter mask.testBit).map fun r => base + q * tstr + r * dstr
    let len := nc * o.bytes
    orFault s [need o.isOut 0x41 1,
        need (decide (1 ≤ nc) && decide (nc ≤ 4) && decide (tile + n ≤ 16)) 0x42 1,
        aligned 16 0x44 1 base, aligned 16 0x44 1 dstr, aligned 16 0x44 1 tstr,
        rows.findSome? fun a => s.ownFault i.c a len 0x43 1] <|
      s.enter i (.accst bank tile n nc o (gloc base) dstr tstr mask (bitOf f 42))
        ⟨hull (rows.flatMap fun a => rowSpan a 0 1 len true), []⟩

/-- ACCMV (R74). -/
def accmvBody (i : Ins) (s : State) : IRes :=
  let f := i.f
  let v := fld f 31 26
  orFault s [need (v % 2 == 0) 0x42 1] <|
    s.enter i (.accmv (fld f 21 20) (fld f 25 22) v (bitOf f 32)) ⟨[], [(v, true), (v + 1, true)]⟩

/-- ACCSV and ACCLD (R76). -/
def accRawBody (load : Bool) (i : Ins) (s : State) : IRes :=
  let base := areg s i.c i.f 23 20
  orFault s [aligned 16 0x44 1 base, s.ownFault i.c base 8192 0x43 1] <|
    s.enter i (if load then .accld (fld i.f 17 16) (gloc base) else .accsv (fld i.f 17 16) (gloc base))
      ⟨rowSpan base 0 1 8192 (!load), []⟩

/-- GWSET (R68, R69). The rows' length is not known here: one byte of each armed slot is checked for its place.
[DESIGN CHOICE, log 183] -/
def gwsetBody (i : Ins) (s : State) : IRes :=
  let f := i.f
  let base := areg s i.c f 19 16; let str := areg s i.c f 23 20; let arm := fld f 51 36; let fb := fld f 35 24
  orFault s [need (decide (fb ≤ 4080)) 0x42 1, aligned 16 0x44 1 base, aligned 16 0x44 1 str,
      (List.range 16).findSome? fun k => if arm.testBit k then s.ownFault i.c (base + k * str) 1 0x43 1 else none] <|
    s.enter i (.gwset (gloc base) str arm fb (fld f 67 52)) Foot.none

/-- GWAIT (R67). -/
def gwaitBody (i : Ins) (s : State) : IRes :=
  let d := fld i.f 19 16
  if 8 ≤ s.entries i.c then .hold else
  let (u, s) := s.enqueue i (.gwait d) Foot.none
  .done ((s.modCtx i.c fun x => { x with pend := x.pend ++ [(d, u)] }).runMatrix 10 i.c)

/-! ### The rows -/

def runMma (c : Nat) (f : Frame) (s : State) : State := s.issueCore c f (mmaDec f) (mmaRegs f) mmaBody
def runPload (c : Nat) (f : Frame) (s : State) : State := s.issueCore c f (ploadDec f) (ploadRegs f) (ploadBody false)
def runTload (c : Nat) (f : Frame) (s : State) : State := s.issueCore c f (ploadDec f) (ploadRegs f) (ploadBody true)
def runGwset (c : Nat) (f : Frame) (s : State) : State :=
  s.issueCore c f (decodeCheck f 0x48 [(127, 68)]) [fld f 19 16, fld f 23 20] gwsetBody
def runGwait (c : Nat) (f : Frame) (s : State) : State :=
  s.issueCore c f (decodeCheck f 0x48 [(127, 20)]) [fld f 19 16] gwaitBody
def runMmawg (c : Nat) (f : Frame) (s : State) : State := s.issueCore c f (mmawgDec f) (mmawgRegs f) mmawgBody
def runAccz (c : Nat) (f : Frame) (s : State) : State :=
  s.issueCore c f (decodeCheck f 0x48 [(127, 30), (19, 16)]) [] acczBody
def runAccst (c : Nat) (f : Frame) (s : State) : State := s.issueCore c f (accstDec f) (accstRegs f) accstBody
def runAccmv (c : Nat) (f : Frame) (s : State) : State :=
  s.issueCore c f (decodeCheck f 0x48 [(127, 33), (19, 16)]) [] accmvBody
def runAccsv (c : Nat) (f : Frame) (s : State) : State :=
  s.issueCore c f (decodeCheck f 0x48 [(127, 24), (19, 18)]) [fld f 23 20] (accRawBody false)
def runAccld (c : Nat) (f : Frame) (s : State) : State :=
  s.issueCore c f (decodeCheck f 0x48 [(127, 24), (19, 18)]) [fld f 23 20] (accRawBody true)

def execMma (c : Nat) (f : Frame) (s : State) : Host.Outcome State Fault Refusal := .next (s.startOp 0x40 c f (runMma c f))
def execPload (c : Nat) (f : Frame) (s : State) : Host.Outcome State Fault Refusal := .next (s.startOp 0x44 c f (runPload c f))
def execTload (c : Nat) (f : Frame) (s : State) : Host.Outcome State Fault Refusal := .next (s.startOp 0x45 c f (runTload c f))
def execGwset (c : Nat) (f : Frame) (s : State) : Host.Outcome State Fault Refusal := .next (s.startOp 0x48 c f (runGwset c f))
def execGwait (c : Nat) (f : Frame) (s : State) : Host.Outcome State Fault Refusal := .next (s.startOp 0x49 c f (runGwait c f))
def execMmawg (c : Nat) (f : Frame) (s : State) : Host.Outcome State Fault Refusal := .next (s.startOp 0x50 c f (runMmawg c f))
def execAccz (c : Nat) (f : Frame) (s : State) : Host.Outcome State Fault Refusal := .next (s.startOp 0x58 c f (runAccz c f))
def execAccst (c : Nat) (f : Frame) (s : State) : Host.Outcome State Fault Refusal := .next (s.startOp 0x59 c f (runAccst c f))
def execAccmv (c : Nat) (f : Frame) (s : State) : Host.Outcome State Fault Refusal := .next (s.startOp 0x5A c f (runAccmv c f))
def execAccsv (c : Nat) (f : Frame) (s : State) : Host.Outcome State Fault Refusal := .next (s.startOp 0x5B c f (runAccsv c f))
def execAccld (c : Nat) (f : Frame) (s : State) : Host.Outcome State Fault Refusal := .next (s.startOp 0x5C c f (runAccld c f))

end Sys2Proof.Machine
end

