-- ==== Sys2Proof/Machine/Row.lean ====
section
/-! DEFINITION. Sys2Proof/Machine/Row.lean: the row engine and its side memory (R143 to R155). -/

namespace Sys2Proof.Machine

/-! ## Side memory (R143, R144) -/

/-- A record of side memory. -/
structure Rec where
  a : W32
  b : W32
  c : W32
  kind : Nat
  empty : Bool
  deriving DecidableEq, Repr

def Rec.toBits (r : Rec) : BitVec 128 :=
  BitVec.ofNat 128 (r.a.toNat + r.b.toNat * 2 ^ 32 + r.c.toNat * 2 ^ 64 + (r.kind * 2 ^ 28 + if r.empty then 1 else 0) * 2 ^ 96)

def Rec.of (v : BitVec 128) : Rec :=
  ⟨v.extractLsb' 0 32, v.extractLsb' 32 32, v.extractLsb' 64 32, fld v 127 124, bitOf v 96⟩

def Ctx.record (x : Ctx) (n : Nat) : Rec := Rec.of (SMap.getD x.side n 0)

/-- Write a record: its poison goes with its old contents. -/
def Ctx.setSide (x : Ctx) (n : Nat) (v : BitVec 128) : Ctx :=
  { x with side := SMap.setD x.side n 0 v, sidePois := SMap.del (SMap.del x.sidePois (2 * n)) (2 * n + 1) }

def Ctx.setRec (x : Ctx) (n : Nat) (r : Rec) : Ctx := x.setSide n r.toBits

/-- The address fault of records: the last of `n` records from `i` exceeds 4,095. -/
def recsOk (i n : Nat) : Option FaultInfo := need (decide (i + n ≤ 4096)) 0x66 3

/-- Kinds that a backward instruction accepts. -/
def kindsOk (x : Ctx) (i n : Nat) (ks : List Nat) : Option FaultInfo :=
  need ((List.range (min n 4096)).all fun r => ks.contains (x.record (i + r)).kind) 0x66 3

def recsBad (s : State) (c i n : Nat) : Option Nat :=
  if (List.range (2 * min n 4096)).any fun r => SMap.getD (s.ctx c).sidePois (2 * i + r) false then some 0 else none

/-! ## Rows -/

/-- Rows of `len` elements in memory. -/
structure Rows where
  g    : Nat
  str  : Nat
  n    : Nat
  len  : Nat
  fmt  : Fmt

def Rows.bytes (r : Rows) : Nat := r.len * r.fmt.bytes

def Rows.check (s : State) (c : Nat) (r : Rows) : List (Option FaultInfo) :=
  [need r.fmt.isVec 0x61 3, need (r.g % 16 == 0) 0x64 3 r.g, s.rowsFault c r.g r.str r.n r.bytes 0x63 3]

def Rows.at (r : Rows) (i k : Nat) : Nat := gloc r.g + i * r.str + k * r.fmt.bytes

def Rows.get (s : State) (r : Rows) (i k : Nat) : XF := s.elemAt r.fmt (r.at i k * 8) none

def Rows.row (s : State) (r : Rows) (i : Nat) : List XF := (List.range r.len).map (r.get s i)

def Rows.span (r : Rows) (wr : Bool) : List Span := rowSpan r.g r.str r.n r.bytes wr

/-- A poisoned element that `keep` does not leave out. -/
def Rows.bad (s : State) (r : Rows) (keep : Nat → Nat → Bool) : Option Nat :=
  (List.range r.n).findSome? fun i =>
    if s.poisoned (r.at i 0) r.bytes then
      (List.range r.len).findSome? fun k => if keep i k && s.poisoned (r.at i k) r.fmt.bytes then some (r.g + i * r.str + k * r.fmt.bytes) else none
    else none

/-- The elements of rows become not defined. -/
def Rows.free (s : State) (c : Nat) (r : Rows) : State := iterate r.n s fun i s => s.freeRange c (r.at i 0) r.bytes

/-- Do rows share bytes without lying exactly on each other (R125)? -/
def Rows.clash (o i : Rows) : Bool :=
  !(o.g == i.g && o.fmt == i.fmt && o.len == i.len && o.n == i.n) &&
  (List.range (max o.n 1)).any fun k =>
    let d := k * o.str
    let meets (a b : Nat) : Bool := decide (a + d < b + i.bytes) && decide (b < a + d + o.bytes)
    meets (gloc o.g) (gloc i.g) || (decide (gloc i.g + d < gloc o.g + o.bytes) && decide (gloc o.g < gloc i.g + d + i.bytes))

/-- Store a row of results: not defined where the rows clash with an input. -/
def Rows.put (s : State) (c : Nat) (r : Rows) (clash : Bool) (i : Nat) (vs : List XF) : State :=
  let cs := vs.map fun v => convert r.fmt v
  let (codes, s) := if clash then s.freeCodes cs.length r.fmt.bits else (cs.map (·.1), s)
  (s.ownStore (r.at i 0) (codes.flatMap fun x => le r.fmt.bytes x)).setFlags c
    (cs.foldl (fun b x => b ||| cvtBits x.2 flagRovf) 0)

/-! ## Arithmetic shared by the row instructions -/

def rn1 (x : XF) : Fl XF := rowEng.rn [x] x
def rnAdd (a b : XF) : Fl XF := rowEng.rn [a, b] (a.add b)
def rnSub (a b : XF) : Fl XF := rowEng.rn [a, b] (a.sub b)
def rnMul (a b : XF) : Fl XF := rowEng.rn [a, b] (a.mul b)
def rnDiv (a b : XF) : Fl XF := rowEng.rn [a, b] (a.div b)
def rnFma (a b c : XF) : Fl XF := rowEng.rn [a, b, c] ((a.mul b).add c)
def rnExp (a : XF) : Fl XF := rowEng.rn [a] a.exp
def rnLog (a : XF) : Fl XF := rowEng.rn [a] a.log
def rnRsqrt (a : XF) : Fl XF := rowEng.rn [a] a.rsqrt

/-- The compensated sum of a list, read as FP32. -/
def rnSum (xs : List XF) : Fl XF := do
  let p ← rowEng.psum Pair.zero xs
  rowEng.pval p

def natXF (n : Nat) : XF := XF.ofDy n 0

/-! ## Normalisation (R146, R147) -/

/-- [DEDUCED, log 25] -/
def normDec (bwd : Bool) (f : Frame) : Option FaultInfo :=
  let mode := fld f 43 42
  let eps := decFloat .fp32 (fld f 127 96)
  firstFault [decodeCheck f 0x68 [(38, 16)] (mode != 3 && (mode == 2 || fld f 95 92 == 0) &&
      (bwd || fld f 91 88 == 0) && (if bwd then fld f 127 96 == 0 else eps.isFinite && !(XF.lt eps (.zero false)))),
    need (!(mode == 1 && bitOf f 40)) 0x62 0,
    need ([fld f 55 52, fld f 51 48, fld f 47 44].all fun k => (Fmt.ofCode k).isSome) 0x61 0]

def normRegs (bwd : Bool) (f : Frame) : List Nat :=
  [fld f 83 80, fld f 79 76, fld f 75 72, fld f 63 60, fld f 59 56] ++
  (if fld f 43 42 = 2 then [fld f 95 92] else []) ++ (if bitOf f 41 then [fld f 67 64] else []) ++
  (if bwd then [fld f 71 68, fld f 87 84] ++ (if bitOf f 39 then [fld f 91 88] else [])
   else (if bitOf f 40 then [fld f 71 68] else []) ++ (if bitOf f 39 then [fld f 87 84] else []))

/-- NORMF on one row: mean, reciprocal standard deviation and the outputs. -/
def normRow (rms : Bool) (eps : XF) (xs : List XF) (gam bet : Nat → XF) : Fl (XF × XF × List XF) := do
  let c := natXF xs.length
  if rms then
    let q ← xs.mapM fun x => rnMul x x
    let t ← rnSum q
    let ms ← rnDiv t c
    let v ← rnAdd ms eps
    let r ← rnRsqrt v
    let y ← xs.zipIdx.mapM fun x => do
      let z ← rnMul x.1 r
      rnMul z (gam x.2)
    return (.zero false, r, y)
  else
    let t ← rnSum xs
    let mean ← rnDiv t c
    let d ← xs.mapM fun x => rnSub x mean
    let q ← d.mapM fun x => rnMul x x
    let u ← rnSum q
    let var ← rnDiv u c
    let v ← rnAdd var eps
    let r ← rnRsqrt v
    let y ← d.zipIdx.mapM fun x => do
      let z ← rnMul x.1 r
      rnFma z (gam x.2) (bet x.2)
    return (mean, r, y)

/-- NORMB on one row: dx, and with SAVE = 1 for each element the addends of dγ and dβ (R147). -/
def normBackRow (rms save : Bool) (mean r : XF) (xs dys : List XF) (gam : Nat → XF) : Fl (List XF × List (XF × XF)) := do
  let c := natXF xs.length
  let m : XF := if rms then .zero false else mean
  let xh ← xs.mapM fun x => do
    let d ← rnSub x m
    rnMul d r
  let g ← dys.zipIdx.mapM fun y => rnMul y.1 (gam y.2)
  let a ← if rms then pure (XF.zero false) else (do
    let t ← rnSum g
    rnDiv t c)
  let q ← (g.zip xh).mapM fun y => rnMul y.1 y.2
  let t ← rnSum q
  let b ← rnDiv t c
  let dx ← (g.zip xh).mapM fun y => do
    let z ← rnFma y.2 b a
    let w ← rnSub y.1 z
    rnMul r w
  let gs ← if save then (dys.zip xh).mapM fun y => (do
      let z ← rnMul y.1 y.2
      return (z, y.1))
    else pure []
  return (dx, gs)

/-- Add an addend to the pair at an address, keeping the flags. -/
def addPair (s : State) (c a : Nat) (x : XF) : State :=
  let (p, bits) := (rowEng.padd (pairOf (s.read a 8)) x).run 0
  (s.ownStore a (pairBytes p)).setFlags c bits

/-- The shape of NORMF and NORMB: rows, elements, groups, the format of the parameters. -/
def normShape (i : Ins) (s : State) : List (Option FaultInfo) :=
  let f := i.f
  let ar (hi lo : Nat) : Nat := ((s.ctx i.c).getA (fld f hi lo)).toNat
  let grp := fld f 43 42 == 2
  let gf := (Fmt.ofCode (fld f 55 52)).getD .fp32
  let rows := ar 83 80; let len := ar 79 76
  let P := ar 95 92 % 2 ^ 32; let ng := ar 95 92 / 2 ^ 32 % 2 ^ 32
  [need (decide (1 ≤ rows) && decide (rows ≤ 65536) && decide (1 ≤ len) && decide (len ≤ 1048576)) 0x62 3,
    need (!grp || (P != 0 && ng != 0 && min len 1048576 % P == 0)) 0x62 3, need (gf == .fp32 || gf == .bf16) 0x61 3]

/-- NORMF and NORMB, taken apart. [DEDUCED, log 25] -/
def normOp (bwd : Bool) (i : Ins) (s : State) : VOp :=
  let f := i.f
  let ar (hi lo : Nat) : Nat := ((s.ctx i.c).getA (fld f hi lo)).toNat
  let mode := fld f 43 42; let gen := bitOf f 41; let ben := bitOf f 40; let save := bitOf f 39
  let xf := (Fmt.ofCode (fld f 47 44)).getD .fp32; let yf := (Fmt.ofCode (fld f 51 48)).getD .fp32
  let gf := (Fmt.ofCode (fld f 55 52)).getD .fp32
  let rows := ar 83 80; let len := ar 79 76
  let n := min rows 65536; let cl := min len 1048576
  let gn := ar 95 92; let P := gn % 2 ^ 32; let ng := gn / 2 ^ 32 % 2 ^ 32
  let grp := mode == 2
  let gidx (r k : Nat) : Nat := if grp then r % ng * (cl / P) + k / P else k
  let gcnt := if grp then ng * (cl / max P 1) else cl
  let x : Rows := ⟨ar 59 56, ar 75 72, n, cl, xf⟩
  let y : Rows := ⟨ar 63 60, ar 75 72, n, cl, yf⟩
  let dy : Rows := ⟨ar 71 68, ar 75 72, n, cl, xf⟩
  let gamR : Rows := ⟨ar 67 64, 0, 1, gcnt, gf⟩
  let betR : Rows := ⟨ar 71 68, 0, 1, gcnt, gf⟩
  let dg := ar 91 88
  let sx := ar 87 84
  let useRec := bwd || save
  let grad := bwd && save
  let dgS : Span := ⟨gloc dg, gloc dg + 16 * gcnt, true⟩
  let ins : List Rows := [x] ++ (if bwd then [dy] else []) ++ (if gen then [gamR] else []) ++
    (if !bwd && ben then [betR] else [])
  { unit := 3, lane := 30,
    late := if bwd then [kindsOk (s.ctx i.c) sx n [if mode = 1 then 2 else 1]] else [],
    free := fun s => let s := y.free s i.c; if grad then s.freeRange i.c (gloc dg) (16 * gcnt) else s,
    checks := (ins ++ [y]).flatMap (·.check s i.c) ++
      (if grad then [need (dg % 16 == 0) 0x64 3 dg, s.ownFault i.c dg (16 * gcnt) 0x63 3] else []) ++
      (if useRec then [recsOk sx n] else []),
    foot := ⟨ins.flatMap (·.span false) ++ y.span true ++ (if grad then [dgS] else []), []⟩,
    recs := if useRec then (List.range (min n 4096)).map (sx + ·) else [],
    bad := fun s => ((ins.findSome? fun r => r.bad s fun _ _ => true).or (if bwd then recsBad s i.c sx n else none)).or
      (if grad && s.poisoned (gloc dg) (16 * gcnt) then some dg else none),
    act := fun s0 =>
      let clash := ins.any fun r => y.clash r
      let dclash := grad && ins.any fun r => (r.span false).any (spansMeet dgS)
      let gam (r k : Nat) : XF := if gen then gamR.get s0 0 (gidx r k) else one
      let bet (r k : Nat) : XF := if ben then betR.get s0 0 (gidx r k) else .zero false
      let s := iterate n s0 fun r s =>
        let xs := x.row s0 r
        if bwd then
          let q := (s0.ctx i.c).record (sx + r)
          let ((dx, gs), bits) := (normBackRow (mode == 1) grad (dec32 q.a) (dec32 q.b) xs (dy.row s0 r) (gam r)).run 0
          let s := (y.put s i.c clash r dx).setFlags i.c bits
          if grad then gs.zipIdx.foldl (fun (s : State) (z : (XF × XF) × Nat) =>
            addPair (addPair s i.c (gloc dg + 8 * gidx r z.2) z.1.1) i.c (gloc dg + 8 * (gcnt + gidx r z.2)) z.1.2) s
          else s
        else
          let ((mean, rstd, ys), bits) := (normRow (mode == 1) (decFloat .fp32 (fld f 127 96)) xs (gam r) (bet r)).run 0
          let s := (y.put s i.c clash r ys).setFlags i.c bits
          if save then s.modCtx i.c fun z =>
            z.setRec (sx + r) ⟨enc32 mean, enc32 rstd, 0, if mode = 1 then 2 else 1, false⟩ else s
      if dclash then s.forget dgS.lo dgS.hi else s }

def normBody (bwd : Bool) (i : Ins) (s : State) : IRes :=
  match firstFault (normShape i s) with
  | some x => (normOp bwd i s).stop i s x
  | none => (normOp bwd i s).run i s

/-! ## Soft maximum (R148, R149) -/

def smaxDec (bwd : Bool) (f : Frame) : Option FaultInfo :=
  firstFault [decodeCheck f 0x68 ([(95, 92), (67, 64), (55, 52), (40, 16)] ++ if bwd then [] else [(71, 68)])
      (decFloat .fp32 (fld f 127 96)).isFinite,
    need ([fld f 51 48, fld f 47 44].all fun k => (Fmt.ofCode k).isSome) 0x61 0]

def smaxRegs (bwd : Bool) (f : Frame) : List Nat :=
  [fld f 83 80, fld f 79 76, fld f 75 72, fld f 63 60, fld f 59 56] ++ (if bitOf f 43 then [fld f 91 88] else []) ++
  (if bwd then [fld f 71 68] else []) ++ (if (bwd && bitOf f 42) || (!bwd && bitOf f 41) then [fld f 87 84] else [])

/-- SMAXF on one row of kept and masked elements: maximum, log-sum-exp, emptiness and outputs. [DEDUCED, log 29] -/
def smaxRow (tau : XF) (xs : List (Option XF)) : Fl (XF × XF × Bool × List XF) := do
  let z ← xs.mapM fun x => match x with
    | some x => do return some (← rnMul tau x)
    | none => return none
  let kept := z.filterMap id
  let m := kept.foldl XF.max2 (.inf true)
  if kept.isEmpty || m = .inf true then
    raise flagRempty
    return (.inf true, .inf true, true, xs.map fun _ => .zero false)
  else
    if m.isNan || m = .inf false then raise flagRinv
    let e ← z.mapM fun x => match x with
      | some x => do
        let d ← rnSub x m
        return some (← rnExp d)
      | none => return none
    let l ← rnSum (e.filterMap id)
    let lg ← rnLog l
    let lse ← rnAdd m lg
    let y ← e.mapM fun x => match x with
      | some x => if m.isNan || m = .inf false then return .nan else rnDiv x l
      | none => return .zero false
    return (m, lse, false, y)

/-- SMAXB on one row: `ys` the outputs (`none` masked). -/
def smaxBackRow (tau : XF) (ys : List (Option XF)) (dys : List XF) : Fl (List XF) := do
  let q ← (ys.zip dys).mapM fun p => match p.1 with
    | some y => do return some (← rnMul p.2 y)
    | none => return none
  let p ← rnSum (q.filterMap id)
  (ys.zip dys).mapM fun z => match z.1 with
    | some y => do
      let d ← rnSub z.2 p
      let t ← rnMul y d
      rnMul tau t
    | none => return .zero false

/-- The shape of SMAXF and SMAXB: rows and elements. -/
def smaxShape (i : Ins) (s : State) : Option FaultInfo :=
  let rows := ((s.ctx i.c).getA (fld i.f 83 80)).toNat; let len := ((s.ctx i.c).getA (fld i.f 79 76)).toNat
  need (decide (1 ≤ rows) && decide (rows ≤ 65536) && decide (1 ≤ len) && decide (len ≤ 1048576)) 0x62 3

/-- SMAXF and SMAXB, taken apart. [DEDUCED, log 25] -/
def smaxOp (bwd : Bool) (i : Ins) (s : State) : VOp :=
  let f := i.f
  let ar (hi lo : Nat) : Nat := ((s.ctx i.c).getA (fld f hi lo)).toNat
  let men := bitOf f 43; let recomp := bwd && bitOf f 42; let save := !bwd && bitOf f 41
  let xf := (Fmt.ofCode (fld f 47 44)).getD .fp32; let yf := (Fmt.ofCode (fld f 51 48)).getD .fp32
  let rows := min (ar 83 80) 65536; let len := min (ar 79 76) 1048576
  let x : Rows := ⟨ar 59 56, ar 75 72, rows, len, xf⟩
  let y : Rows := ⟨ar 63 60, ar 75 72, rows, len, yf⟩
  let dy : Rows := ⟨ar 71 68, ar 75 72, rows, len, xf⟩
  let ms := 16 * ((len + 127) / 128)
  let gm := ar 91 88; let sx := ar 87 84
  let tau := decFloat .fp32 (fld f 127 96)
  let ins : List Rows := [x] ++ if bwd then [dy] else []
  let mspan : List Span := if men then [⟨gloc gm, gloc gm + rows * ms, false⟩] else []
  let empty (s : State) (r : Nat) : Bool := recomp && ((s.ctx i.c).record (sx + r)).empty
  let keep (s : State) (r k : Nat) : Bool :=
    (!men || (s.mem.byte (gloc gm + r * ms + k / 8)).getLsbD (k % 8)) && !empty s r
  { unit := 3, lane := 30, late := if recomp then [kindsOk (s.ctx i.c) sx rows [3, 5]] else [], free := fun s => y.free s i.c,
    checks := (ins ++ [y]).flatMap (·.check s i.c) ++
      (if men then [need (gm % 16 == 0) 0x64 3 gm, s.ownFault i.c gm (rows * ms) 0x63 3] else []) ++
      (if save || recomp then [recsOk sx rows] else []),
    foot := ⟨ins.flatMap (·.span false) ++ mspan ++ y.span true, []⟩,
    recs := if save || recomp then (List.range (min rows 4096)).map (sx + ·) else [],
    bad := fun s =>
      (if men then (List.range rows).findSome? fun r =>
         if s.poisoned (gloc gm + r * ms) ((len + 7) / 8) then some (gm + r * ms) else none else none).or
      ((ins.findSome? fun r => r.bad s (keep s)).or (if recomp then recsBad s i.c sx rows else none)),
    act := fun s0 =>
      let clash := ins.any (fun r => y.clash r) || mspan.any fun m => (y.span true).any (spansMeet m)
      iterate rows s0 fun r s =>
        let xs := (List.range len).map fun k => if keep s0 r k then some (x.get s0 r k) else none
        if bwd then
          let lse := dec32 ((s0.ctx i.c).record (sx + r)).b
          let (dx, bits) := (show Fl (List XF) from do
            let ys ← xs.mapM fun x => match x with
              | some x =>
                if recomp then do
                  let z ← rnMul tau x
                  let d ← rnSub z lse
                  return some (← rnExp d)
                else return some x
              | none => return none
            smaxBackRow tau ys (dy.row s0 r)).run 0
          (y.put s i.c clash r dx).setFlags i.c bits
        else
          let ((m, lse, em, ys), bits) := (smaxRow tau xs).run 0
          let s := (y.put s i.c clash r ys).setFlags i.c bits
          if save then s.modCtx i.c fun z => z.setRec (sx + r) ⟨enc32 m, enc32 lse, 0, 3, em⟩ else s }

def smaxBody (bwd : Bool) (i : Ins) (s : State) : IRes :=
  match smaxShape i s with
  | some x => (smaxOp bwd i s).stop i s x
  | none => (smaxOp bwd i s).run i s

/-! ## Running statistics (R150, R151) -/

/-- RSTAT on one row: the record after, the factor, and the p values. -/
def rstatRow (r : Rec) (sc : List XF) : Fl (Rec × XF × List XF) := do
  let m := dec32 r.a
  let m' := sc.foldl XF.max2 m
  let low := m' == .inf true
  let al ← if low then pure one else (do
    let d ← rnSub m m'
    rnExp d)
  let p ← sc.mapM fun x => if low then pure (XF.zero false) else (do
    let d ← rnSub x m'
    rnExp d)
  let sm ← rnMul al (dec32 r.b)
  let co ← rnMul al (dec32 r.c)
  let q ← rowEng.psum ⟨enc32 sm, enc32 co⟩ p
  return (⟨enc32 m', q.s, q.c, 4, false⟩, al, p)

def rstatDec (f : Frame) : Option FaultInfo :=
  firstFault [decodeCheck f 0x68 [(127, 48), (24, 24)], need (Fmt.ofCode (fld f 23 20)).isSome 0x61 0]

/-- RSTAT, taken apart. [DEDUCED, log 25] -/
def rstatOp (i : Ins) (s : State) : VOp :=
  let f := i.f
  let sx := ((s.ctx i.c).getA (fld f 47 44)).toNat
  let v := fld f 43 38; let ar := fld f 37 32; let nc := fld f 31 26 + 1; let nr := fld f 19 16 + 1
  let init := bitOf f 25
  let pf := (Fmt.ofCode (fld f 23 20)).getD .fp32
  let sc : Opnd := ⟨false, false, .fp32, v, 0⟩
  let regs := sc.regs (nr * nc)
  { unit := 3, lane := 30, late := if init then [] else [kindsOk (s.ctx i.c) sx nr [4]],
    free := fun s => (⟨false, false, pf, v, 0⟩ : Opnd).free ((⟨false, false, .fp32, ar, 0⟩ : Opnd).free s i.c nr) i.c (nr * nc),
    checks := [need (pf == .fp32 || pf == .bf16) 0x61 3,
      need (decide (v + regs ≤ 64) && !(decide (v ≤ ar) && decide (ar < v + regs))) 0x62 3, recsOk sx nr],
    foot := ⟨[], (ar, true) :: (List.range regs).map fun k => (v + k, true)⟩,
    recs := (List.range nr).map (sx + ·),
    bad := fun s => if init then none else recsBad s i.c sx nr,
    act := fun s =>
      let comp : Fl (List (Rec × XF × List XF)) := (List.range nr).mapM fun r =>
        rstatRow (if init then ⟨0xFF800000, 0, 0, 4, false⟩ else (s.ctx i.c).record (sx + r))
          ((List.range nc).map fun k => sc.get s i.c (r * nc + k))
      let (rs, bits) := comp.run 0
      let ps := rs.flatMap fun q => q.2.2.map fun x => convert pf x
      s.modCtx i.c fun x =>
        let x := putElems (putElems x v pf.bits (ps.map (·.1))) ar 32 (rs.map fun q => (enc32 q.2.1).toNat)
        let x := rs.zipIdx.foldl (fun (x : Ctx) (q : (Rec × XF × List XF) × Nat) => x.setRec (sx + q.2) q.1.1) x
        x.sticky (ps.foldl (fun b q => b ||| cvtBits q.2 flagRovf) bits) }

def rstatBody (i : Ins) (s : State) : IRes := (rstatOp i s).run i s

/-- RFIN on one row: the record after and `1 / l`. [DEDUCED, log 29] -/
def rfinRow (r : Rec) : Fl (Rec × XF) := do
  let l ← rowEng.pval ⟨r.b, r.c⟩
  let m := dec32 r.a
  if m == .inf true || l.isZero then
    raise flagRempty
    return (⟨r.a, 0xFF800000, 0, 5, true⟩, .zero false)
  else
    let q ← rnDiv one l
    let lg ← rnLog l
    let lse ← rnAdd m lg
    return (⟨r.a, enc32 lse, 0, 5, false⟩, q)

/-- RFIN, taken apart. -/
def rfinOp (i : Ins) (s : State) : VOp :=
  let f := i.f
  let sx := ((s.ctx i.c).getA (fld f 31 28)).toNat
  let v := fld f 27 22; let nr := fld f 19 16 + 1
  { unit := 3, lane := 30, late := [kindsOk (s.ctx i.c) sx nr [4]],
    free := fun s => (⟨false, false, .fp32, v, 0⟩ : Opnd).free s i.c nr,
    checks := [recsOk sx nr],
    foot := ⟨[], [(v, true)]⟩, recs := (List.range nr).map (sx + ·),
    bad := fun s => recsBad s i.c sx nr,
    act := fun s =>
      let comp : Fl (List (Rec × XF)) := (List.range nr).mapM fun r => rfinRow ((s.ctx i.c).record (sx + r))
      let (rs, bits) := comp.run 0
      s.modCtx i.c fun x =>
        let x := putElems x v 32 (rs.map fun q => (enc32 q.2).toNat)
        (rs.zipIdx.foldl (fun (x : Ctx) (q : (Rec × XF) × Nat) => x.setRec (sx + q.2) q.1.1) x).sticky bits }

def rfinBody (i : Ins) (s : State) : IRes := (rfinOp i s).run i s

/-! ## SMST and SMLD (R145) -/

/-- SMST, taken apart. -/
def smstOp (i : Ins) (s : State) : VOp :=
  let f := i.f
  let g := ((s.ctx i.c).getA (fld f 43 40)).toNat; let sx := ((s.ctx i.c).getA (fld f 39 36)).toNat
  let n := fld f 35 24 + 1
  { unit := 3, lane := 30, late := [], free := fun s => s.freeRange i.c (gloc g) (16 * n),
    checks := [need (g % 16 == 0) 0x64 3 g, s.ownFault i.c g (16 * n) 0x63 3, recsOk sx n],
    foot := ⟨[⟨gloc g, gloc g + 16 * n, true⟩], []⟩, recs := (List.range n).map (sx + ·),
    bad := fun s => recsBad s i.c sx n,
    act := fun s => s.ownStore (gloc g)
      ((List.range n).flatMap fun k => le 16 (SMap.getD (s.ctx i.c).side (sx + k) 0).toNat) }

def smBody (load : Bool) (i : Ins) (s : State) : IRes :=
  let f := i.f
  let g := ((s.ctx i.c).getA (fld f 43 40)).toNat; let sx := ((s.ctx i.c).getA (fld f 39 36)).toNat
  let n := fld f 35 24 + 1
  let checks := [need (g % 16 == 0) 0x64 3 g, s.ownFault i.c g (16 * n) 0x63 3, recsOk sx n]
  if load then
    match firstFault checks with
    | some x => .fault (s.freeSide i.c (((List.range n).map (sx + ·)).filter (· < 4096))) x
    | none =>
      s.enterUnit i 30 ⟨[⟨gloc g, gloc g + 16 * n, false⟩], []⟩ [] <|
      if s.poisoned (gloc g) (16 * n) then .fault (s.freeSide i.c ((List.range n).map (sx + ·))) (faultOf 0x67 3 g)
      else
        let vs := (List.range n).map fun k => BitVec.ofNat 128 (leNat (s.read (gloc g + 16 * k) 16))
        let good := vs.takeWhile fun v => fld v 127 124 ≤ 5
        let s := s.modCtx i.c fun x => good.zipIdx.foldl (fun (x : Ctx) (y : BitVec 128 × Nat) => x.setSide (sx + y.2) y.1) x
        if good.length = n then .done s
        else .fault (s.freeSide i.c ((List.range (n - good.length)).map (sx + good.length + ·))) (faultOf 0x66 3)
  else (smstOp i s).run i s

/-! ### The rows -/

def runNormf (c : Nat) (f : Frame) (s : State) : State := s.issueCore c f (normDec false f) (normRegs false f) (normBody false)
def runNormb (c : Nat) (f : Frame) (s : State) : State := s.issueCore c f (normDec true f) (normRegs true f) (normBody true)
def runSmaxf (c : Nat) (f : Frame) (s : State) : State := s.issueCore c f (smaxDec false f) (smaxRegs false f) (smaxBody false)
def runSmaxb (c : Nat) (f : Frame) (s : State) : State := s.issueCore c f (smaxDec true f) (smaxRegs true f) (smaxBody true)
def runRstat (c : Nat) (f : Frame) (s : State) : State := s.issueCore c f (rstatDec f) [fld f 47 44] rstatBody
def runRfin (c : Nat) (f : Frame) (s : State) : State :=
  s.issueCore c f (decodeCheck f 0x68 [(127, 32), (21, 20)]) [fld f 31 28] rfinBody
def runSmst (c : Nat) (f : Frame) (s : State) : State :=
  s.issueCore c f (decodeCheck f 0x68 [(127, 44), (23, 16)]) [fld f 43 40, fld f 39 36] (smBody false)
def runSmld (c : Nat) (f : Frame) (s : State) : State :=
  s.issueCore c f (decodeCheck f 0x68 [(127, 44), (23, 16)]) [fld f 43 40, fld f 39 36] (smBody true)

def execNormf (c : Nat) (f : Frame) (s : State) : Host.Outcome State Fault Refusal := .next (s.startOp 0x80 c f (runNormf c f))
def execNormb (c : Nat) (f : Frame) (s : State) : Host.Outcome State Fault Refusal := .next (s.startOp 0x81 c f (runNormb c f))
def execSmaxf (c : Nat) (f : Frame) (s : State) : Host.Outcome State Fault Refusal := .next (s.startOp 0x84 c f (runSmaxf c f))
def execSmaxb (c : Nat) (f : Frame) (s : State) : Host.Outcome State Fault Refusal := .next (s.startOp 0x85 c f (runSmaxb c f))
def execRstat (c : Nat) (f : Frame) (s : State) : Host.Outcome State Fault Refusal := .next (s.startOp 0x88 c f (runRstat c f))
def execRfin (c : Nat) (f : Frame) (s : State) : Host.Outcome State Fault Refusal := .next (s.startOp 0x89 c f (runRfin c f))
def execSmst (c : Nat) (f : Frame) (s : State) : Host.Outcome State Fault Refusal := .next (s.startOp 0x8C c f (runSmst c f))
def execSmld (c : Nat) (f : Frame) (s : State) : Host.Outcome State Fault Refusal := .next (s.startOp 0x8D c f (runSmld c f))

end Sys2Proof.Machine
end

