-- ==== Sys2Proof/Machine/Attention.lean ====
section
/-! DEFINITION. Sys2Proof/Machine/Attention.lean: the attention class: ATTF, ATTB, KVOP and the walks (R215 to R235). -/

namespace Sys2Proof.Machine

/-! ## Descriptor and entries (R226, R227) -/

def AttDesc.of (d : List Byte) : AttDesc :=
  { pool := rd d 0 1, qfmt := (Fmt.ofCode (rd d 1 1)).getD .xw, ofmt := (Fmt.ofCode (rd d 2 1)).getD .xw,
    kind := rd d 3 1 % 4, bmen := rd d 3 1 / 4 % 2 == 1, tau := BitVec.ofNat 32 (rd d 4 4), win := rd d 8 4,
    ftok := rd d 0xC 4, q := gloc (rd d 0x10 8), o := gloc (rd d 0x18 8), l := gloc (rd d 0x20 8), dO := gloc (rd d 0x28 8),
    dD := gloc (rd d 0x30 8), dq := gloc (rd d 0x38 8), dv := gloc (rd d 0x40 8), bm := gloc (rd d 0x48 8),
    bmstr := rd d 0x50 4, rstr := rd d 0x54 4, ring := gloc (rd d 0x58 8), park := gloc (rd d 0x60 8),
    rslots := rd d 0x68 1, pfd := rd d 0x69 1, npark := rd d 0x6A 1, eflag := rd d 0x6C 2 }

def AttEntry.of (d : List Byte) : AttEntry :=
  { seq := rd d 0 4, qpos := rd d 4 4, nrows := rd d 8 1, kvh := rd d 9 1, posm := rd d 0xA 1 % 2 == 1,
    cont := rd d 0xA 1 / 2 % 2 == 1, qoff := rd d 0xC 4, ooff := rd d 0x10 4, loff := rd d 0x14 4, arg := rd d 0x18 4,
    page := rd d 0x1C 4 }

/-- Checks of the descriptor (R226, R234). -/
def descFault (s : State) (c : Nat) (bwd : Bool) (mode : Nat) (d : List Byte) : Option FaultInfo :=
  let x := AttDesc.of d
  match s.kvPool x.pool with
  | none => some (faultOf 0x96 4)
  | some q =>
    if x.pool > 15 || q.phase != 2 then some (faultOf 0x96 4) else
    let es := q.fmt.bytes
    let pfd := if x.pfd = 0xFF then q.pfd else x.pfd
    let base (off : Nat) : List (Option FaultInfo) := [need (rd d off 8 % 16 == 0) 0x94 4 (rd d off 8)]
    firstFault ([need (rd d 3 1 < 8 && rd d 0x6B 1 == 0 && (List.range 18).all fun i => rd d (0x6E + i) 1 == 0) 0x98 4,
      need (pairs q.fmt x.qfmt && x.ofmt.isOut) 0x91 4,
      need ((dec32 x.tau).isFinite && (x.kind != 2 || (1 ≤ x.win && x.win < 2 ^ 31)) &&
        (x.kind != 3 || (1 ≤ x.ftok && x.ftok < 2 ^ 31)) && (x.pfd ≤ 32 || x.pfd == 0xFF) &&
        decide (4 + pfd ≤ x.rslots) && x.rslots ≤ 64 && x.npark ≤ 4 && (x.eflag < 4096 || x.eflag == 0xFFFF)) 0x92 4,
      need (rd d 0x58 8 % 4096 == 0) 0x94 4 (rd d 0x58 8), need (rd d 0x60 8 % 4096 == 0) 0x94 4 (rd d 0x60 8),
      s.ownFault c (rd d 0x58 8) (x.rslots * 32 * q.hdim * es + 4096) 0x93 4,
      s.ownFault c (rd d 0x60 8) ((x.npark + 1) * 128 * q.hdim) 0x93 4,
      need (decide (x.ring < spadBase)) 0x93 4 (rd d 0x58 8), need (decide (x.park < spadBase)) 0x93 4 (rd d 0x60 8)] ++
      base 0x10 ++ base 0x20 ++ (if bwd && mode = 1 then [] else base 0x18) ++
      (if bwd then base 0x28 ++ base 0x30 ++ base 0x38 ++ (if mode = 1 then base 0x40 else []) else []) ++
      (if x.bmen then base 0x48 else []))

/-- Query rows an entry reads. -/
def AttEntry.rows (bwd : Bool) (mode : Nat) (e : AttEntry) : Nat := if bwd && mode = 1 then e.arg else e.nrows

/-- Checks of one entry, with its predecessor (R227, R230). [DEDUCED, log 32] -/
def entryCheck (s : State) (c : Nat) (bwd : Bool) (mode : Nat) (d b : List Byte) (prev : Option AttEntry) :
    Option FaultInfo :=
  let x := AttDesc.of d; let e := AttEntry.of b
  let key := bwd && mode == 1
  match s.kvPool x.pool with
  | none => some (faultOf 0x96 4)
  | some q =>
    let es := x.qfmt.bytes; let os := State.attOsz x
    let rows (off add n len : Nat) : Option FaultInfo := s.rowsFault c (rd d off 8 + add) x.rstr n len 0x93 4
    let n := e.rows bwd mode
    firstFault [need (nfld e.seq 27 20 == 0 && rd b 0xA 1 < 4 && rd b 0xB 1 == 0 && (!key || e.nrows == 0) && (key || e.page == 0) &&
        (bwd || e.arg < 4096)) 0x98 4,
      need ((key || (1 ≤ e.nrows && e.nrows ≤ 16)) && decide (e.kvh < q.heads) && (key || !e.cont) && !(key && e.posm) &&
        (bwd || e.arg + e.nrows ≤ 4096) && (!bwd || key || e.arg == 0) && (!key || (1 ≤ e.arg && e.arg ≤ 2 ^ 24)) &&
        (!e.cont || (match prev with
          | some p => p.seq == e.seq && p.page == e.page && p.kvh == e.kvh | none => false))) 0x92 4,
      need (e.seq / 2 ^ 28 == x.pool) 0x96 4,
      rows 0x10 e.qoff n (q.hdim * es), s.ownFault c (rd d 0x20 8 + e.loff) (4 * n) 0x93 4,
      if bwd then rows 0x28 e.qoff n (q.hdim * es) else none,
      if bwd then s.ownFault c (rd d 0x30 8 + e.loff) (4 * n) 0x93 4 else none,
      if !bwd then rows 0x18 (if Config.outRowAtQoff then e.qoff else e.ooff) n (q.hdim * os) else none,
      if bwd && !key then rows 0x18 e.ooff n (q.hdim * os) else none,
      if bwd then rows 0x38 e.ooff (if key then 16 else n) (q.hdim * os) else none,
      if key then rows 0x40 e.ooff 16 (q.hdim * os) else none]

/-! ## Visibility (R216, R217) -/

/-- Position of query row `r`. -/
def AttEntry.pos (e : AttEntry) (r : Nat) : Nat := if e.posm then e.qpos else e.qpos + r

/-- May position `i` see key `j` by the mask kind? -/
def maskSees (d : AttDesc) (i j : Nat) : Bool :=
  match d.kind with
  | 0 => true
  | 1 => decide (j ≤ i)
  | 2 => decide ((i : Int) - d.win < j) && decide (j ≤ i)
  | _ => decide (j / max d.ftok 1 ≤ i / max d.ftok 1)

/-- Is key `j` visible to position `i` in a walk that latched length `len`? -/
def visible (s : State) (d : AttDesc) (len i j : Nat) : Bool :=
  decide (j < len) && maskSees d i j &&
  (!d.bmen || (s.mem.byte (d.bm + i / 16 * d.bmstr + j / 128)).getLsbD (j / 16 % 8))

/-- The fed tiles of rows at positions `ps`. -/
def fedTiles (s : State) (d : AttDesc) (len : Nat) (ps : List Nat) : List Nat :=
  (List.range ((len + 15) / 16)).filter fun t =>
    (List.range 16).any fun k => ps.any fun i => visible s d len i (16 * t + k)

/-- The bitmap rows that positions `ps` read. -/
def bitmapRows (d : AttDesc) (len : Nat) (ps : List Nat) : List (Nat × Nat) :=
  if d.bmen && len != 0 then ((ps.map (· / 16)).eraseDups).map fun q => (d.bm + q * d.bmstr, (len + 127) / 128) else []

/-! ## The arithmetic of a walk (R220, R221, R229, R230) -/

/-- One product of a row against a panel column, in row `r` of a core tile. -/
def matDot (r : Nat) (f : Fmt) (p : Pair) (act pan : List XF) : Fl Pair := do
  let q := accumulate false p (act.map some) (pan.map some) f.kc ((act.length + f.kc - 1) / f.kc)
  if q.2 then raise (flagEng (r / 4 % 4))
  return q.1

/-- An output read as FP32. -/
def matVal (r : Nat) (p : Pair) : Fl XF := do
  let q := enc32f p.value
  if q.2 then raise (flagEng (r / 4 % 4))
  return dec32 q.1

/-- A value converted to a format and back, with its flags. -/
def cvtTo (f : Fmt) (x : XF) : Fl XF := do
  let q := convert f x
  raise (cvtBits q.2 flagVovf)
  return decElem f q.1

/-- Keys and values of one tile, 16 rows each. -/
structure Tile where
  no   : Nat
  keys : List (List XF)
  vals : List (List XF)

/-- Scores of a row against a list of tiles. -/
def scores (r : Nat) (pf : Fmt) (tau : XF) (q : List XF) (ts : List Tile) : Fl (List XF) :=
  (ts.flatMap (·.keys)).mapM fun k => do
    let a ← matDot r pf Pair.zero q k
    let x ← matVal r a
    vecEng.rn [tau, x] (tau.mul x)

/-- Column `e` of the value rows of a list of tiles. -/
def valCol (ts : List Tile) (e : Nat) : List XF := ts.flatMap fun t => t.vals.map fun v => (v[e]?).getD (.zero false)
def keyCol (ts : List Tile) (e : Nat) : List XF := ts.flatMap fun t => t.keys.map fun v => (v[e]?).getD (.zero false)

/-- Blocks of four tiles. -/
def blocksOf4 (ts : List Tile) : List (List Tile) :=
  (((ts.map fun t => t.no / 4).eraseDups).map fun b => ts.filter fun t => t.no / 4 == b)

/-- ATTF on one row: its record at the end, and the output values. -/
def fwdRow (r hd : Nat) (pf : Fmt) (tau : XF) (q : List XF) (blocks : List (List Tile)) (sees : Nat → Bool) :
    Fl (Rec × List XF) := do
  let start : Rec := ⟨0xFF800000, 0, 0, 4, false⟩
  let (rc, o) ← blocks.zipIdx.foldlM (fun (a : Rec × List Pair) b => do
    let sc ← scores r pf tau q b.1
    let sc := (sc.zip (b.1.flatMap fun t => (List.range 16).map fun k => 16 * t.no + k)).map fun x =>
      if sees x.2 then x.1 else .inf true
    let (rc, al, p) ← rstatRow a.1 sc
    let p ← p.mapM (cvtTo pf)
    let o ← if b.2 = 0 then pure a.2 else a.2.mapM fun t => do
      let x ← vecEng.rn [al, dec32 t.s] (al.mul (dec32 t.s))
      let y ← vecEng.rn [al, dec32 t.c] (al.mul (dec32 t.c))
      return (⟨enc32 x, enc32 y⟩ : Pair)
    let o ← o.zipIdx.mapM fun t => matDot r pf t.1 p (valCol b.1 t.2)
    return (rc, o)) (start, List.replicate hd Pair.zero)
  let (rc, inv) ← rfinRow rc
  let out ← o.mapM fun t => do
    let x ← matVal r t
    vecEng.rn [x, inv] (x.mul inv)
  return (rc, out)

/-- p and ds of a row against tiles (R229): the first is +0 where a key is not visible or the row is empty. -/
def backProbs (r : Nat) (pf : Fmt) (tau lse dd : XF) (q dO : List XF) (ts : List Tile) (sees : Nat → Bool) :
    Fl (List XF × List XF) := do
  let low := lse == .inf true
  let sc ← scores r pf tau q ts
  let p ← (sc.zip (ts.flatMap fun t => (List.range 16).map fun k => 16 * t.no + k)).mapM fun x => do
    if low || !sees x.2 then return .zero false
    else
      let d ← vecEng.rn [x.1, lse] (x.1.sub lse)
      vecEng.rn [d] d.exp
  let ds ← (p.zip (ts.flatMap (·.vals))).mapM fun x => do
    if low then return .zero false
    else
      let a ← matDot r pf Pair.zero dO x.2
      let dp ← matVal r a
      let t ← vecEng.rn [dp, dd] (dp.sub dd)
      let y ← vecEng.rn [x.1, t] (x.1.mul t)
      cvtTo pf y
  return (p, ds)

/-- ATTB MODE 0 on one row: D and dQ. -/
def backRow (r hd : Nat) (pf : Fmt) (tau lse : XF) (q dO o : List XF) (blocks : List (List Tile)) (sees : Nat → Bool) :
    Fl (XF × List XF) := do
  let ms ← (dO.zip o).mapM fun x => vecEng.rn [x.1, x.2] (x.1.mul x.2)
  let dp ← vecEng.psum Pair.zero ms
  let dd ← vecEng.pval dp
  let acc ← blocks.foldlM (fun (a : List Pair) b => do
    let (_, ds) ← backProbs r pf tau lse dd q dO b sees
    if lse == .inf true then return a
    else a.zipIdx.mapM fun t => matDot r pf t.1 ds (keyCol b t.2)) (List.replicate hd Pair.zero)
  let out ← acc.mapM fun t => do
    if lse == .inf true then return .zero false
    else
      let x ← matVal r t
      vecEng.rn [tau, x] (tau.mul x)
  return (dd, out)

namespace State

/-! ## Reading rows -/

/-- `n` elements of a row in own memory. -/
def elems (s : State) (f : Fmt) (a n : Nat) : List XF := (List.range n).map fun k => s.elemAt f ((a + k * f.bytes) * 8) none

def f32At (s : State) (a : Nat) : XF := dec32 (BitVec.ofNat 32 (leNat (s.read a 4)))

/-- Decode an element row from bytes. -/
def rowOf (f : Fmt) (bs : List Byte) (n : Nat) : List XF :=
  (List.range n).map fun k => decElem f (rd bs (k * f.bytes) f.bytes)

/-- Store converted values as a row. -/
def putRow (s : State) (c : Nat) (f : Fmt) (a : Nat) (vs : List XF) : State :=
  let cs := vs.map fun v => convert f v
  (s.ownStore a (cs.flatMap fun x => le f.bytes x.1)).setFlags c (cs.foldl (fun b x => b ||| cvtBits x.2 flagVovf) 0)

/-! ## Walks (R215, R219) -/

def attn (s : State) (c : Nat) : Option Attn := (s.ctx c).attn
def modAttn (s : State) (c : Nat) (g : Attn → Attn) : State := s.modCtx c fun x => { x with attn := x.attn.map g }
def setWalk (s : State) (c e : Nat) (w : Walk) : State := s.modAttn c fun a => { a with walks := a.walks.set e w }

/-- Start the walk of an entry: latch the record, or set the entry aside until the record arrives. -/
def beginWalk (s : State) (c : Nat) (a : Attn) (ix : Nat) : Except FaultInfo State :=
  match a.entries[ix]? with
  | none => .ok s
  | some e =>
    match s.kvPool a.desc.pool, s.kvSeq e.seq with
    | some q, some r =>
      if q.phase != 2 then .error (faultOf 0x96 4)
      else if a.bwd && a.mode = 1 && (r.len + 15) / 16 ≤ e.page then .error (faultOf 0x92 4)
      else
        match s.useSeq e.seq r with
        | none => .ok (s.setWalk c ix ⟨1, 0, 0⟩)
        | some s =>
          let s : State := { s with kv := { s.kv with
            latches := s.kv.latches ++ [⟨.walk a.uid ix, e.seq, r.len, r.ver, r.pages⟩] } }
          .ok (s.setWalk c ix ⟨2, r.len, r.ver⟩)
    | _, _ => .error (faultOf 0x96 4)

/-- Start the next unstarted entry when none is under way. -/
def nextWalk (s : State) (c : Nat) : Except FaultInfo State :=
  match s.attn c with
  | none => .ok s
  | some a =>
    if a.walks.any fun w => w.phase == 1 || w.phase == 2 then .ok s else
    match a.walks.findIdx? fun w => w.phase == 0 with
    | some ix => s.beginWalk c a ix
    | none => .ok s

/-- What an attention instruction uses for itself holds nothing that is defined, from its start to its end: no bank is live, v30 to v63 and
the bytes of the ring and of the park slots are free (R218, R219, R228, R232). [DEDUCED, log 38] -/
def attnFree (s : State) (c : Nat) (a : Attn) : State :=
  let hd := match s.kvPool a.desc.pool with | some q => q.hdim | none => 0
  let es := match s.kvPool a.desc.pool with | some q => q.fmt.bytes | none => 0
  let s := s.modCtx c fun x => { x with mx := iterate 4 x.mx fun b m => m.release b }
  let s := (s.freeAcc c ((List.range 4).flatMap fun b => (List.range 16).flatMap (tileKeys b))).freeVregs c
    ((List.range 34).map (30 + ·))
  (s.forget a.desc.ring (a.desc.ring + a.desc.rslots * 32 * hd * es + 4096)).forget a.desc.park
    (a.desc.park + (a.desc.npark + 1) * 128 * hd)

/-- The instruction completes when every entry has finished (R228). [DEDUCED, log 38] -/
def endAttn (s : State) (c : Nat) : State :=
  match s.attn c with
  | none => s
  | some a =>
    if a.walks.all fun w => w.phase == 3 then (s.attnFree c a).modCtx c fun x => { x with attn := none } else s

/-- Mark an entry finished: its latch goes, its flag rises. -/
def walkEnd (s : State) (c : Nat) (a : Attn) (ix : Nat) (w : Walk) (keep : Bool) : State :=
  let s := if keep then s else s.releaseLatch fun l => match l with
    | .walk u k => u == a.uid && (k == ix || (a.bwd && a.mode == 1 && k < ix &&
        (((a.entries.drop (k + 1)).take (ix - k)).all fun e => e.cont)))
    | .stream _ => false
  let s := s.setWalk c ix { w with phase := 3 }
  if a.desc.eflag = 0xFFFF then s else
  let h := (s.core c).holder
  let after := (s.works c h).filterMap fun k => if k.uid != a.uid && (k.writes || k.out) then some k.uid else none
  (s.signal (.core c h a.pc a.frame) (.here c a.desc.eflag) false 1 after).2

/-- Where the keys and values of a page lie, in the version latched. -/
def pageRanges (s : State) (q : KvPool) (e : AttEntry) (pages : SMap Nat) (p : Nat) : Option (List (Nat × Nat)) :=
  match (SMap.get? pages p).bind (q.frameAddr s.fab.devnum) with
  | some a =>
    let n := 16 * q.rowBytes
    some [(a + e.kvh * n, n), (a + q.heads * n + e.kvh * n, n)]
  | none => none

/-- The tiles a fetch has brought, in order of `ps`. The walk visits only tokens below `len` (R215): the others are +0.
[DEDUCED, log 39] -/
def tilesOf (f : Fetch) (q : KvPool) (len : Nat) (ps : List Nat) : List Tile :=
  let rb := q.rowBytes
  ps.zipIdx.map fun p =>
    let row (b k : Nat) : List XF :=
      if 16 * p.1 + k < len then rowOf q.fmt ((f.data (p.2 * 32 * rb + (b + k) * rb) rb).map (·.1)) q.hdim
      else List.replicate q.hdim (.zero false)
    ⟨p.1, (List.range 16).map (row 0), (List.range 16).map (row 16)⟩

/-- The walker staged these pages: their last-access ticks (R213, R218). -/
def touchPages (s : State) (pool : Nat) (pages : SMap Nat) (ps : List Nat) : State :=
  match s.kvPool pool with
  | some q =>
    let fs := ps.foldl (fun (m : SMap FrameRec) p =>
      match (SMap.get? pages p).bind fun e => (SMap.get? m e).map fun f => (e, f) with
      | some (e, f) => SMap.put m e { f with tick := s.kvTick }
      | none => m) q.frames
    s.setPool pool { q with frames := fs }
  | none => s

/-- Poison among a list of own ranges. -/
def badRange (s : State) (rs : List (Nat × Nat)) : Option Nat :=
  rs.findSome? fun r => if s.poisoned r.1 r.2 then some r.1 else none

/-- The query rows a walk reads: of MODE 1 the groups in which a key of the page is visible, else all where a tile is fed (R217, R230). -/
def rowsRead (s : State) (a : Attn) (e : AttEntry) (len : Nat) (tiles : List Nat) : List Nat :=
  if a.bwd && a.mode == 1 then
    (List.range e.arg).filter fun r => (List.range 16).any fun k => 16 * (r / 16) + k < e.arg &&
      (List.range 16).any fun t => visible s a.desc len (e.qpos + 16 * (r / 16) + k) (16 * e.page + t)
  else if tiles.isEmpty then [] else List.range e.nrows

/-- The ranges a walk reads: Q rows and, backward, dO rows, log-sum-exp and D of the rows `rs`; MODE 0 forms D from dO and O of every
row (R229). -/
def rowRanges (a : Attn) (e : AttEntry) (hd : Nat) (rs : List Nat) : List (Nat × Nat) :=
  let d := a.desc
  let es := d.qfmt.bytes
  (rs.flatMap fun r =>
    (d.q + e.qoff + r * d.rstr, hd * es) ::
    (if a.bwd then [(d.dO + e.qoff + r * d.rstr, hd * es), (d.l + e.loff + 4 * r, 4)] ++
      (if a.mode = 1 then [(d.dD + e.loff + 4 * r, 4)] else []) else [])) ++
  if a.bwd && a.mode = 0 then (List.range e.nrows).flatMap fun r =>
    [(d.dO + e.qoff + r * d.rstr, hd * es), (d.o + e.ooff + r * d.rstr, hd * attOsz d)] else []

/-- Does the page table in memory differ, for one of these pages, from what the KV manager wrote (R203)?
[DEDUCED, log 188] -/
def tableBent (s : State) (q : KvPool) (ref : Nat) (ps : List Nat) : Bool :=
  match s.kvSeq ref with
  | some r => ps.any fun p =>
      leNat (s.read (q.tblBase + (ref % 2 ^ 20 * q.maxPages + p) * 4) 4) != SMap.getD r.pages p noFrame
  | none => false

/-- The output rows of an entry. -/
def outAreas (a : Attn) (e : AttEntry) (hd : Nat) : List (Nat × Nat) :=
  let d := a.desc
  let n := hd * attOsz d
  if !a.bwd then (List.range e.nrows).flatMap fun r => [(attOutRow d e r, n), (d.l + e.loff + 4 * r, 4)]
  else if a.mode = 0 then (List.range e.nrows).flatMap fun r => [(d.dD + e.loff + 4 * r, 4), (d.dq + e.ooff + r * d.rstr, n)]
  else (List.range 16).flatMap fun t => [(d.dq + e.ooff + t * d.rstr, n), (d.dv + e.ooff + t * d.rstr, n)]

/-- Effect of a finished forward entry. -/
def fwdEntry (s : State) (c : Nat) (a : Attn) (e : AttEntry) (w : Walk) (q : KvPool) (ts : List Tile) : State :=
  let d := a.desc
  (List.range e.nrows).foldl (fun (s : State) r =>
    let row := s.elems d.qfmt (d.q + e.qoff + r * d.rstr) q.hdim
    let ((rc, out), bits) := (fwdRow r q.hdim q.fmt (dec32 d.tau) row (blocksOf4 ts)
      (visible s d w.len (e.pos r))).run 0
    let s := (s.putRow c d.ofmt (attOutRow d e r) out).ownStore (d.l + e.loff + 4 * r) (le 4 rc.b.toNat)
    (s.modCtx c fun x => x.setRec (e.arg % 4096 + r) rc).setFlags c bits) s

/-- Effect of a finished entry of ATTB MODE 0. -/
def backEntry (s : State) (c : Nat) (a : Attn) (e : AttEntry) (w : Walk) (q : KvPool) (ts : List Tile) : State :=
  let d := a.desc
  (List.range e.nrows).foldl (fun (s : State) r =>
    let at' (b : Nat) : List XF := s.elems d.qfmt (b + e.qoff + r * d.rstr) q.hdim
    let ((dd, dq), bits) := (backRow r q.hdim q.fmt (dec32 d.tau) (s.f32At (d.l + e.loff + 4 * r)) (at' d.q) (at' d.dO)
      (s.elems d.ofmt (d.o + e.ooff + r * d.rstr) q.hdim) (blocksOf4 ts) (visible s d w.len (e.pos r))).run 0
    ((s.ownStore (d.dD + e.loff + 4 * r) (le 4 (enc32 dd).toNat)).putRow c d.ofmt (d.dq + e.ooff + r * d.rstr) dq).setFlags
      c bits) s

/-- The sums of one entry of ATTB MODE 1, continued from `acc`: dK and dV, key token by key token. -/
def keySums (s : State) (a : Attn) (e : AttEntry) (w : Walk) (q : KvPool) (t : Tile)
    (acc : List (List Pair) × List (List Pair)) : Fl (List (List Pair) × List (List Pair)) :=
  let d := a.desc
  (List.range ((e.arg + 15) / 16)).foldlM (fun (acc : List (List Pair) × List (List Pair)) g => do
    let rows := (List.range 16).filterMap fun k => if 16 * g + k < e.arg then some (16 * g + k) else none
    if !(rows.any fun r => (List.range 16).any fun k => visible s d w.len (e.qpos + r) (16 * t.no + k)) then return acc
    else
      let ps ← rows.mapM fun r =>
        backProbs r q.fmt (dec32 d.tau) (s.f32At (d.l + e.loff + 4 * r)) (s.f32At (d.dD + e.loff + 4 * r))
          (s.elems d.qfmt (d.q + e.qoff + r * d.rstr) q.hdim) (s.elems d.qfmt (d.dO + e.qoff + r * d.rstr) q.hdim) [t]
          (visible s d w.len (e.qpos + r))
      let col (b el : Nat) : List XF := rows.map fun r => s.elemAt d.qfmt ((b + e.qoff + r * d.rstr + el * d.qfmt.bytes) * 8) none
      let at' (l : List XF) (k : Nat) : XF := (l[k]?).getD (.zero false)
      let dk ← acc.1.zipIdx.mapM fun k => k.1.zipIdx.mapM fun x =>
        matDot k.2 d.qfmt x.1 (ps.map fun p => at' p.2 k.2) (col d.q x.2)
      let dv ← acc.2.zipIdx.mapM fun k => do
        let pk ← ps.mapM fun p => cvtTo q.fmt (at' p.1 k.2)
        k.1.zipIdx.mapM fun x => matDot k.2 d.qfmt x.1 pk (col d.dO x.2)
      return (dk, dv)) acc

/-- Effect of a finished group of entries of ATTB MODE 1, each with its latch and its tile. [DEDUCED, log 37] -/
def keyGroup (s : State) (c : Nat) (a : Attn) (q : KvPool) (es : List (AttEntry × Walk × Tile)) : State :=
  let d := a.desc
  let zero : List (List Pair) := List.replicate 16 (List.replicate q.hdim Pair.zero)
  let ((dk, dv), bits) := (es.foldlM (fun acc x => s.keySums a x.1 x.2.1 q x.2.2 acc) (zero, zero)).run 0
  match es.getLast? with
  | none => s
  | some (e, w, _) =>
    (List.range 16).foldl (fun (s : State) t =>
      if w.len ≤ t + 16 * e.page then s else
      let comp : Fl (List XF × List XF) := do
        let k ← ((dk[t]?).getD []).mapM fun x => do
          let y ← matVal t x
          vecEng.rn [y] ((dec32 d.tau).mul y)
        let v ← ((dv[t]?).getD []).mapM (matVal t)
        return (k, v)
      let ((k, v), b) := comp.run 0
      ((s.putRow c d.ofmt (d.dq + e.ooff + t * d.rstr) k).putRow c d.ofmt (d.dv + e.ooff + t * d.rstr) v).setFlags c b)
      (s.setFlags c bits)

/-- Faults of the data a walk is about to use, and of rows it would write into a frozen range (R363): `ps` are the positions of its rows, `rs` the rows it reads. -/
def walkFault (s : State) (c : Nat) (a : Attn) (e : AttEntry) (len hd : Nat) (ps rs : List Nat) : Option FaultInfo :=
  let bm := bitmapRows a.desc len ps
  firstFault [bm.findSome? fun r => s.ownFault c (s.fab.devnum * 2 ^ 48 + r.1) r.2 0x93 4,
    (s.badRange (bm ++ rowRanges a e hd rs)).map fun x => faultOf 0x97 4 (s.fab.devnum * 2 ^ 48 + x),
    s.frozenFault 4 (outAreas a e hd)]

/-- Let the walk of an entry finish, if it can. [DEDUCED, log 38, 188] -/
def walkComplete (s : State) (c ix : Nat) : State :=
  match s.attn c with
  | none => s
  | some a =>
    if !s.running c then s else
    let fail (s : State) (i : FaultInfo) : State := s.fault c a.pc a.frame i
    match a.entries[ix]?, a.walks[ix]? with
    | some e, some w =>
      if w.phase = 3 then s
      else if w.phase ≤ 1 then
        -- an entry starts while others wait: at most NPARK of them (R219)
        let going := (a.walks.filter fun x => x.phase == 2).length
        if w.phase = 0 && a.desc.npark < going then s
        else if e.cont && (match ix with | 0 => false | k + 1 => match a.walks[k]? with | some x => x.phase != 3 | none => false) then s
        else match s.beginWalk c a ix with
          | .ok s => s
          | .error i => fail s i
      else
        match s.kvPool a.desc.pool, s.kv.latches.find? fun l => l.holder == .walk a.uid ix with
        | some q, some lt =>
          let key := a.bwd && a.mode == 1
          let ps := (List.range (e.rows a.bwd a.mode)).map e.pos
          let tiles := if key then [] else fedTiles s a.desc w.len ps
          let rows := s.rowsRead a e w.len tiles
          let tiles := if key && !rows.isEmpty then [e.page] else tiles
          match s.walkFault c a e w.len q.hdim ps rows with
          | some i => fail s i
          | none =>
            match (tiles.map fun p => s.pageRanges q e lt.pages p).mapM id with
            | none => fail s (faultOf 0x95 4)
            | some rs =>
              let fk := FetchKey.walk a.uid ix
              let s := match s.fetch? fk with
                | some _ => s
                | none => s.fetchNew fk rs.flatten 1 (some (s.core c).holder)
              match s.fetch? fk with
              | none => s
              | some f =>
                if f.missing != 0 then s
                else if f.status != St.ok then fail (s.dropFetch fk) (remoteFault 4 0 f.status)
                else if !f.pois.isEmpty then fail (s.dropFetch fk) (faultOf 0x97 4)
                else
                  let s := s.touchPages a.desc.pool lt.pages tiles
                  -- a table that another has written leaves the outputs free (R203)
                  let bent := s.tableBent q e.seq tiles
                  let f := if bent then { f with bytes := f.bytes.map fun b => (b.1, Config.freeMem s.fresh b.1) } else f
                  let s := if bent then ({ s with fresh := s.fresh + 1 }).setFetch f else s
                  let next := (a.entries[ix + 1]?).map (·.cont) |>.getD false
                  if key && next then s.walkEnd c a ix w true
                  else
                    let s :=
                      if key then
                        -- the group: this entry and the ones it continues
                        let first := ix - ((a.entries.take (ix + 1)).reverse.takeWhile fun x => x.cont).length
                        let grp := (List.range (ix + 1 - first)).filterMap fun k =>
                          match a.entries[first + k]?, a.walks[first + k]?, s.fetch? (.walk a.uid (first + k)) with
                          | some e, some w, some f => (tilesOf f q w.len [e.page]).head?.map fun t => (e, w, t)
                          | _, _, _ => none
                        let s := s.keyGroup c a q grp
                        (List.range (ix + 1 - first)).foldl (fun (s : State) k => s.dropFetch (.walk a.uid (first + k))) s
                      else
                        let ts := tilesOf f q w.len tiles
                        (if a.bwd then s.backEntry c a e w q ts else s.fwdEntry c a e w q ts).dropFetch fk
                    let s := if bent then (outAreas a e q.hdim).foldl (fun s r => s.forget r.1 (r.1 + r.2)) s else s
                    let s := s.walkEnd c a ix w false
                    match (s.endAttn c).nextWalk c with
                    | .ok s => s
                    | .error i => fail s i
        | _, _ => s
    | _, _ => s

end State

/-! ## The instructions -/

def attDec (bwd : Bool) (f : Frame) : Option FaultInfo :=
  decodeCheck f 0x98 [(127, 41), (31, 24)] (bwd || !bitOf f 40)

/-- Has the matrix unit, the vector compute pipeline or the row engine an earlier instruction that has not completed (R228)? -/
def State.busyUnit (s : State) (i : Ins) : Bool :=
  ((s.works i.c i.h).any fun w => w.unit == 1 && decide (w.uid < i.n)) ||
  (s.ctx i.c).uq.any fun q => (q.lane == 21 || q.lane == 30) && decide (q.uid < i.n)

/-- ATTF and ATTB (R224 to R228). -/
def attBody (bwd : Bool) (i : Ins) (s : State) : IRes :=
  let f := i.f
  let mode := fld f 40 40; let n := fld f 39 32 + 1
  let gl := ((s.ctx i.c).getA (fld f 23 20)).toNat; let gd := ((s.ctx i.c).getA (fld f 19 16)).toNat
  match firstFault [need (gd % 64 == 0) 0x94 4 gd, need (gl % 16 == 0) 0x94 4 gl, s.ownFault i.c gd 128 0x93 4,
      s.ownFault i.c gl (32 * n) 0x93 4] with
  | some x => .fault s x
  | none =>
    if s.fencedOff i || s.conflict i ⟨[⟨gloc gd, gloc gd + 128, false⟩, ⟨gloc gl, gloc gl + 32 * n, false⟩], []⟩ then .hold
    else if s.poisoned (gloc gd) 128 then .fault s (faultOf 0x97 4 gd)
    else if s.poisoned (gloc gl) (32 * n) then .fault s (faultOf 0x97 4 gl)
    else
      let d := s.read (gloc gd) 128
      let bs := (List.range n).map fun k => s.read (gloc gl + 32 * k) 32
      match descFault s i.c bwd mode d with
      | some x => .fault s x
      | none =>
        let es := bs.map AttEntry.of
        match bs.zipIdx.findSome? fun b =>
            entryCheck s i.c bwd mode d b.1 (if b.2 = 0 then none else es[b.2 - 1]?) with
        | some x => .fault s x
        | none =>
          let a : Attn := ⟨0, f, i.pc, bwd, mode, AttDesc.of d, es, es.map fun _ => ⟨0, 0, 0⟩⟩
          let foot := Foot.union [⟨[⟨gloc gd, gloc gd + 128, false⟩, ⟨gloc gl, gloc gl + 32 * n, false⟩], []⟩, s.attnFoot a]
          if s.boardFull i foot then .hold
          else if s.behind i 40 foot || s.busyUnit i then .queue 40 foot [] else
          let (u, s) := s.uidFor i.n
          let a := { a with uid := u }
          let s := (s.attnFree i.c a).modCtx i.c fun x => { x with attn := some a }
          match s.nextWalk i.c with
          | .ok s => .done s
          | .error x => .fault s x

/-- How many edits of a core are outstanding (R225). -/
def State.editsOut (s : State) (c h : Nat) : Nat :=
  (s.kv.edits.filter fun e => match e.src with | .core c' h' .. => c' == c && h' == h | _ => false).length +
  (s.sigs.filter fun g => match g.src with | .core c' h' _ f => c' == c && h' == h && f == 0x94 | _ => false).length

/-- KVOP (R206, R208, R225). [DEDUCED, log 33] -/
def kvopBody (i : Ins) (s : State) : IRes :=
  let g := ((s.ctx i.c).getA (fld i.f 19 16)).toNat
  match firstFault [need (g % 16 == 0) 0x94 4 g, s.ownFault i.c g 32 0x93 4] with
  | some x => .fault s x
  | none =>
    if 8 ≤ s.editsOut i.c i.h + s.queuedOps i 0x94 then .hold
    else s.enterUnit i 41 ⟨[⟨gloc g, gloc g + 32, true⟩], []⟩ [] <|
    if s.poisoned (gloc g) 16 then .fault s (faultOf 0x97 4 g)
    else
      let b := s.read (gloc g) 16
      let after := (s.works i.c i.h).filterMap fun w => if (w.writes || w.out) && w.uid < i.n then some w.uid else none
      let (u, s) := s.uidFor i.n
      .done { s with kv := { s.kv with edits := s.kv.edits ++
        [⟨u, .core i.c i.h (gloc g) (fld i.f 31 20), after, rd b 0 1, rd b 4 4, rd b 8 4,
          rd b 1 3 != 0 || rd b 0xC 4 != 0, if after.isEmpty then u + 1 else 0⟩] } }

/-! ### The rows -/

def attRegs (f : Frame) : List Nat := [fld f 23 20, fld f 19 16]

def runAttf (c : Nat) (f : Frame) (s : State) : State := s.issueCore c f (attDec false f) (attRegs f) (attBody false)
def runAttb (c : Nat) (f : Frame) (s : State) : State := s.issueCore c f (attDec true f) (attRegs f) (attBody true)
def runKvop (c : Nat) (f : Frame) (s : State) : State :=
  s.issueCore c f (decodeCheck f 0x98 [(127, 32)]) [fld f 19 16] kvopBody

def execAttf (c : Nat) (f : Frame) (s : State) : Host.Outcome State Fault Refusal := .next (s.startOp 0x90 c f (runAttf c f))
def execAttb (c : Nat) (f : Frame) (s : State) : Host.Outcome State Fault Refusal := .next (s.startOp 0x91 c f (runAttb c f))
def execKvop (c : Nat) (f : Frame) (s : State) : Host.Outcome State Fault Refusal := .next (s.startOp 0x94 c f (runKvop c f))
def execWalkComplete (c entry : Nat) (s : State) : Host.Outcome State Fault Refusal := .next (s.walkComplete c entry)

end Sys2Proof.Machine
end

