-- ==== Sys2Proof/Machine/Compress.lean ====
section
/-! DEFINITION. Sys2Proof/Machine/Compress.lean: the activation compressor's chunks (R323 to R328). -/

namespace Sys2Proof.Machine

/-! ## Bits (R89, R326) -/

/-- The `n` bits of a number, least significant first. -/
def bitsOf (n v : Nat) : List Bool := (List.range n).map fun i => v.testBit i

/-- The number bits spell, least significant first. -/
def bitsNat : List Bool → Nat
  | [] => 0
  | b :: bs => (if b then 1 else 0) + 2 * bitsNat bs

/-- Bytes that hold a bit stream, the last one padded with zeros. -/
def packBits (bs : List Bool) : List Byte :=
  (List.range ((bs.length + 7) / 8)).map fun i => BitVec.ofNat 8 (bitsNat ((bs.drop (8 * i)).take 8))

def unpackBits (bs : List Byte) : List Bool := bs.flatMap fun b => bitsOf 8 b.toNat

/-- Elements of `w` bits packed without gaps, element 0 lowest (R89). -/
def packElems (w : Nat) (es : List Nat) : List Byte := packBits (es.flatMap (bitsOf w))

def unpackElems (w n : Nat) (bs : List Byte) : List Nat :=
  let b := unpackBits bs
  (List.range n).map fun i => bitsNat ((b.drop (w * i)).take w)

/-- Pieces of a list of `k` entries each. -/
def groupsOf {α : Type} (k : Nat) : Nat → List α → List (List α)
  | 0, _ => []
  | n + 1, l => if l.isEmpty then [] else l.take k :: groupsOf k n (l.drop k)

/-! ## The group code (R326) -/

/-- Exponent and mantissa widths and the bias of a floating-point format; `none` for an integer format. -/
def expLayout : Fmt → Option (Nat × Nat × Nat)
  | .fp32 => some (8, 23, 127) | .bf16 => some (8, 7, 127) | .fp16 => some (5, 10, 15) | .e5m2 => some (5, 2, 15)
  | .e4m3 => some (4, 3, 7) | _ => none

/-- Code one nonzero element after the exponent field `p`: the bits, and the exponent field now last coded. -/
def codeElem (f : Fmt) (p e : Nat) : List Bool × Nat :=
  match expLayout f with
  | none => (bitsOf 8 e, p)
  | some (eb, mb, _) =>
    let x := e / 2 ^ mb % 2 ^ eb
    let near := x ≤ p + 7 && p ≤ x + 7
    ((if near then bitsOf 4 (x + 7 - p) else bitsOf 4 15 ++ bitsOf eb x) ++ [e.testBit (eb + mb)] ++ bitsOf mb e, x)

/-- Code one group. -/
def codeGroup (f : Fmt) (p : Nat) (g : List Nat) : List Bool × Nat :=
  if g.all (· == 0) then ([true], p) else
  (g.filter (· != 0)).foldl (fun (a : List Bool × Nat) e => let r := codeElem f a.2 e; (a.1 ++ r.1, r.2))
    (false :: g.map (· != 0), p)

def biasOf (f : Fmt) : Nat := match expLayout f with | some (_, _, b) => b | none => 0

/-- The payload of the group code. -/
def groupCode (f : Fmt) (es : List Nat) : List Byte :=
  packBits ((groupsOf 32 (es.length + 1) es).foldl
    (fun (a : List Bool × Nat) g => let r := codeGroup f a.2 g; (a.1 ++ r.1, r.2)) ([], biasOf f)).1

/-- Read one nonzero element. -/
def readElem (f : Fmt) (p : Nat) (b : List Bool) : Nat × Nat × List Bool :=
  match expLayout f with
  | none => (bitsNat (b.take 8), p, b.drop 8)
  | some (eb, mb, _) =>
    let d := bitsNat (b.take 4)
    let b := b.drop 4
    let (x, b) := if d = 15 then (bitsNat (b.take eb), b.drop eb) else ((p + d - 7) % 2 ^ eb, b)
    let sg := if b.head?.getD false then 1 else 0
    let b := b.drop 1
    (bitsNat (b.take mb) + x * 2 ^ mb + sg * 2 ^ (eb + mb), x, b.drop mb)

/-- Read the elements of a group's mask. -/
def readMask (f : Fmt) : List Bool → Nat → List Bool → List Nat × Nat × List Bool
  | [], p, b => ([], p, b)
  | false :: ms, p, b => let (es, p, b) := readMask f ms p b; (0 :: es, p, b)
  | true :: ms, p, b =>
    let (e, p, b) := readElem f p b
    let (es, p, b) := readMask f ms p b
    (e :: es, p, b)

/-- Read `n` elements of the group code. -/
def readGroups (f : Fmt) : Nat → Nat → Nat → List Bool → List Nat × List Bool
  | 0, _, _, b => ([], b)
  | k + 1, n, p, b =>
    if n = 0 then ([], b) else
    let m := min n 32
    if b.head?.getD true then
      let (es, b) := readGroups f k (n - m) p (b.drop 1)
      (List.replicate m 0 ++ es, b)
    else
      let b := b.drop 1
      let (es, p, b) := readMask f (b.take m) p (b.drop m)
      let (fs, b) := readGroups f k (n - m) p b
      (es ++ fs, b)

/-! ## Chunks (R324, R325) -/

/-- Does a SAVE's MODE, FMT and LFMT stand in the table of R324? [DEDUCED, log 58] -/
def modeOk (mode : Nat) (f l : Option Fmt) (lcode : Nat) : Bool :=
  match f with
  | none => false
  | some f =>
    let plain := (expLayout f).isSome || f == .int8 || f == .uint8
    match mode with
    | 1 | 3 => plain && lcode == 0
    | 2 => (f == .fp32 || f == .bf16 || f == .fp16) &&
        (l == some .mxe4m3 || l == some .mxe5m2 || l == some .mxe3m2 || l == some .mxe2m3)
    | 4 => (f == .fp32 || f == .bf16 || f == .fp16) && lcode == 0
    | _ => false

/-- The coded payload of a chunk's elements. -/
def codePayload (mode : Nat) (f l : Fmt) (es : List Nat) (bb : List Byte) : List Byte :=
  match mode with
  | 2 =>
    let qs := (groupsOf 32 (es.length + 1) (es.map (decElem f))).map (mxQuant l)
    qs.map (fun q => BitVec.ofNat 8 q.1) ++ packElems l.bits (qs.flatMap (·.2))
  | 3 => packBits (es.map (· != 0)) ++ packElems f.bits (es.filter (· != 0))
  | 4 => groupCode f es ++ bb
  | _ => groupCode f es

/-- A chunk's branch-bit bytes with the bits beyond its elements zero. [DEDUCED, log 59] -/
def chunkBits (n : Nat) (bb : List Byte) : List Byte := packBits ((unpackBits bb).take n)

/-- Header and payload of a chunk; `free` gives the payload's bytes when the source is poisoned. [DEDUCED, log 60] -/
def chunkOf (mode : Nat) (f l : Fmt) (src bb : List Byte) (poison : Bool) (free : Nat → Byte) : List Byte × Nat :=
  let es := unpackElems f.bits (src.length * 8 / f.bits) src
  let bb := if mode = 4 then chunkBits es.length bb else []
  let coded := codePayload mode f l es bb
  let raw := mode != 2 && decide (src.length + bb.length ≤ coded.length)
  let p := if raw then src ++ bb else coded
  let p := if poison then (List.range p.length).map free else p
  let hd := le 1 mode ++ le 1 f.code ++ le 1 (if mode = 2 then l.code else 0) ++
    le 1 ((if raw then 1 else 0) + if poison then 2 else 0) ++ le 2 es.length ++ le 2 p.length
  let units := (8 + p.length + 63) / 64
  (fit (64 * units) (hd ++ p), units + if poison then 0x8000 else 0)

/-- What a chunk restores: element bytes and branch-bit bytes, `none` where its header fits no chunk. -/
def openChunk (c : List Byte) (entry : Nat) : Option (Fmt × List Byte × List Byte × Bool) :=
  let mode := rd c 0 1; let flags := rd c 3 1; let n := rd c 4 2; let pb := rd c 6 2
  let f := Fmt.ofCode (rd c 1 1); let l := Fmt.ofCode (rd c 2 1)
  let poison := flags / 2 % 2 == 1
  if !modeOk mode f l (rd c 2 1) || 4 ≤ flags || n = 0 || 4096 < n || (8 + pb + 63) / 64 != entry % 128 ||
      poison != (entry / 0x8000 % 2 == 1) then none else
  match f with
  | none => none
  | some f =>
    let p := (c.drop 8).take pb
    let nb := (n + 7) / 8
    if flags % 2 = 1 then
      let m := n * f.bits / 8
      some (f, fit m p, if mode = 4 then fit nb (p.drop m) else [], poison)
    else match mode with
    | 2 =>
      let l := l.getD .mxe4m3
      let k := (n + 31) / 32
      let es := unpackElems l.bits n (p.drop k)
      let vs := es.zipIdx.map fun e => (convert f (withScale (decElem l e.1) (rd p (e.2 / 32) 1))).1
      some (f, packElems f.bits vs, [], poison)
    | 3 =>
      let mask := (unpackBits (p.take nb)).take n
      let es := unpackElems f.bits (mask.filter id).length (p.drop nb)
      let vs := (mask.foldl (fun (a : List Nat × List Nat) b =>
        if b then (a.1 ++ [a.2.head?.getD 0], a.2.drop 1) else (a.1 ++ [0], a.2)) ([], es)).1
      some (f, packElems f.bits vs, [], poison)
    | _ =>
      let bb := if mode = 4 then p.drop (p.length - nb) else []
      some (f, packElems f.bits (readGroups f (n + 1) n (biasOf f) (unpackBits p)).1, bb, poison)

end Sys2Proof.Machine
end

