-- ==== Sys2Proof/Machine/Conv.lean ====
section
/-! DEFINITION. Sys2Proof/Machine/Conv.lean: the convolution class: CONV, HALO and the stem instructions (R238 to R268). -/

namespace Sys2Proof.Machine

/-! ## CONV (R238 to R249) -/

/-- CBW (R238). -/
def Fmt.cbw (f : Fmt) : Nat := if f.bits = 16 then 16 else 32

/-- Checks of a convolution descriptor (R240, R251). [DEDUCED, log 41] -/
def convDescFault (d : List Byte) : Option FaultInfo :=
  let h (o : Nat) : Nat := rd d o 2
  let b (o : Nat) : Nat := rd d o 1
  let tap (dim o lim : Nat) : Option FaultInfo :=
    if b o = 0 then some (faultOf 0xA2 1)
    else if lim < b o then some ⟨0xA3, 1, 0, 0, dim + 256 * b o⟩ else none
  firstFault [need (b 0x17 == 0 && rd d 0x3C 4 == 0) 0xA8 1, tap 0 0xC 7, tap 1 0xD 15, tap 2 0xE 15,
    need ([0, 2, 4, 6, 8, 0xA, 0x1E].all (fun o => h o != 0) && [0x10, 0x11, 0x12].all (fun o => 1 ≤ b o && b o ≤ 8) &&
      [0x14, 0x15, 0x16].all (fun o => 1 ≤ b o && b o ≤ 64) &&
      decide (h 0x18 ≤ (b 0xC - 1) * b 0x14) && decide (h 0x1A ≤ (b 0xD - 1) * b 0x15) &&
      decide (h 0x1C ≤ (b 0xE - 1) * b 0x16)) 0xA2 1,
    need (match Fmt.ofCode (b 0x13), Fmt.ofCode (b 0xF) with
      | some w, some x => w.isPanel && pairs w x | _, _ => false) 0xA1 1,
    need ((match Fmt.ofCode (b 0xF) with | some x => x.isMx | none => false) || rd d 0x38 4 == 0) 0xA8 1]

def convDec (f : Frame) : Option FaultInfo :=
  let nc := fld f 58 56
  decodeCheck f 0xA8 [(127, 59)] (decide (1 ≤ nc) && decide (nc ≤ 4) && fld f 51 50 != 3 &&
    (fld f 51 50 == 2 || fld f 35 32 == 0))

def convRegs (f : Frame) : List Nat :=
  [fld f 43 40, fld f 39 36, fld f 31 28, fld f 27 24, fld f 23 20, fld f 19 16] ++
  if fld f 51 50 = 2 then [fld f 35 32] else []

/-- CONV with its descriptor and formats, taken apart (R240 to R249). -/
def convPlan (i : Ins) (s : State) (d : List Byte) (wf xf : Fmt) : Plan :=
  let f := i.f
  let nc := fld f 58 56; let ng := fld f 55 52 + 1; let init := fld f 51 50; let tile := fld f 47 44
  let wscl := areg s i.c f 43 40; let xscl := areg s i.c f 39 36; let bs := areg s i.c f 35 32
  let pos := areg s i.c f 31 28; let wadr := areg s i.c f 27 24; let xadr := areg s i.c f 23 20
  let h (o : Nat) : Nat := rd d o 2
  let b (o : Nat) : Nat := rd d o 1
  let w4 (o : Nat) : Nat := rd d o 4
  let w0 := nfld pos 15 0; let H := nfld pos 31 16; let T := nfld pos 47 32
  let mx := xf.isMx
  let cbw := xf.cbw; let ci := h 0x1E
  let cb := (ci + cbw - 1) / cbw
  let kmax := xf.kMax
  let nq := (cb * cbw + kmax - 1) / kmax
  let kp (q : Nat) : Nat := min kmax (cb * cbw - q * kmax)
  let bb := cbw * xf.bits / 8
  let strides := [w4 0x20, w4 0x24, w4 0x28, w4 0x2C]
  -- input position of output w at a tap
  let inPos (i' j l w : Nat) : Option (Nat × Nat × Nat) :=
    let t : Int := (T * b 0x10 + i' * b 0x14 : Nat) - h 0x18
    let y : Int := (H * b 0x11 + j * b 0x15 : Nat) - h 0x1A
    let x : Int := (w * b 0x12 + l * b 0x16 : Nat) - h 0x1C
    if 0 ≤ t && t < h 0 && 0 ≤ y && y < h 2 && 0 ≤ x && x < h 4 then some (t.toNat, y.toNat, x.toNat) else none
  let off (p : Nat × Nat × Nat) : Nat := p.1 * w4 0x28 + p.2.1 * w4 0x24 + p.2.2 * w4 0x20
  let row (p : Nat × Nat × Nat) (r t q : Nat) : RowSrc :=
    ⟨r, t, (List.range (kp q)).map (fun k =>
        let ch := q * kmax + k
        if ch < ci then some ((gloc xadr + off p + ch / cbw * w4 0x2C) * 8 + ch % cbw * xf.bits) else none),
      if mx then (List.range ((kp q + 31) / 32)).map fun j =>
        some (gloc xscl + (off p + (q * kmax / 32 + j) * w4 0x2C) / bb) else []⟩
  let taps := (List.range (b 0xC)).flatMap fun i' => (List.range (b 0xD)).flatMap fun j =>
    (List.range (b 0xE)).map fun l => (i', j, l)
  let posOf (g e m : Nat) : Nat := w0 + 16 * g + 4 * e + m
  let groups (tp : Nat × Nat × Nat) (q : Nat) : List (List RowSrc) :=
    (List.range ng).flatMap fun g => (List.range 4).map fun e => (List.range 4).filterMap fun m =>
      let w := posOf g e m
      if w < h 0xA then (inPos tp.1 tp.2.1 tp.2.2 w).map fun p => row p (4 * e + m) (tile + g) q else none
  let isFed (tp : (Nat × Nat × Nat) × Nat) : Bool := (groups tp.1 0).any fun g => !g.isEmpty
  let fed := taps.zipIdx.filter isFed
  let work := fed.flatMap fun tp => (List.range nq).map fun q => (tp, q)
  let todo := work.map fun x => (⟨packSlots (groups x.1.1 x.2), xf, false, kp x.2, 0, 0⟩ : PassSpec)
  let wcol (tau n q : Nat) : Nat := wadr + tau * w4 0x30 + n * w4 0x34 + q * kmax * wf.bits / 8
  let wlen (q : Nat) : Nat := ((min (kp q) (ci - q * kmax)) * wf.bits + 7) / 8
  let sbase (tau q : Nat) : Nat := wscl + tau * w4 0x38 + q * kmax / 32
  let load (u : Nat) (x : ((Nat × Nat × Nat) × Nat) × Nat) : PanelLoad :=
    ⟨0, u, f, i.pc, wf, kp x.2, nc, false, gloc (wcol x.1.2 0 x.2), w4 0x34, gloc (sbase x.1.2 x.2),
     some ((List.range nc).flatMap fun n => (List.range (kp x.2)).map fun k =>
       if x.2 * kmax + k < ci then some (gloc (wcol x.1.2 n x.2) * 8 + k * wf.bits) else none),
     s.cyc i.c, none, none, []⟩
  -- PanelLoad.cells takes the stride of the scales for generated panels
  let load (u : Nat) (x : ((Nat × Nat × Nat) × Nat) × Nat) : PanelLoad := { load u x with stride := (ci + 31) / 32 }
  let rowAddrs := (fed.flatMap fun tp => (List.range ng).flatMap fun g => (List.range 16).filterMap fun m =>
    if w0 + 16 * g + m < h 0xA then inPos tp.1.1 tp.1.2.1 tp.1.2.2 (w0 + 16 * g + m) else none).eraseDups
  let span (p : Nat × Nat) : Span := ⟨gloc p.1, gloc p.1 + p.2, false⟩
  let rowSpans := rowAddrs.flatMap fun p => (List.range cb).map fun k =>
    (xadr + off p + k * w4 0x2C, ((min cbw (ci - k * cbw)) * xf.bits + 7) / 8)
  let xsSpans := if mx then (rowAddrs.flatMap fun p => (List.range cb).map fun k =>
      (xscl + (off p + k * w4 0x2C) / bb, 1)) else []
  let wsSpans := if mx then (work.flatMap fun x => (List.range nc).map fun n =>
      (sbase x.1.2 x.2 + n * ((ci + 31) / 32), (kp x.2 + 31) / 32)) else []
  let wSpans := work.flatMap fun x => (List.range nc).map fun n => (wcol x.1.2 n x.2, wlen x.2)
  let operands := [rowSpans, xsSpans, wsSpans, wSpans, if init = 2 then [(bs, 16)] else []]
  { checks := [need (pos / 2 ^ 48 == 0) 0xA8 1, need (mx || (fld f 43 40 == 0 && fld f 39 36 == 0)) 0xA8 0,
      need (decide (tile + ng ≤ 16) && decide (T < h 6) && decide (H < h 8) && decide (w0 < h 0xA)) 0xA2 1,
      need (!(init == 2 && (xf == .int8 || xf == .uint8))) 0xA1 1,
      need (s.untaken i.c).isEmpty 0xA6 1,
      aligned 16 0xA5 1 xadr, aligned 16 0xA5 1 wadr, if init = 2 then aligned 16 0xA5 1 bs else none,
      need (strides.all fun t => t % 16 == 0 && (!mx || t % bb == 0)) 0xA5 1,
      need (w4 0x30 % 16 == 0 && w4 0x34 % 16 == 0 && (!mx || w4 0x38 % 16 == 0)) 0xA5 1,
      if mx then firstFault [aligned 8 0xA5 1 xscl, aligned 8 0xA5 1 wscl] else none,
      operands.flatten.findSome? fun p => s.ownFault i.c p.1 p.2 0xA4 1],
    foot := ⟨operands.flatMap fun l => hull (l.map span), []⟩,
    todo := todo,
    loads := fun u => taps.zipIdx.map fun tp =>
      if isFed tp then (List.range nq).map fun q => load u (tp, q) else [] }

/-- The outputs that the start of CONV sets: tile and row (R247). -/
def convRows (i : Ins) (s : State) (d : List Byte) : List (Nat × Nat) :=
  let f := i.f
  let w0 := nfld (areg s i.c f 31 28) 15 0
  if fld f 51 50 = 1 then [] else (List.range (fld f 55 52 + 1)).flatMap fun g => (List.range 16).filterMap fun m =>
    if w0 + 16 * g + m < rd d 0xA 2 then some (fld f 47 44 + g, m) else none

/-- CONV. -/
def convBody (i : Ins) (s : State) : IRes :=
  let f := i.f
  let bank := fld f 49 48
  let gd := areg s i.c f 19 16
  match firstFault [need (gd % 16 == 0) 0xA5 1 gd, s.ownFault i.c gd 64 0xA4 1] with
  | some x => .fault s x
  | none =>
    if s.attAhead i.c i.n || s.conflict i ⟨[⟨gloc gd, gloc gd + 64, false⟩], []⟩ then .hold
    else if s.poisoned (gloc gd) 64 then .fault s (faultOf 0xA7 1 gd)
    else
      let d := s.read (gloc gd) 64
      match convDescFault d, Fmt.ofCode (rd d 0x13 1), Fmt.ofCode (rd d 0xF 1) with
      | some x, _, _ => .fault s x
      | none, some wf, some xf =>
        let q := convPlan i s d wf xf
        orFault s q.checks <|
          if 8 ≤ s.entries i.c || s.boardFull i q.foot || s.conflict i q.foot then .hold else
          let rows := convRows i s d
          let bias := if fld f 51 50 = 2 then some (gloc (areg s i.c f 35 32)) else none
          let (_, s) := s.enqueue i (.convInit bank rows bias (wf == .int8)) q.foot
          let (u, s) := s.enqueue i (.passes bank q.todo true) q.foot
          .done ((s.modMx i.c fun m => { m with decs := m.decs ++ [⟨u, s.cyc i.c, [], q.loads u⟩] }).runMatrix 10 i.c)
      | _, _, _ => .fault s (faultOf 0xA1 1)

/-! ## HALO (R253 to R257) -/

/-- The link descriptor and what is wrong with it, for a producer or a consumer. [DEDUCED, log 40] -/
def haloFault (s : State) (d : List Byte) (role : Nat) : Option FaultInfo :=
  let peer := rd d 0 8
  firstFault [need ((List.range 9).all fun k => rd d (0x17 + k) 1 == 0) 0xA8 0,
    need (rd d 0x16 1 == role) 0xA2 0,
    need (rd d 0x10 4 % 64 == 0 && 64 ≤ rd d 0x10 4 && rd d 0x10 4 ≤ 1048576 && rd d 0x14 2 < 4096) 0xA2 0,
    need (rd d 8 8 % 64 == 0) 0xA5 0 (rd d 8 8),
    need (nfld peer 47 24 == 0 && (gdev peer != s.fab.devnum || s.inMap (nfld peer 23 12))) 3 0 peer]

/-- Read the link descriptor of a HALO and go on with it and the stripe number. -/
def withLink (role : Nat) (i : Ins) (s : State) (k : List Byte → W32 → IRes) : IRes :=
  let g := areg s i.c i.f 23 20
  match firstFault [need (g % 16 == 0) 0xA5 0 g, s.ownFault i.c g 32 0xA4 0] with
  | some x => .fault s x
  | none =>
    if s.conflict i ⟨[⟨gloc g, gloc g + 32, false⟩], []⟩ then .hold
    else if s.poisoned (gloc g) 32 then .fault s (faultOf 0xA7 0 g)
    else
      let d := s.read (gloc g) 32
      match haloFault s d role with
      | some x => .fault s x
      | none => k d (BitVec.ofNat 32 (areg s i.c i.f 27 24))

/-- Serial comparison of a flag (R184). -/
def sge (flag v : W32) : Bool := decide (0 ≤ (flag - v).toInt)

def peerDst (s : State) (d : List Byte) : SigDst :=
  let p := rd d 0 8
  if gdev p = s.fab.devnum then .here (nfld p 23 12) (nfld p 11 0) else .far (gdev p) (nfld p 23 12) (nfld p 11 0)

/-- Set the partner's flag to `k + 1`, after the work numbered in `after` and the earlier signals of the link. -/
def haloSignal (i : Ins) (s : State) (d : List Byte) (k : W32) (after : List Nat) : State :=
  let dst := peerDst s d
  let earlier := s.sigs.filterMap fun g => match g.src with
    | .core c h _ f => if c = i.c && h = i.h && opcode f = 0xA4 && g.dst = dst then some g.uid else none
    | .dev => none
  (s.signal (.core i.c i.h i.pc i.f) dst true (k + 1) (after ++ earlier)).2

/-- HALO SEND (R255). -/
def haloSendBody (i : Ins) (s : State) : IRes :=
  let src := areg s i.c i.f 31 28
  withLink 0 i s fun d k =>
    let n := rd d 0x10 4
    match firstFault [need (src % 16 == 0) 0xA5 0 src, s.ownFault i.c src n 0xA4 0] with
    | some x => .fault s x
    | none =>
      if !sge ((s.ctx i.c).flag (rd d 0x14 2)) (k - 1) then .hold
      else if s.fencedOff i || s.conflict i ⟨[⟨gloc src, gloc src + n, false⟩], []⟩ then .hold
      else
        let dst := rd d 8 8 + k.toNat % 2 * n
        let (u, s) := s.uid
        let (e, _, s) := s.gWrite dst (s.mem.readP (gloc src) n) 1 (some i.h)
          (.halo i.c i.h u i.pc i.f (BitVec.ofNat 64 dst))
        if e = St.ok then .done (haloSignal i s d k [u])
        else .fault s (if e = St.unmapped then faultOf 3 0 dst else remoteFault 0 (BitVec.ofNat 64 dst) e)

/-- HALO WAIT (R256). -/
def haloWaitBody (i : Ins) (s : State) : IRes :=
  withLink 1 i s fun d k => if sge ((s.ctx i.c).flag (rd d 0x14 2)) (k + 1) then .done s else .hold

def haloDec (f : Frame) : Option FaultInfo :=
  decodeCheck f 0xA8 [(127, 32), (19, 18)] (fld f 17 16 != 3 && (fld f 17 16 == 0 || fld f 31 28 == 0))

def haloRegs (f : Frame) : List Nat := [fld f 27 24, fld f 23 20] ++ if fld f 17 16 = 0 then [fld f 31 28] else []

/-! ## Stem instructions and engines (R258 to R266) -/

/-- Issue of a stem instruction: its reservation leaves the core. -/
def stemBody (i : Ins) (s : State) : IRes :=
  let g := areg s i.c i.f 19 16
  if 4 ≤ ((s.works i.c i.h).filter fun w => w.unit == 7).length then .hold else
  let (u, s) := s.uid
  .done { s with sreq := s.sreq ++ [⟨u, i.c, i.h, i.f, i.pc, g, [], 0⟩] }

def stemDec (f : Frame) : Option FaultInfo := decodeCheck f 0xA8 [(127, 33)]

/-- A stem descriptor, taken apart (R260). -/
structure Stem where
  op   : Nat
  ih   : Nat
  iw   : Nat
  ow   : Nat
  kh   : Nat
  kw   : Nat
  sh   : Nat
  sw   : Nat
  ph   : Nat
  pw   : Nat
  cn   : Nat
  nout : Nat
  xf   : Fmt
  yf   : Fmt
  relu : Bool
  bias : Bool
  acc  : Bool
  xrow : Nat
  yrow : Nat
  h0   : Nat
  nh   : Nat
  x    : Nat
  w    : Nat
  b    : Nat
  y    : Nat

def Stem.of (op : Nat) (d : List Byte) : Stem :=
  let b (o : Nat) : Nat := rd d o 1
  { op := op, ih := rd d 0 2, iw := rd d 2 2, ow := rd d 6 2, kh := b 8, kw := b 9, sh := b 0xA, sw := b 0xB, ph := b 0xC,
    pw := b 0xD, cn := b 0xE, nout := b 0xF, xf := (Fmt.ofCode (b 0x10)).getD .xw, yf := (Fmt.ofCode (b 0x11)).getD .xw,
    relu := b 0x12 % 2 == 1, bias := b 0x12 / 2 % 2 == 1, acc := b 0x12 / 4 % 2 == 1, xrow := rd d 0x14 4,
    yrow := rd d 0x18 4, h0 := rd d 0x1C 2, nh := rd d 0x1E 2, x := rd d 0x20 8, w := rd d 0x28 8, b := rd d 0x30 8,
    y := rd d 0x38 8 }

namespace Stem

/-- Bytes of a position of the input. -/
def cell (t : Stem) : Nat := if t.op = 0xAA then t.nout * 2 else 4 * t.xf.bytes

/-- The input rows a job reads. -/
def inRows (t : Stem) : List Nat :=
  if t.op = 0xAB then (List.range t.nh).map (t.h0 + ·)
  else ((List.range t.nh).flatMap fun r => (List.range t.kh).filterMap fun j =>
    let y : Int := ((t.h0 + r) * t.sh + j : Nat) - t.ph
    if 0 ≤ y && y < t.ih then some y.toNat else none).eraseDups

/-- The ranges a job reads (global addresses). -/
def reads (t : Stem) : List (Nat × Nat) :=
  t.inRows.map (fun h => (t.x + h * t.xrow, (if t.op = 0xAB then t.ow else t.iw) * t.cell)) ++
  (if t.op = 0xA8 then [(t.w, t.nout * t.kh * t.kw * 8)] ++ (if t.bias then [(t.b, 4 * t.nout)] else []) else []) ++
  (if t.op = 0xAB then [(t.b, 8 * t.cn)] else []) ++
  (if t.op = 0xA9 then ((List.range t.nh).map fun r => (t.y + (t.h0 + r) * t.yrow, t.ow * t.nout * 2)) ++
    (if t.acc then [(t.w, t.nout * t.kh * t.kw * 16)] else []) else [])

/-- The ranges a job writes. -/
def writes (t : Stem) : List (Nat × Nat) :=
  if t.op = 0xA9 then [(t.w, t.nout * t.kh * t.kw * 16)]
  else (List.range t.nh).map fun r =>
    (t.y + (t.h0 + r) * t.yrow, if t.op = 0xAB then t.ow * 8 else t.ow * t.nout * t.yf.bytes)

/-- Where an output at row `h` and column `w` reads at a tap; `none` is padding (R260). -/
def pos (t : Stem) (h w j l : Nat) : Option (Nat × Nat) :=
  let y : Int := (h * t.sh + j : Nat) - t.ph
  let x : Int := (w * t.sw + l : Nat) - t.pw
  if 0 ≤ y && y < t.ih && 0 ≤ x && x < t.iw then some (y.toNat, x.toNat) else none

/-- The outputs of a job: row and column. -/
def outsAt (t : Stem) : List (Nat × Nat) := (List.range t.nh).flatMap fun r => (List.range t.ow).map fun w => (t.h0 + r, w)

/-- The taps of a window. -/
def taps (t : Stem) : List (Nat × Nat) := (List.range t.kh).flatMap fun j => (List.range t.kw).map fun l => (j, l)

/-- The elements a job reads, where padding and taps that meet only padding are not read (R267). -/
def touched (t : Stem) : List (Nat × Nat) :=
  let at' (p : Nat × Nat) (n : Nat) : Nat × Nat := (t.x + p.1 * t.xrow + p.2 * t.cell, n * t.xf.bytes)
  let meets (o p : Nat × Nat) : Option (Nat × Nat) := t.pos o.1 o.2 p.1 p.2
  if t.op = 0xAB then t.outsAt.map (fun o => at' o t.cn) ++ [(t.b, 8 * t.cn)]
  else
    t.outsAt.flatMap (fun o => t.taps.filterMap fun p => (meets o p).map fun q => at' q (if t.op = 0xAA then t.nout else t.cn)) ++
    (if t.op = 0xA8 then
      ((t.taps.filter fun p => t.outsAt.any fun o => (meets o p).isSome).flatMap fun p => (List.range t.nout).map fun n =>
        (t.w + ((n * t.kh + p.1) * t.kw + p.2) * 8, 2 * t.cn)) ++ (if t.bias then [(t.b, 4 * t.nout)] else [])
     else if t.op = 0xA9 then
      ((t.outsAt.filter fun o => t.taps.any fun p => (meets o p).isSome).map fun o =>
        (t.y + o.1 * t.yrow + o.2 * t.nout * 2, t.nout * 2)) ++
      (if t.acc then t.taps.flatMap fun p => (List.range t.nout).map fun n =>
        (t.w + ((n * t.kh + p.1) * t.kw + p.2) * 16, 4 * t.cn) else [])
     else [])

/-- The bases a descriptor names, used or not (R259). -/
def bases (t : Stem) : List Nat := [t.x, t.w, t.b, t.y]

/-- Checks of a job's descriptor (R260, R267). -/
def fault (s : State) (c : Nat) (t : Stem) (d : List Byte) (bases : List Nat) : Option FaultInfo :=
  let b (o : Nat) : Nat := rd d o 1
  let dims := [rd d 0 2, rd d 2 2, rd d 4 2, rd d 6 2]
  firstFault [need (b 0x12 < 8 && b 0x13 == 0) 0xA8 7, need (t.kh ≤ 15 && t.kw ≤ 15) 0xA3 7,
    need (dims.all (fun n => 1 ≤ n && n ≤ 8192) && 1 ≤ t.kh && 1 ≤ t.kw && 1 ≤ t.sh && t.sh ≤ 8 && 1 ≤ t.sw && t.sw ≤ 8 &&
      decide (t.ph < t.kh) && decide (t.pw < t.kw) && 1 ≤ t.cn && t.cn ≤ 4 && 1 ≤ t.nout && t.nout ≤ 64 &&
      decide (t.h0 < rd d 4 2) && 1 ≤ t.nh && t.nh ≤ 64 && decide (t.h0 + t.nh ≤ rd d 4 2)) 0xA2 7,
    need ((if t.op = 0xAA then t.xf == .bf16 else t.xf == .uint8 || t.xf == .bf16) && (t.yf == .bf16 || t.yf == .fp32)) 0xA1 7,
    need (bases.all (fun a => a % 16 == 0) && t.xrow % 16 == 0 && t.yrow % 16 == 0) 0xA5 7,
    (bases.map (fun a => (a, 1)) ++ t.reads ++ t.writes).findSome? fun (p : Nat × Nat) => s.ownFault c p.1 p.2 0xA4 7]

/-- Input element, `none` for padding. -/
def inAt (s : State) (t : Stem) (h w j l ch : Nat) : Option XF :=
  (t.pos h w j l).map fun p => s.elemAt t.xf ((gloc t.x + p.1 * t.xrow + p.2 * t.cell + ch * t.xf.bytes) * 8) none

/-- One FP32 rounding of `x * w + acc`. -/
def fma (x w acc : XF) : XF := dec32 (enc32 ((x.mul w).add acc))

/-- An output of SCONV before its conversion. [DEDUCED, log 42] -/
def conv (s : State) (t : Stem) (h w n : Nat) : XF :=
  let f32 (a : Nat) : XF := s.elemAt .fp32 (a * 8) none
  let acc : XF := if t.bias then f32 (gloc t.b + 4 * n) else .zero false
  let acc := (List.range t.kh).foldl (fun acc j => (List.range t.kw).foldl (fun acc l =>
    (List.range t.cn).foldl (fun acc ch => match t.inAt s h w j l ch with
      | some x => fma x (s.elemAt .bf16 ((gloc t.w + (((n * t.kh + j) * t.kw + l) * 4 + ch) * 2) * 8) none) acc
      | none => acc) acc) acc) acc
  if t.relu then acc.max2 (.zero false) else acc

/-- A weight gradient of SWGRAD. -/
def grad (s : State) (t : Stem) (n j l ch : Nat) : XF :=
  let a := gloc t.w + (((n * t.kh + j) * t.kw + l) * 4 + ch) * 4
  let acc : XF := if t.acc then s.elemAt .fp32 (a * 8) none else .zero false
  (List.range t.nh).foldl (fun acc r => (List.range t.ow).foldl (fun acc w =>
    match t.inAt s (t.h0 + r) w j l ch with
    | some x => fma x (s.elemAt .bf16 ((gloc t.y + (t.h0 + r) * t.yrow + (w * t.nout + n) * 2) * 8) none) acc
    | none => acc) acc) acc

/-- An output of SPOOL. -/
def pool (s : State) (t : Stem) (h w n : Nat) : XF :=
  let xs := (List.range t.kh).flatMap fun j => (List.range t.kw).filterMap fun l => t.inAt s h w j l n
  match xs with | [] => .zero false | x :: xs => xs.foldl XF.max2 x

/-- An output of SNORM. [DEDUCED, log 42] -/
def norm (s : State) (t : Stem) (h w ch : Nat) : XF :=
  if t.cn ≤ ch then .zero false else
  let f32 (a : Nat) : XF := s.elemAt .fp32 (a * 8) none
  let x := s.elemAt t.xf ((gloc t.x + h * t.xrow + w * t.cell + ch * t.xf.bytes) * 8) none
  let d := dec32 (enc32 (x.sub (f32 (gloc t.b + 8 * ch))))
  dec32 (enc32 (d.mul (f32 (gloc t.b + 8 * ch + 4))))

/-- The writes of a job: address, code and flags of each output. [DEDUCED, log 42, 43] -/
def outputs (s : State) (t : Stem) : List (Nat × List Byte × CvtFlags) :=
  let put (f : Fmt) (a : Nat) (x : XF) : Nat × List Byte × CvtFlags :=
    let c := convert f x
    (a, le f.bytes c.1, c.2)
  if t.op = 0xA9 then
    (List.range t.nout).flatMap fun n => (List.range t.kh).flatMap fun j => (List.range t.kw).flatMap fun l =>
      (List.range t.cn).map fun ch => put .fp32 (t.w + (((n * t.kh + j) * t.kw + l) * 4 + ch) * 4) (t.grad s n j l ch)
  else
    (List.range t.nh).flatMap fun r => (List.range t.ow).flatMap fun w =>
      let h := t.h0 + r
      if t.op = 0xAB then (List.range 4).map fun ch => put .bf16 (t.y + h * t.yrow + w * 8 + ch * 2) (t.norm s h w ch)
      else (List.range t.nout).map fun n =>
        put t.yf (t.y + h * t.yrow + (w * t.nout + n) * t.yf.bytes) (if t.op = 0xA8 then t.conv s h w n else t.pool s h w n)

end Stem

namespace State

/-- Does a stem job of the core that has not completed read bytes `lo` to `hi - 1` (R256)? -/
def stemsRead (s : State) (c h lo hi : Nat) : Bool :=
  let x := s.stem (stemOf c)
  let mine := fun (j : StemJob) => j.core == c && j.handle == h
  let jobs := (match x.run with | some r => [(r.job, r.desc)] | none => []) ++
    (x.que ++ x.resv ++ s.sreq).map fun j => (j, s.jobDesc j)
  jobs.any fun j => mine j.1 && (Stem.of (opcode j.1.frame) j.2).reads.any fun p =>
    decide (gloc p.1 < hi) && decide (lo < gloc p.1 + p.2)

/-- A fault of a stem job (R267). -/
def stemFault (s : State) (e : Nat) (j : StemJob) (i : FaultInfo) : State :=
  s.progFault j.core j.handle j.pc j.frame { i with detail := if i.detail = 0 then e else i.detail }

/-- STEM_RESERVATION: the oldest reservation of core `c` reaches its engine's list; one that is being reset refuses it. -/
def stemArrive (s : State) (c : Nat) : State :=
  match s.sreq.find? fun j => j.core == c with
  | some j =>
    let e := stemOf c
    let x := s.stem e
    let s : State := { s with sreq := s.sreq.filter fun k => k.uid != j.uid }
    if s.blockDown (0x50 + e) then (s.countDown (0x50 + e)).stemFault e j (remoteFault 7 0 St.blockReset)
    else s.setStem e { x with resv := x.resv ++ [j] }
  | none => s

/-- STEM_GRANT: a free queue entry goes to the head of the list. -/
def stemGrant (s : State) (e : Nat) : State :=
  let x := s.stem e
  match x.resv with
  | j :: rest => if x.que.length < 32 then s.setStem e { x with resv := rest, que := x.que ++ [j] } else s
  | [] => s

/-- STEM_JOB_START: the engine takes the next job in order of grant, and reads its descriptor; a job that a pre-emption stopped goes
on with the one it had read (R265). -/
def stemStart (s : State) (e : Nat) : State :=
  let x := s.stem e
  match x.run, x.que with
  | none, j :: rest =>
    if s.blockDown (0x50 + e) then s else
    let d := s.jobDesc j
    let s := s.setStem e { x with que := rest, run := some ⟨j, s.now, d⟩ }
    if !j.held.isEmpty then s else
    match firstFault [need (j.desc % 16 == 0) 0xA5 7 j.desc, s.ownFault j.core j.desc 64 0xA4 7] with
    | some i => s.stemFault e j i
    | none =>
      if s.poisoned (gloc j.desc) 64 then s.stemFault e j (faultOf 0xA7 7 j.desc) else
      let t := Stem.of (opcode j.frame) d
      match Stem.fault s j.core t d t.bases with
      | some i => s.stemFault e j i
      | none => s
  | _, _ => s

/-- STEM_JOB_COMPLETE: the running job's time is over; its outputs are written. [DEDUCED, log 43] -/
def stemDone (s : State) (e : Nat) : State :=
  let x := s.stem e
  match x.run with
  | none => s
  | some ⟨j, t0, d⟩ =>
    let t := Stem.of (opcode j.frame) d
    let (n, per) := stemGroups (opcode j.frame) d
    if s.now < t0 + 40 + (n - j.done) * per then s else
    match t.touched.find? fun p => s.poisoned (gloc p.1) p.2 with
    | some p => s.stemFault e j (faultOf 0xA7 7 p.1)
    | none =>
      let outs := t.outputs s
      let (st, s) := outs.foldl (fun (a : Nat × State) o =>
        let r := a.2.devWrite (gloc o.1) o.2.1
        (if a.1 = St.ok then r.1 else a.1, r.2)) (St.ok, s)
      if st != St.ok then s.stemFault e j (remoteFault 7 0 st) else
      let s := s.setFlags j.core (outs.foldl (fun b o => b ||| cvtBits o.2.2 flagVovf) 0)
      let s := s.setStem e { x with run := none }
      if bitOf j.frame 32 then
        (s.signal (.core j.core j.handle j.pc j.frame) (.here j.core (fld j.frame 31 20)) false 1 []).2
      else s

end State

/-! ### The rows -/

/-- HALO RELEASE: earlier instructions that read the slot, stem jobs among them, come first (R256). -/
def haloReleaseBody (i : Ins) (s : State) : IRes :=
  withLink 1 i s fun d k =>
    let a := gloc (rd d 8 8) + k.toNat % 2 * rd d 0x10 4
    if s.fencedOff i || s.conflict i ⟨[⟨a, a + rd d 0x10 4, true⟩], []⟩ || s.stemsRead i.c i.h a (a + rd d 0x10 4) then .hold
    else .done (haloSignal i s d k [])

def runConv (c : Nat) (f : Frame) (s : State) : State := s.issueCore c f (convDec f) (convRegs f) convBody
def runHaloSend (c : Nat) (f : Frame) (s : State) : State := s.issueCore c f (haloDec f) (haloRegs f) haloSendBody
def runHaloWait (c : Nat) (f : Frame) (s : State) : State := s.issueCore c f (haloDec f) (haloRegs f) haloWaitBody
def runHaloRelease (c : Nat) (f : Frame) (s : State) : State := s.issueCore c f (haloDec f) (haloRegs f) haloReleaseBody
def runSconv (c : Nat) (f : Frame) (s : State) : State := s.issueCore c f (stemDec f) [fld f 19 16] stemBody
def runSwgrad (c : Nat) (f : Frame) (s : State) : State := s.issueCore c f (stemDec f) [fld f 19 16] stemBody
def runSpool (c : Nat) (f : Frame) (s : State) : State := s.issueCore c f (stemDec f) [fld f 19 16] stemBody
def runSnorm (c : Nat) (f : Frame) (s : State) : State := s.issueCore c f (stemDec f) [fld f 19 16] stemBody

def execConv (c : Nat) (f : Frame) (s : State) : Host.Outcome State Fault Refusal := .next (s.startOp 0xA0 c f (runConv c f))
def execHaloSend (c : Nat) (f : Frame) (s : State) : Host.Outcome State Fault Refusal := .next (s.startHalo [0, 3] c f (runHaloSend c f))
def execHaloWait (c : Nat) (f : Frame) (s : State) : Host.Outcome State Fault Refusal := .next (s.startHalo [1] c f (runHaloWait c f))
def execHaloRelease (c : Nat) (f : Frame) (s : State) : Host.Outcome State Fault Refusal :=
  .next (s.startHalo [2] c f (runHaloRelease c f))
def execSconv (c : Nat) (f : Frame) (s : State) : Host.Outcome State Fault Refusal := .next (s.startOp 0xA8 c f (runSconv c f))
def execSwgrad (c : Nat) (f : Frame) (s : State) : Host.Outcome State Fault Refusal := .next (s.startOp 0xA9 c f (runSwgrad c f))
def execSpool (c : Nat) (f : Frame) (s : State) : Host.Outcome State Fault Refusal := .next (s.startOp 0xAA c f (runSpool c f))
def execSnorm (c : Nat) (f : Frame) (s : State) : Host.Outcome State Fault Refusal := .next (s.startOp 0xAB c f (runSnorm c f))
def execStemReservation (c : Nat) (s : State) : Host.Outcome State Fault Refusal := .next (s.stemArrive c)
def execStemGrant (e : Nat) (s : State) : Host.Outcome State Fault Refusal := .next (s.stemGrant e)
def execStemJobStart (e : Nat) (s : State) : Host.Outcome State Fault Refusal := .next (s.stemStart e)
def execStemJobComplete (e : Nat) (s : State) : Host.Outcome State Fault Refusal := .next (s.stemDone e)

end Sys2Proof.Machine
end

