-- ==== Sys2Proof/Machine/Streams.lean ====
section
/-! DEFINITION. Sys2Proof/Machine/Streams.lean: the stream tracker: contexts, SPOST, and the descriptors of R321 other than INGEST
and the collective steps (R311 to R328, R331, R332). One event runs one piece. -/

namespace Sys2Proof.Machine

def runOf (d : Posted) (now : Nat) : Run :=
  { desc := d.desc, core := d.core, pc := d.pc, began := now, pos := 0, pieces := 0, value := 0, status := St.ok,
    wait := 0, fin := false, aux := 0, aux2 := 0, struck := false, res := 0 }

namespace State

/-! ## Contexts (R311 to R313, R318) -/

/-- Descriptors in the ring. -/
def Stream.load (x : Stream) : Nat := x.queue.length + if x.run.isSome then 1 else 0

def Stream.idle (x : Stream) : Bool := x.queue.isEmpty && x.run.isNone && x.long.isNone

/-- The state code of R313. -/
def Stream.code (x : Stream) : Nat :=
  if x.stopped then 4 else if Stream.idle x then 0 else if x.paused then 3 else if x.saved then 2 else 1

/-- Is the owner of a stream in the kill mask (R458)? -/
def killed (s : State) (x : Stream) : Bool := match x.owner with | .prog h => s.dc.kill.contains h | .partner _ => false

/-- Has stream `st` begun a piece that is not done: its source is being read, or a clip of its batch runs (R287, R318)? -/
def midPiece (s : State) (st : Nat) : Bool :=
  (s.fetch? (.run st)).isSome || s.ig.batches.any fun b => b.st == st && b.live != 0

/-- May the tracker run stream `st` now? A stream that is to pause finishes the piece it has begun (R192). -/
def ready (s : State) (st : Nat) (x : Stream) : Bool :=
  !x.stopped && (!x.paused || s.midPiece st) && !x.saved && x.long.isNone && !s.killed x && !s.blockDown (0x40 + st % 16)

def modStream (s : State) (st : Nat) (g : Stream → Stream) : State :=
  match s.stream? st with | some x => s.setStream st (g x) | none => s

def modRun (s : State) (st : Nat) (g : Run → Run) : State := s.modStream st fun x => { x with run := x.run.map g }

/-- Busy streams of a slice whose contexts are in hardware. -/
def resident (s : State) (slice : Nat) : Nat :=
  (s.streams.filter fun x => x.1 % 16 == slice && !x.2.saved && !Stream.idle x.2 && !x.2.stopped).length

/-- Of two saved streams, the one that has waited longer; the lower number where both have waited as long. -/
def longer (a : Option (Nat × Stream)) (b : Nat × Stream) : Option (Nat × Stream) :=
  match a with | some x => if b.2.due < x.2.due then some b else some x | none => some b

/-- A saved stream of a slice comes in while there is room, the one that has waited longest (R41). [DEDUCED, log 66] -/
def bringIn (s : State) (slice : Nat) : State :=
  if 4096 ≤ s.resident slice then s else
  match (s.streams.filter fun x => x.1 % 16 == slice && x.2.saved).foldl longer none with
  | some x => s.setStream x.1 { x.2 with saved := false, due := s.sliceEnd }
  | none => s

/-- STREAM_SLICE_EXPIRY: at the first piece boundary after its slice, a stream makes room for one that waits (R41, R318). -/
def sliceExpiry (s : State) (st : Nat) : State :=
  match s.stream? st with
  | some x =>
    if s.ready st x && !Stream.idle x && !s.midPiece st && x.due ≤ s.now &&
        s.streams.any (fun y => y.1 % 16 == st % 16 && y.2.saved) then
      (s.setStream st { x with saved := true, due := s.now }).bringIn (st % 16)
    else s
  | none => s

/-! ## Turns (R319) -/

/-- The class engine of a stream, as `turns` keys it. -/
def engineOf (st : Nat) (x : Stream) : Nat := st % 16 * 8 + x.cls

/-- Descriptors a class engine runs. -/
def runsOf (s : State) (st : Nat) (x : Stream) : Nat :=
  (s.streams.filter fun y => engineOf y.1 y.2 == engineOf st x && y.2.run.isSome).length

/-- Types whose pieces move data (R318): a waiting, ingesting or collective descriptor takes no turn of its engine. -/
def moves (d : List Byte) : Bool := [1, 2, 3, 4, 5, 7, 8, 9].contains (rd d 0 1)

/-- Could stream `st` take a piece in this cycle? -/
def eligible (s : State) (st : Nat) (x : Stream) : Bool :=
  s.ready st x && match x.run, x.queue with
    | some r, _ => moves r.desc && !r.fin && match s.fetch? (.run st) with | some f => f.missing == 0 | none => true
    | none, d :: _ => moves d.desc && s.runsOf st x < 16
    | none, [] => false

/-- Is it the turn of stream `st`: does no other eligible stream of its engine come first from the pointer on (R191, R319)? -/
def turnOf (s : State) (st : Nat) (x : Stream) : Bool :=
  let p := SMap.getD s.turns (engineOf st x) 0
  let far (n : Nat) : Nat := (n + 2 ^ 24 - p) % 2 ^ 24
  !s.eligible st x || s.streams.all fun y =>
    engineOf y.1 y.2 != engineOf st x || far st ≤ far y.1 || !s.eligible y.1 y.2

/-- The pointer goes past stream `st`. -/
def granted (s : State) (st : Nat) (x : Stream) : State :=
  if s.eligible st x then { s with turns := SMap.setD s.turns (engineOf st x) 0 ((st + 1) % 2 ^ 24) } else s

/-! ## Posting (R312, R315) -/

/-- Room in the ring of a stream? -/
def hasRoom (x : Stream) : Bool := Stream.load x < 2 ^ x.rlog2

/-- Copy a descriptor into the ring. -/
def post (s : State) (st : Nat) (d : Posted) : State :=
  match s.stream? st with
  | none => s
  | some x =>
    let s := (s.devWrite (x.ring + 64 * (x.posted.toNat % 2 ^ x.rlog2)) d.desc).2
    let full := Stream.idle x && decide (4096 ≤ s.resident (st % 16))
    let due := if !Stream.idle x then x.due else if full then s.now else s.sliceEnd
    s.setStream st { x with posted := x.posted + 1, queue := x.queue ++ [d], saved := x.saved || full, due := due }

/-- Deliver the SPOSTs that can be delivered; those of one core keep their order. -/
def deliver : Nat → State → State
  | 0, s => s
  | n + 1, s =>
    match s.sposts.find? fun p =>
      !p.after.any s.alive && (match s.stream? p.st with | some x => hasRoom x | none => true) &&
      (match s.sposts.find? fun q => q.core == p.core && q.h == p.h with | some q => q.uid == p.uid | none => false) with
    | none => s
    | some p =>
      let s : State := { s with sposts := s.sposts.filter fun q => q.uid != p.uid }
      deliver n (s.post p.st ⟨p.desc, p.core, p.pc⟩)

/-! ## Descriptors (R316, R320, R321) -/

/-- The classes that accept a type. -/
def typeClass (ty cls : Nat) : Bool :=
  match ty with
  | 1 | 2 | 0xA => true
  | 3 | 4 => cls == 1
  | 5 => cls == 2
  | 6 => cls == 3
  | 7 | 8 | 9 | 0x10 | 0x11 | 0x12 | 0x13 => cls == 4
  | _ => false

/-- The header keeps its rules. -/
def headerOk (d : List Byte) : Bool :=
  rd d 1 1 < 8 && rd d 7 1 == 0 && (rd d 1 1 / 4 % 2 == 0 || resultOk (rd d 8 8))

/-- Reserved bytes from `off` to the end of the descriptor are zero. -/
def tailZero (d : List Byte) (off : Nat) : Bool := (d.drop off).all (· == 0)

/-- The running descriptor has come to its end; the first failure counts. -/
def finish (s : State) (st status : Nat) : State :=
  s.modRun st fun r => { r with fin := true, status := if r.status = St.ok then status else r.status }

/-- The virtual lane of a class (R343). [DEDUCED, log 162] -/
def classVl (cls : Nat) : Nat := match cls with | 1 => 4 | 3 => 3 | 4 => 2 | _ => 1

/-- Run one piece of a descriptor of type `ty` in its turn: start it when it is next and its engine runs fewer than 16, with its field
checks, or go on with it (R319). [DESIGN CHOICE, log 2] -/
def streamRow (s : State) (st ty : Nat) (check : State → Stream → List Byte → Bool) (begin' piece : State → Nat → State) :
    State :=
  match s.stream? st with
  | none => s
  | some x =>
    if !s.ready st x || !s.turnOf st x then s else
    match x.run with
    | some r => if rd r.desc 0 1 = ty && !r.fin then piece (s.granted st x) st else s
    | none =>
      match x.queue with
      | [] => s
      | d :: rest =>
        if rd d.desc 0 1 != ty || 16 ≤ s.runsOf st x then s else
        let s := (s.granted st x).setStream st { x with run := some (runOf d s.now), queue := rest }
        if !typeClass ty x.cls || !headerOk d.desc || !check s x d.desc then s.finish st St.badField
        else
          let s := begin' s st
          match (s.stream? st).bind (·.run) with
          | some r => if r.fin then s else piece s st
          | none => s

/-- The running descriptor of a stream and its class. -/
def running? (s : State) (st : Nat) : Option (Stream × Run) :=
  match s.stream? st with | some x => x.run.map fun r => (x, r) | none => none

/-- Data of the ranges `rs`, for a piece: at once, or when a fetch that is under way has ended. -/
def withData (s : State) (st : Nat) (vl : Nat) (rs : List (Nat × Nat)) (k : State → Nat → List (Byte × Bool) → State) : State :=
  let n := (rs.map (·.2)).foldl (· + ·) 0
  let s := match s.fetch? (.run st) with | some _ => s | none => s.fetchNew (.run st) rs vl none
  match s.fetch? (.run st) with
  | some f => if f.missing = 0 then k (s.dropFetch (.run st)) f.status (f.data 0 n) else s
  | none => k s St.ok []

/-- Write bytes for a stream; the piece goes on when the writes that cross the fabric are out. -/
def putStream (s : State) (st vl g : Nat) (bs : List (Byte × Bool)) : State :=
  let (e, n, s) := s.gWrite g bs vl none (.piece st)
  let s := s.modRun st fun r => { r with wait := r.wait + n }
  let s := s.modStream st fun x => { x with bytes := x.bytes + BitVec.ofNat 64 bs.length }
  if e = St.ok then s else s.finish st (stOf e)

/-- A piece is done: go to the next, or end after the last of `total`. -/
def nextPiece (s : State) (st total : Nat) : State :=
  match s.running? st with
  | some (_, r) =>
    let s := s.modRun st fun r => { r with pos := r.pos + 1, pieces := r.pieces + 1 }
    if total ≤ r.pos + 1 then s.finish st St.ok else s
  | none => s

/-! ## COPY and FILL (R318, R322) -/

/-- Row, plane and offset of a piece of rows of `len` bytes. -/
def pieceAt (len n1 pos : Nat) : Nat × Nat × Nat × Nat :=
  let per := (len + 4095) / 4096
  let row := pos / per
  let off := pos % per * 4096
  (row % n1, row / n1, off, min 4096 (len - off))

def rowsOf (base len n1 n2 s1 s2 : Nat) : List (Nat × Nat) :=
  (List.range n2).flatMap fun p => (List.range n1).map fun r => ((base + p * s2 + r * s1) % 2 ^ 64, len)

/-- Does some byte that a COPY writes lie among those it reads? -/
def copyOverlaps (d : List Byte) : Bool :=
  let src := rowsOf (rd d 0x10 8) (rd d 0x20 4) (rd d 0x24 2) (rd d 0x26 2) (rd d 0x28 4) (rd d 0x30 4)
  (rowsOf (rd d 0x18 8) (rd d 0x20 4) (rd d 0x24 2) (rd d 0x26 2) (rd d 0x2C 4) (rd d 0x34 4)).any fun b =>
    src.any fun a => meet a.1 a.2 b.1 b.2

def copyCheck (_ : State) (_ : Stream) (d : List Byte) : Bool :=
  rd d 0x20 4 != 0 && rd d 0x24 2 != 0 && rd d 0x26 2 != 0 && tailZero d 0x38

/-- An overlapping COPY writes free bytes, poisoned or not: `aux2` holds their seed. [DEDUCED, log 62] -/
def copyBegin (s : State) (st : Nat) : State :=
  match s.running? st with
  | some (_, r) =>
    if copyOverlaps r.desc then
      ({ s with fresh := s.fresh + 2 }).modRun st fun r => { r with aux2 := s.fresh + 1 }
    else s
  | none => s

/-- The granule of a global address. [DEDUCED, log 62] -/
def granOf (g : Nat) : Nat := g - gloc g + Memory.granBase (gloc g)

/-- Granules of a destination that receive poison. -/
def poisonedIn (g : Nat) (bs : List (Byte × Bool)) : Nat :=
  ((Memory.granules (gloc g) bs.length).filter fun k =>
    ((bs.drop (k - gloc g)).take (k + Memory.granSize k - max (gloc g) k)).any (·.2)).length

/-- [DEDUCED, log 61, 62] -/
def copyPiece (s : State) (st : Nat) : State :=
  match s.running? st with
  | none => s
  | some (x, r) =>
    let d := r.desc
    let len := rd d 0x20 4; let n1 := rd d 0x24 2; let n2 := rd d 0x26 2
    let (row, pl, off, n) := pieceAt len n1 r.pos
    let src := (rd d 0x10 8 + pl * rd d 0x30 4 + row * rd d 0x28 4 + off) % 2 ^ 64
    let dst := (rd d 0x18 8 + pl * rd d 0x34 4 + row * rd d 0x2C 4 + off) % 2 ^ 64
    let vl := classVl x.cls
    s.withData st vl [(src, n)] fun s e bs =>
      if e != St.ok then s.finish st e else
      let bs := if r.aux2 = 0 then bs else (List.range n).map fun i => (Config.freeMem r.aux2 (dst + i), (Config.freeMem (r.aux2 + 1) (granOf (dst + i))).getLsbD 0)
      let s := s.modRun st fun r => { r with value := r.value + poisonedIn dst bs }
      (s.putStream st vl dst bs).nextPiece st (n1 * n2 * ((len + 4095) / 4096))

def fillCheck (_ : State) (_ : Stream) (d : List Byte) : Bool :=
  rd d 0x18 4 != 0 && rd d 0x1C 2 != 0 && rd d 0x1E 2 != 0 && tailZero d 0x30

def fillPiece (s : State) (st : Nat) : State :=
  match s.running? st with
  | none => s
  | some (x, r) =>
    let d := r.desc
    let len := rd d 0x18 4; let n1 := rd d 0x1C 2; let n2 := rd d 0x1E 2
    let (row, pl, off, n) := pieceAt len n1 r.pos
    let dst := (rd d 0x10 8 + pl * rd d 0x24 4 + row * rd d 0x20 4 + off) % 2 ^ 64
    let bs := (List.range n).map fun i => (BitVec.ofNat 8 (rd d (0x28 + (off + i) % 8) 1), false)
    (s.putStream st (classVl x.cls) dst bs).nextPiece st (n1 * n2 * ((len + 4095) / 4096))

/-! ## SAVE and LOAD (R323 to R328) -/

def saveCheck (_ : State) (_ : Stream) (d : List Byte) : Bool :=
  let f := Fmt.ofCode (rd d 0x39 1)
  let es := match f with | some f => f.bytes | none => 1
  modeOk (rd d 0x38 1) f (Fmt.ofCode (rd d 0x3A 1)) (rd d 0x3A 1) && rd d 0x10 8 % 16 == 0 && rd d 0x18 8 % 64 == 0 &&
  rd d 0x20 8 % 2 == 0 && rd d 0x30 4 != 0 && rd d 0x30 4 % es == 0 && tailZero d 0x3B

/-- `aux` counts the packed bytes written so far. -/
def savePiece (s : State) (st : Nat) : State :=
  match s.running? st with
  | none => s
  | some (x, r) =>
    let d := r.desc
    let vl := classVl x.cls
    match Fmt.ofCode (rd d 0x39 1) with
    | none => s.finish st St.badField
    | some f =>
      let mode := rd d 0x38 1
      let l := (Fmt.ofCode (rd d 0x3A 1)).getD .fp32
      let bytes := rd d 0x30 4
      let n := min 4096 (bytes - 4096 * r.pos)
      let ne := n / f.bytes
      let bb := if mode = 4 then [(rd d 0x28 8 + r.pos * (4096 / f.bytes) / 8, (ne + 7) / 8)] else []
      s.withData st vl ((rd d 0x10 8 + 4096 * r.pos, n) :: bb) fun s e bs =>
        if e != St.ok then s.finish st e else
        let k := s.fresh
        let s : State := { s with fresh := k + 1 }
        let (c, entry) := chunkOf mode f l ((bs.take n).map (·.1)) ((bs.drop n).map (·.1)) (bs.any (·.2)) (Config.freeMem k)
        if rd d 0x34 4 < r.aux + c.length then
          let s := s.forgetG (rd d 0x18 8) (rd d 0x34 4)
          (s.forgetG (rd d 0x20 8) (2 * ((bytes + 4095) / 4096))).finish st St.badState
        else
          let s := s.putStream st vl (rd d 0x18 8 + r.aux) (c.map fun b => (b, false))
          let s := s.putStream st vl (rd d 0x20 8 + 2 * r.pos) ((le 2 entry).map fun b => (b, false))
          let s := s.modRun st fun r => { r with aux := r.aux + c.length, value := r.aux + c.length }
          s.nextPiece st ((bytes + 4095) / 4096)

def loadCheck (_ : State) (_ : Stream) (d : List Byte) : Bool :=
  rd d 0x34 4 != 0 && rd d 0x20 8 % 16 == 0 && tailZero d 0x38

/-- `aux` is the packed offset of the chunk and one more, once it is known; `aux2` the chunk's table entry and one more. -/
def loadPiece : Nat → State → Nat → State
  | 0, s, _ => s
  | fuel + 1, s, st =>
    match s.running? st with
    | none => s
    | some (x, r) =>
      let d := r.desc
      let vl := classVl x.cls
      let first := rd d 0x30 4
      let j := r.pos
      if r.fin then s
      else if r.aux = 0 then
        s.withData st vl [(rd d 0x18 8, 2 * first)] fun s e bs =>
          if e != St.ok then s.finish st e else
          let t := bs.map (·.1)
          let off := iterate first 0 fun i n => n + 64 * (rd t (2 * i) 2 % 128)
          loadPiece fuel (s.modRun st fun r => { r with aux := off + 1 }) st
      else if r.aux2 = 0 then
        s.withData st vl [(rd d 0x18 8 + 2 * (first + j), 2)] fun s e bs =>
          if e != St.ok then s.finish st e else
          loadPiece fuel (s.modRun st fun r => { r with aux2 := leNat (bs.map (·.1)) + 1 }) st
      else
        let entry := r.aux2 - 1
        let off := r.aux - 1
        s.withData st vl [(rd d 0x10 8 + off, 64 * (entry % 128))] fun s e bs =>
          if e != St.ok then s.finish st e else
          match openChunk (bs.map (·.1)) entry with
          | none => s.finish st St.corruptInput
          | some (f, es, bb, poison) =>
            let k := s.fresh
            let s : State := { s with fresh := k + 1 }
            let mark (l : List Byte) : List (Byte × Bool) :=
              if poison then (List.range l.length).map fun i => (Config.freeMem k i, true) else
              l.map fun b => (b, false)
            let p := bs.any (·.2)
            let s := s.putStream st vl (rd d 0x20 8 + 4096 * j) ((mark es).map fun b => (b.1, b.2 || p))
            let s := if bb.isEmpty then s else
              s.putStream st vl (rd d 0x28 8 + j * (4096 / f.bytes) / 8) ((mark bb).map fun b => (b.1, b.2 || p))
            let s := s.modRun st fun r => { r with
              aux := off + 64 * (entry % 128) + 1, aux2 := 0, value := r.value + es.length / f.bytes }
            s.nextPiece st (rd d 0x34 4)

/-! ## KVFETCH (R322) -/

def kvfetchCheck (s : State) (_ : Stream) (d : List Byte) : Bool :=
  let ref := rd d 0x10 4
  rd d 0x15 3 == 0 && rd d 0x1C 4 != 0 && tailZero d 0x28 &&
  match s.kvPool (ref / 2 ^ 28), s.kvSeq ref with
  | some q, some _ => q.phase == 2 && decide (rd d 0x14 1 < q.heads)
  | _, _ => false

/-- Latch the sequence; it waits while its record cannot come in. -/
def kvfetchLatch (s : State) (st : Nat) : State :=
  match s.running? st with
  | some (_, r) =>
    let ref := rd r.desc 0x10 4
    match s.kvSeq ref with
    | some q =>
      match s.useSeq ref q with
      | some s =>
        let s : State := { s with kv := { s.kv with latches := s.kv.latches ++ [⟨.stream st, ref, q.len, q.ver, q.pages⟩] } }
        s.modRun st fun r => { r with value := q.ver.toNat + q.len * 2 ^ 32 }
      | none => s
    | none => s.finish st St.badField
  | none => s

def kvfetchPiece (s : State) (st : Nat) : State :=
  match s.running? st with
  | none => s
  | some (x, r) =>
    let d := r.desc
    let pool := rd d 0x10 4 / 2 ^ 28
    let s := if s.kv.latches.any fun l => l.holder == LatchBy.stream st then s else s.kvfetchLatch st
    match s.kv.latches.find? (fun l => l.holder == LatchBy.stream st), s.kvPool pool with
    | some l, some q =>
      let p := rd d 0x18 4 + r.pos
      match (SMap.get? l.pages p).bind (q.frameAddr s.fab.devnum) with
      | none => s.finish st St.badField
      | some a =>
        let n := 16 * q.rowBytes
        let k := rd d 0x14 1
        let vl := classVl x.cls
        s.withData st vl [(a + k * n, n), (a + q.heads * n + k * n, n)] fun s e bs =>
          if e != St.ok then s.finish st e
          else ((s.touchPages pool l.pages [p]).putStream st vl (rd d 0x20 8 + r.pos * 2 * n) bs).nextPiece st (rd d 0x1C 4)
    | _, _ => s

/-! ## REDADD, XWOPEN, XWCLOSE (R302, R303, R321, R322) -/

/-- Bytes of a source element. -/
def redSize (okind ofmt : Nat) : Nat :=
  match okind with
  | 0 => match atomFmt ofmt with | some f => f.bytes | none => 1
  | 1 => 8 | 2 => 4 | _ => 16

def redCheck (_ : State) (_ : Stream) (d : List Byte) : Bool :=
  let op := rd d 0x24 1
  rd d 0x20 4 != 0 && op < 2 && rd d 0x27 1 == 0 && tailZero d 0x2A &&
  atomFields op (rd d 0x25 1) (rd d 0x26 1) (rdS d 0x28 2) && rd d 0x18 8 % atomBytes op == 0

/-- One element of a REDADD: applied at once where its unit is free, else queued there; or sent. -/
def redElem (s : State) (st op okind ofmt : Nat) (ea : Int) (g : Nat) (v : List Byte) : State :=
  let v1 := BitVec.ofNat 64 (rd v 0 8); let v2 := BitVec.ofNat 64 (rd v 8 8)
  let s := s.modRun st fun r => { r with wait := r.wait + 1 }
  if !gvalid g then s.elemDone st St.badField false
  else if gdev g = s.fab.devnum then
    let o : AtomOp := ⟨gloc g, op, okind, ofmt, ea, v1, v2⟩
    if s.unitFree o then
      let (e, w, s) := s.applyAtom o
      s.elemDone st (stOf e) (op == 0 && w == 1)
    else
      let (u, s) := s.uid
      { s with atoms := s.atoms ++ [⟨u, .stream st, o, false⟩] }
  else
    let p : Packet := { pktBlank with
      op := 3, dst := BitVec.ofNat 16 (gdev g), addr := BitVec.ofNat 64 g, len := 16,
      aop := BitVec.ofNat 16 (op + okind * 16 + ofmt * 64), ea := BitVec.ofInt 16 ea, data := fit 16 v }
    match s.request p 2 none (.elem st) with
    | .error e => s.elemDone st e false
    | .ok s => s

/-- `aux2` notes that a source element was poisoned. [DEDUCED, log 64] -/
def redPiece (s : State) (st : Nat) : State :=
  match s.running? st with
  | none => s
  | some (x, r) =>
    let d := r.desc
    let op := rd d 0x24 1; let okind := rd d 0x25 1; let ofmt := rd d 0x26 1; let ea := rdS d 0x28 2
    let es := redSize okind ofmt
    let cnt := rd d 0x20 4
    let n := min 256 (cnt - 256 * r.pos)
    s.withData st (classVl x.cls) [(rd d 0x10 8 + 256 * r.pos * es, n * es)] fun s e bs =>
      if e != St.ok then s.finish st e else
      let s := iterate n s fun i (s : State) =>
        let v := (bs.drop (i * es)).take es
        if v.any (·.2) then s.modRun st fun r => { r with aux2 := 1 }
        else s.redElem st op okind ofmt ea ((rd d 0x18 8 + (256 * r.pos + i) * atomBytes op) % 2 ^ 64) (v.map (·.1))
      let s := s.modStream st fun x => { x with bytes := x.bytes + BitVec.ofNat 64 (n * atomBytes op) }
      s.nextPiece st ((cnt + 255) / 256)

def xwopenPiece (s : State) (st : Nat) : State :=
  match s.running? st with
  | none => s
  | some (_, r) =>
    let d := r.desc
    let base := rd d 0x10 8; let shadow := rd d 0x18 8; let count := rd d 0x20 4; let eb := rdS d 0x24 2
    if (s.regionBad base shadow count eb).isSome then s.finish st St.badField
    else if 4096 ≤ s.regions.length then s.finish st St.badState
    else
      let (e, s) := (s.beginOpen base shadow count eb).openRegion base
      (s.modRun st fun r => { r with pieces := 1 }).finish st e

def xwclosePiece (s : State) (st : Nat) : State :=
  match s.running? st with
  | none => s
  | some (_, r) =>
    let base := rd r.desc 0x10 8
    match SMap.get? s.regions base with
    | none => s.finish st St.badField
    | some q =>
      if q.phase != 2 then s.finish st St.badState else
      let (e, v, s) := s.closeRegion base
      (s.modRun st fun r => { r with pieces := 1, value := v }).finish st e

/-! ## WAITFLAG (R322) -/

def waitCheck (s : State) (x : Stream) (d : List Byte) : Bool :=
  let c := rd d 0x10 2
  s.inMap c && rd d 0x12 2 < 4096 && tailZero d 0x1C &&
  match x.owner with
  | .prog h => match s.prog h with | some p => p.hasCore c | none => false
  | .partner _ => true

/-- The flag a WAITFLAG reads. -/
def waitValue (s : State) (x : Stream) (d : List Byte) : W32 :=
  match x.owner with
  | .prog h => match s.keptCtx h (rd d 0x10 2) with | some k => k.flag (rd d 0x12 2) | none => 0
  | .partner _ => s.readFlag (rd d 0x10 2) (rd d 0x12 2)

def waitPiece (s : State) (st : Nat) : State :=
  match s.running? st with
  | none => s
  | some (x, r) =>
    let v := s.waitValue x r.desc
    if sge v (BitVec.ofNat 32 (rd r.desc 0x14 4)) then
      (s.modRun st fun r => { r with pieces := 1, value := v.toNat }).finish st St.ok
    else s

def waitTimeout (s : State) (st : Nat) : State :=
  match s.running? st with
  | none => s
  | some (x, r) =>
    let tmo := rd r.desc 0x18 4
    if rd r.desc 0 1 != 0xA || r.fin || tmo = 0 || s.now < r.began + tmo * 2400 then s else
    let s := s.waitPiece st
    match s.running? st with
    | some (_, q) =>
      if q.fin then s else
      (s.modRun st fun q => { q with value := (s.waitValue x r.desc).toNat }).finish st St.timeout
    | none => s

/-! ## Completion (R314, R316, R320) -/

/-- The running descriptor leaves its stream. One that a block reset ended stops its stream, whose ring stays (R332).
[DEDUCED, log 133] -/
def retire (s : State) (st : Nat) (x : Stream) (r : Run) : State :=
  let bad := r.status != St.ok
  let stop := bad && (r.struck || rd r.desc 1 1 / 2 % 2 == 1)
  let x := { x with run := none, done := x.done + 1, last := r.status, stopped := stop }
  let s := s.setStream st x
  let s : State := match x.owner with
    | .partner p => if stop then s.event 3 r.status (BitVec.ofNat 64 st) (BitVec.ofNat 64 (portNo p)) else s
    | .prog h =>
      if stop && !r.struck then
        s.progFault r.core h r.pc (BitVec.ofNat 128 (leNat (s.read (textBase h + r.pc) 16)))
          ⟨0x25, 5, 0, r.status, st⟩
      else s
  let s := if Stream.idle x then s.bringIn (st % 16) else s
  deliver (s.sposts.length) s

/-- Write the result: the status of a write that is refused or fails becomes the descriptor's (R320). -/
def writeResult (s : State) (st : Nat) (r : Run) : State :=
  let d := r.desc
  if rd d 1 1 / 4 % 2 = 0 || !resultOk (rd d 8 8) then s.modRun st fun r => { r with res := 2 } else
  let bs := (resultBytes r.status r.pieces r.value).map fun b => (b, false)
  let vl := match s.stream? st with | some x => classVl x.cls | none => 1
  match s.gWritePiece (rd d 8 8) bs vl none (.result st) with
  | (.done e, s) => s.modRun st fun r => { r with res := 2, status := if e = St.ok then r.status else stOf e }
  | (_, s) => s.modRun st fun r => { r with res := 1 }

/-- Signal the flag: one of this device at once, another's by a FLAG request that is awaited. [DEDUCED, log 65] -/
def signalDone (s : State) (st : Nat) (r : Run) : State :=
  let d := r.desc
  let fl := rd d 1 1
  if fl % 2 = 0 || r.struck || (r.status != St.ok && fl / 2 % 2 = 1) then s.modRun st fun r => { r with res := 4 } else
  let fcf := rd d 4 4
  match s.sigTo (rd d 2 2) (nfld fcf 23 12) (nfld fcf 11 0) with
  | .here c n => (s.modFlag c n (signalFn false 1)).modRun st fun r => { r with res := 4 }
  | dst =>
    let (u, s) := s.signal .dev dst false 1 []
    s.modRun st fun r => { r with res := 3, aux := u }

/-- DESCRIPTOR_COMPLETE: a descriptor whose work has ended, or whose TYPE is reserved, completes. [DEDUCED, log 65, 76] -/
def descComplete (s : State) (st : Nat) : State :=
  let s : State := match s.stream? st with
    | some x =>
      match x.run, x.queue with
      | none, d :: rest =>
        if s.ready st x && !((List.range 0x20).any fun ty => ty == rd d.desc 0 1 && (List.range 5).any (typeClass ty)) then
          (s.setStream st { x with run := some (runOf d s.now), queue := rest }).finish st St.badField
        else s
      | _, _ => s
    | none => s
  match s.running? st with
  | none => s
  | some (x, r) =>
    if !r.fin || r.wait != 0 || x.paused then s else
    let poison := rd r.desc 0 1 = 7 && r.aux2 = 1 && r.status = St.ok
    let s := if r.res = 0 && poison then s.modRun st fun r => { r with status := St.poisoned } else s
    let s := if r.res = 0 then (s.releaseLatch fun l => l == LatchBy.stream st).writeResult st
        { r with status := if poison then St.poisoned else r.status } else s
    let s := match s.running? st with | some (_, r) => if r.res = 2 then s.signalDone st r else s | none => s
    match s.running? st with
    | some (x, r) => if r.res = 4 || (r.res = 3 && !s.alive r.aux) then s.retire st x r else s
    | none => s

end State

/-! ## SPOST (R315) -/

def State.spostsOut (s : State) (c h : Nat) : Nat := (s.sposts.filter fun p => p.core == c && p.h == h).length

/-- [DEDUCED, log 48] -/
def spostBody (i : Ins) (s : State) : IRes :=
  let f := i.f
  let x := s.ctx i.c
  let sr := (x.getA (fld f 19 16)).toNat
  let g := (x.getA (fld f 23 20)).toNat
  let mine := match s.stream? sr with | some y => y.owner == Owner.prog i.h && !y.stopped | none => false
  match firstFault [need (g % 64 == 0) 0x24 5 g, s.ownFault i.c g 64 0x23 5, need (decide (sr < 2 ^ 24) && mine) 0x22 5] with
  | some e => .fault s e
  | none =>
    if 8 ≤ s.spostsOut i.c i.h + s.queuedOps i 0x20 then .hold
    else s.enterUnit i 50 ⟨[⟨gloc g, gloc g + 64, false⟩], []⟩ [] <|
      let rel := if bitOf f 24 then (s.works i.c i.h).filterMap (fun w => if w.writes && w.uid < i.n then some w.uid else none) else []
      let (u, s) := s.uidFor i.n
      let s : State := { s with sposts := s.sposts ++ [⟨u, i.c, i.h, i.pc, f, sr, s.read (gloc g) 64, rel⟩] }
      .done (State.deliver s.sposts.length s)

def runSpost (c : Nat) (f : Frame) (s : State) : State :=
  s.issueCore c f (decodeCheck f 0x21 [(127, 25)]) [fld f 19 16, fld f 23 20] spostBody

def execSpost (c : Nat) (f : Frame) (s : State) : Host.Outcome State Fault Refusal := .next (s.startOp 0x20 c f (runSpost c f))

def nothing (s : State) (_ : Nat) : State := s

def execCopy (st : Nat) (s : State) : Host.Outcome State Fault Refusal :=
  .next (s.streamRow st 1 State.copyCheck State.copyBegin State.copyPiece)
def execFill (st : Nat) (s : State) : Host.Outcome State Fault Refusal :=
  .next (s.streamRow st 2 State.fillCheck nothing State.fillPiece)
def execSave (st : Nat) (s : State) : Host.Outcome State Fault Refusal :=
  .next (s.streamRow st 3 State.saveCheck nothing State.savePiece)
def execLoad (st : Nat) (s : State) : Host.Outcome State Fault Refusal :=
  .next (s.streamRow st 4 State.loadCheck nothing (State.loadPiece 3))
def execKvfetch (st : Nat) (s : State) : Host.Outcome State Fault Refusal :=
  .next (s.streamRow st 5 State.kvfetchCheck State.kvfetchLatch State.kvfetchPiece)
def execRedadd (st : Nat) (s : State) : Host.Outcome State Fault Refusal :=
  .next (s.streamRow st 7 State.redCheck nothing State.redPiece)
def execXwopen (st : Nat) (s : State) : Host.Outcome State Fault Refusal :=
  .next (s.streamRow st 8 (fun _ _ d => State.tailZero d 0x26) nothing State.xwopenPiece)
def execXwclose (st : Nat) (s : State) : Host.Outcome State Fault Refusal :=
  .next (s.streamRow st 9 (fun _ _ d => State.tailZero d 0x18) nothing State.xwclosePiece)
def execWaitflag (st : Nat) (s : State) : Host.Outcome State Fault Refusal :=
  .next (s.streamRow st 0xA State.waitCheck nothing State.waitPiece)
def execWaitflagTimeout (st : Nat) (s : State) : Host.Outcome State Fault Refusal := .next (s.waitTimeout st)
def execDescriptorComplete (st : Nat) (s : State) : Host.Outcome State Fault Refusal := .next (s.descComplete st)
def execStreamSliceExpiry (st : Nat) (s : State) : Host.Outcome State Fault Refusal := .next (s.sliceExpiry st)

/-! ## Commands (R329, R330) -/

namespace State

/-- A long command's work is given up: what it had begun is undone. -/
def undoLong (s : State) (w : LongWork) : State :=
  match w with
  | .xwOpen b => { s with regions := SMap.del s.regions b }
  | .xwClose b => s.setPhase b 2
  | .kvCreate p => { s with kv := { s.kv with pools := SMap.del s.kv.pools p } }
  | .kvDestroy p => match s.kvPool p with | some q => s.setPool p { q with phase := 2 } | none => s
  | .fwStage .. | .fwActivate .. => { s with tru := { s.tru with busy := 0, handover := none } }
  | .stepRun sp =>
    { s with tr := { s.tr with steps := s.tr.steps.map fun x => if x.1 = sp then (x.1, { x.2 with run := none }) else x } }
  | _ => s

/-- Cancel a stream, with the long command it serves. -/
def cancelAny (s : State) (st : Nat) : State :=
  match s.stream? st with
  | some x => ((match x.long with | some w => s.undoLong w | none => s).cancelStream st).bringIn (st % 16)
  | none => s

end State

/-- Check 6 for a command that names a stream at payload offset 0. -/
def withStream (m : MbxCmd) (s : State) (k : Nat → Stream → Ans × State) : Ans × State :=
  let n := rd (pay m) 0 4
  match s.stream? n with
  | some x => if s.blockDown (0x40 + n % 16) then (.refuse St.blockReset, s.countDown (0x40 + n % 16)) else k n x
  | none => (.bad 0, s)

def streamCreate : Cmd :=
  { op := 0x0400, boxes := memBoxes, len := 0x10, launch := false, trim := fun _ => false,
    check := fun m =>
      let p := pay m
      let ring := rd p 8 8
      [(0, decide (rd p 0 1 < 5)), (1, decide (rd p 1 1 < 2)), (4, decide (4 ≤ rd p 4 1) && decide (rd p 4 1 ≤ 16)),
       zeroAt m 5 3, (8, ring % 64 == 0 && decide (ring + 64 * 2 ^ rd p 4 1 ≤ lpEnd))],
    run := fun m s =>
      let p := pay m
      let h := rd p 2 2
      if rd p 1 1 = 1 && (s.prog h).isNone then (.bad 2, s) else
      match s.freeStream with
      | none => (.refuse St.badState, s)
      | some n =>
        let o : Owner := if rd p 1 1 = 1 then .prog h else .partner m.port
        let paused := match s.prog h with | some q => rd p 1 1 == 1 && q.st == 4 | none => false
        (.ok (le 4 n), s.setStream n { State.newStream (rd p 0 1) o with ring := rd p 8 8, rlog2 := rd p 4 1, paused := paused }) }

def streamPost : Cmd :=
  { op := 0x0401, boxes := memBoxes, len := 0x48, launch := false, trim := fun _ => false, check := fun m => [zeroAt m 4 4],
    run := fun m s => withStream m s fun st x =>
      if x.owner != Owner.partner m.port || x.long.isSome then (.refuse St.notAuthorised, s)
      else if x.stopped || !State.hasRoom x then (.refuse St.badState, s)
      else (.ok (le 4 (x.posted + 1).toNat), s.post st ⟨((pay m).drop 8).take 64, 0, 0⟩) }

def streamStatus : Cmd :=
  { op := 0x0402, boxes := [.host, .svc, .fm], len := 4, launch := false, trim := fun _ => false, check := fun _ => [],
    run := fun m s => withStream m s fun _ x =>
      (.ok (le 1 (State.Stream.code x) ++ le 1 x.cls ++ le 2 (match x.owner with | .prog h => h | .partner _ => 0xFFFF) ++
        le 4 x.posted.toNat ++ le 4 x.done.toNat ++ le 2 x.last ++ zeros 2 ++ le 8 x.bytes.toNat), s) }

def streamCancel : Cmd :=
  { op := 0x0403, boxes := memBoxes, len := 4, launch := false, trim := fun _ => false, check := fun _ => [],
    run := fun m s => withStream m s fun st _ => (.ok, s.cancelAny st) }

def streamDestroy : Cmd :=
  { op := 0x0404, boxes := memBoxes, len := 4, launch := false, trim := fun _ => false, check := fun _ => [],
    run := fun m s => withStream m s fun st x =>
      if State.Stream.idle x || x.stopped then
        (.ok, { s with streams := SMap.del s.streams st, sposts := s.sposts.filter fun p => p.st != st })
      else (.refuse St.badState, s) }

def usOk (v : Nat) : Bool := v == 0 || (decide (100 ≤ v) && decide (v ≤ 100000))

def streamConfig : Cmd :=
  { op := 0x0405, boxes := memBoxes, len := 4, launch := false, trim := fun _ => false,
    check := fun m => [(0, usOk (rd (pay m) 0 4))],
    run := fun m s => s.stage m.port (.streamSlice (if rd (pay m) 0 4 = 0 then 1000 else rd (pay m) 0 4)) }

def execCmdStreamCreate (m : MbxCmd) (s : State) : Host.Outcome State Fault Refusal := .next (s.issueCmd streamCreate m)
def execCmdStreamPost (m : MbxCmd) (s : State) : Host.Outcome State Fault Refusal := .next (s.issueCmd streamPost m)
def execCmdStreamStatus (m : MbxCmd) (s : State) : Host.Outcome State Fault Refusal := .next (s.issueCmd streamStatus m)
def execCmdStreamCancel (m : MbxCmd) (s : State) : Host.Outcome State Fault Refusal := .next (s.issueCmd streamCancel m)
def execCmdStreamDestroy (m : MbxCmd) (s : State) : Host.Outcome State Fault Refusal := .next (s.issueCmd streamDestroy m)
def execCmdStreamConfig (m : MbxCmd) (s : State) : Host.Outcome State Fault Refusal := .next (s.issueCmd streamConfig m)

end Sys2Proof.Machine
end

