-- ==== Sys2Proof/Machine/Ingest.lean ====
section
/-! DEFINITION. Sys2Proof/Machine/Ingest.lean: clip ingest (chapter 08): batches, clips, the pixel pipeline, and the commands.
What a decoder makes of a bitstream is the outside standards' (R269 to R271): Config gives it without a body. -/

namespace Sys2Proof.Machine

/-! ## Descriptors (R273) -/

/-- es of an output format. -/
def clipOfmt (d : List Byte) : Option Fmt :=
  match Fmt.ofCode (rd d 0x33 1) with
  | some .fp32 => some .fp32 | some .bf16 => some .bf16 | some .fp16 => some .fp16 | some .uint8 => some .uint8 | _ => none

/-- D for `chn` channels. -/
def clipD (d : List Byte) (chn : Nat) : Nat := rd d 0x30 1 * rd d 0x31 1 * rd d 0x32 1 * chn

/-- Tokens per frame group, per column, per row. -/
def clipDims (d : List Byte) : Nat × Nat × Nat := (rd d 0x2E 2 / rd d 0x30 1, rd d 0x26 2 / rd d 0x31 1, rd d 0x24 2 / rd d 0x32 1)

def within (n lo hi : Nat) : Bool := decide (lo ≤ n) && decide (n ≤ hi)

/-- Strides keep R279; before decoding the channel count is 1 for MATRIX 5 and 3 otherwise. -/
def strideOk (d : List Byte) (es : Nat) : Bool :=
  let ys (k : Nat) : Nat := rd d (0x48 + 4 * k) 4
  if rd d 0x34 1 = 0 then
    ys 0 % 16 == 0 && decide (clipD d (if rd d 0x19 1 = 5 then 1 else 3) * es ≤ ys 0) && ys 1 == 0 && ys 2 == 0 && ys 3 == 0
  else (List.range 4).all fun k => ys k % 16 == 0

/-- [DEDUCED, log 90] -/
def clipOk (d : List Byte) : Bool :=
  let b (o : Nat) : Nat := rd d o 1
  let h (o : Nat) : Nat := rd d o 2
  match clipOfmt d with
  | none => false
  | some f =>
    gvalid (rd d 0 8) && rd d 8 8 % 16 == 0 && gvalid (rd d 8 8) && within (rd d 0x10 4) 1 1048576 &&
    decide (rd d 0x14 4 < rd d 0x10 4) && decide (b 0x18 < 5) && decide (b 0x19 < 6) && decide (b 0x1A < 3) &&
    decide (b 0x1B < 4) && within (h 0x20) 1 8192 && within (h 0x22) 1 4352 && within (h 0x24) 1 8192 &&
    within (h 0x26) 1 4352 && within (h 0x2C) 1 64 && decide (1 ≤ h 0x2E) && within (b 0x30) 1 8 && within (b 0x31) 1 32 &&
    within (b 0x32) 1 32 && decide (b 0x34 < 2) && decide (b 0x35 < 4) && h 0x36 == 0 && decide (rd d 0x38 4 ≤ 10000000) &&
    rd d 0x3C 4 == 0 && resultOk (rd d 0x40 8) &&
    ((List.range 3).all fun k => (dec32 (BitVec.ofNat 32 (rd d (0x64 + 4 * k) 4))).isFinite) && resultOk (rd d 0x70 8) &&
    rd d 0x78 8 == 0 &&
    (b 0x1B != 2 || (decide (h 0x24 ≤ h 0x20) && decide (h 0x26 ≤ h 0x22))) &&
    (b 0x1B != 3 || (h 0x24 == h 0x20 && h 0x26 == h 0x22)) &&
    h 0x2E % b 0x30 == 0 && h 0x26 % b 0x31 == 0 && h 0x24 % b 0x32 == 0 &&
    (f != .uint8 || b 0x35 % 2 == 0) && !(b 0x34 == 1 && f == .fp32) && strideOk d f.bytes

/-- Frames that decoding must output: up to the last selected one (R274). -/
def clipFrames (d : List Byte) : Nat := rd d 0x28 4 + (rd d 0x2E 2 - 1) * rd d 0x2C 2 + 1

/-! ## The pixel pipeline (R275 to R278) -/

/-- One FP32 rounding. -/
def r32 (x : XF) : XF := dec32 (enc32 x)

/-- The FP32 value nearest to a ratio. [DEDUCED, log 91] -/
def ratio (a b : Int) : XF := r32 ((XF.ofDy a 0).div (XF.ofDy b 0))

def clamp01 (x : XF) : XF :=
  if XF.lt x (.zero false) then .zero false else if XF.lt (XF.ofDy 1 0) x then XF.ofDy 1 0 else x

/-- Kr and Kb in units of 1/10,000. -/
def kCoef (m : Nat) : Int × Int := match m with | 1 => (2990, 1140) | 3 => (2627, 593) | _ => (2126, 722)

/-- What colour conversion needs to know: `subX` and `subY` say how chroma is subsampled, `siteX` and `siteY` where its samples lie, in
half luma samples. -/
structure Colour where
  matrix : Nat
  full   : Bool
  ten    : Bool
  mono   : Bool
  subX   : Bool
  subY   : Bool
  siteX  : Nat
  siteY  : Nat
  deriving DecidableEq, Repr

/-- The conversion in force for a clip, from its descriptor and its access units: JPEG chroma is sited at the centre. -/
def Colour.of (d : List Byte) (us : List (List Byte)) : Colour :=
  let codec := rd d 0x18 1
  let jpeg := codec = 4
  let (_, depth, chroma, _) := Config.clipForm codec us
  let (_, _, flags) := Config.clipGeometry codec us
  let m := rd d 0x19 1
  let src := flags / 2 % 4
  { matrix := if m != 0 then m else if jpeg then 1 else if src = 0 then 2 else src
    full := if rd d 0x1A 1 != 0 then rd d 0x1A 1 == 2 else jpeg || flags % 2 == 1
    ten := depth == 10, mono := chroma == 0
    subX := chroma == 1 || chroma == 2, subY := chroma == 1
    siteX := if jpeg then 1 else flags / 8 % 4, siteY := if jpeg then 1 else flags / 32 % 4 }

def Colour.chn (k : Colour) : Nat := if k.mono || k.matrix = 5 then 1 else 3

/-- A normalised sample: luma for plane 0, else chroma. -/
def Colour.norm (k : Colour) (pl : Nat) (v : XF) : XF :=
  let u : Int := if k.ten then 4 else 1
  let off : Int := if k.full then (if pl = 0 then 0 else 128 * u) else if pl = 0 then 16 * u else 128 * u
  let range : Int := if k.full then 256 * u - 1 else if pl = 0 then 219 * u else 224 * u
  r32 ((r32 (v.sub (XF.ofDy off 0))).div (XF.ofDy range 0))

/-- Taps of one dimension of `n` chroma samples for luma position `x`: the two samples about it with their weights in quarters; past an
edge the edge sample counts (R275). [DEDUCED, log 91] -/
def chromaTaps (sub : Bool) (site n x : Nat) : List (Nat × Int) :=
  if !sub then [(x, 4)] else
  let num : Int := 2 * (x : Int) - site
  let i := num.fdiv 4
  let f := num - 4 * i
  let edge (k : Int) : Nat := (max 0 (min k (n - 1 : Int))).toNat
  [(edge i, 4 - f), (edge (i + 1), f)]

/-- Chroma at luma position (`x`, `y`) of a frame of `w` by `h`, interpolated from the samples `smp` of its plane. -/
def Colour.chroma (k : Colour) (w h : Nat) (smp : Nat → Nat → Nat) (x y : Nat) : XF :=
  let cols := chromaTaps k.subX k.siteX ((w + 1) / 2) x
  let rows := chromaTaps k.subY k.siteY ((h + 1) / 2) y
  let sum : Int := rows.foldl (fun a r => cols.foldl (fun a c => a + r.2 * c.2 * smp c.1 r.1) a) 0
  r32 (XF.ofDy sum (-4))

/-- Channel `c` from the three normalised samples. -/
def Colour.channel (k : Colour) (c : Nat) (y cb cr : XF) : XF :=
  if k.chn = 1 then clamp01 y
  else if k.matrix = 4 then
    clamp01 (if c = 0 then y else r32 ((if c = 1 then cb else cr).add (ratio 1 2)))
  else
    let (kr, kb) := kCoef k.matrix
    let red := r32 (y.add (r32 ((ratio (2 * (10000 - kr)) 10000).mul cr)))
    let blue := r32 (y.add (r32 ((ratio (2 * (10000 - kb)) 10000).mul cb)))
    let green := r32 ((r32 ((r32 (y.sub (r32 ((ratio kr 10000).mul red)))).sub (r32 ((ratio kb 10000).mul blue)))).div
      (ratio (10000 - kr - kb) 10000))
    clamp01 (if c = 0 then red else if c = 1 then green else blue)

/-- Taps of one dimension at output position `x`: source position and the numerator of its weight, with the common
denominator. -/
def taps (mode cw ow x : Nat) : List (Nat × Int) × Int :=
  let edge (i : Int) : Nat := (max 0 (min i (cw - 1 : Int))).toNat
  let den : Int := 2 * ow
  let num : Int := (2 * x + 1) * cw - ow
  let i := num.fdiv den
  let f := num - i * den
  match mode with
  | 0 => ([(edge i, den - f), (edge (i + 1), f)], den)
  | 1 =>
    let near (n : Int) : Int := 3 * n ^ 3 - 5 * n ^ 2 * den + 2 * den ^ 3
    let far (n : Int) : Int := -(n ^ 3) + 5 * n ^ 2 * den - 8 * n * den ^ 2 + 4 * den ^ 3
    ([(edge (i - 1), far (f + den)), (edge i, near f), (edge (i + 1), near (den - f)), (edge (i + 2), far (2 * den - f))],
     2 * den ^ 3)
  | 2 =>
    ((List.range cw).filterMap fun j =>
      let w : Int := min (((j + 1) * ow : Nat) : Int) ((x + 1) * cw : Nat) - max ((j * ow : Nat) : Int) (x * cw : Nat)
      if 0 < w then some (j, w) else none, ow)
  | _ => ([(x, 1)], 1)

/-- A pixel of the resized frame, channel by the function `px` of source row and column inside the crop (R277).
[DEDUCED, log 91] -/
def resized (d : List Byte) (px : Nat → Nat → XF) (oy ox : Nat) : XF :=
  let mode := rd d 0x1B 1
  let cw := rd d 0x20 2; let ch := rd d 0x22 2; let ow := rd d 0x24 2; let oh := rd d 0x26 2
  if mode = 3 then px oy ox else
  let (rows, dr) := taps mode ch oh oy
  let (cols, dc) := taps mode cw ow ox
  let sum := rows.foldl (fun a r => cols.foldl (fun a c => Stem.fma (ratio (r.2 * c.2) (dr * dc)) (px r.1 c.1) a) a) (.zero false)
  clamp01 (if mode = 2 then r32 (sum.div (ratio (cw * ch : Nat) (ow * oh : Nat))) else sum)

/-- The code stored for a value of channel `c` (R278). [DEDUCED, log 91] -/
def clipCode (d : List Byte) (f : Fmt) (c : Nat) (v : XF) : Nat :=
  let fp (o : Nat) : XF := dec32 (BitVec.ofNat 32 (rd d (o + 4 * c) 4))
  if rd d 0x35 1 % 2 = 1 then (convert f (r32 ((r32 (v.sub (fp 0x58))).mul (fp 0x64)))).1
  else if f = .uint8 then (convert f (v.mul (XF.ofDy 255 0))).1
  else (convert f v).1

/-- The bytes of token (`t`, `h`, `w`), for `chn` channels (R279). -/
def tokenBytes (d : List Byte) (f : Fmt) (chn : Nat) (val : Nat → Nat → Nat → Nat → XF) (t h w : Nat) : List Byte :=
  let pt := rd d 0x30 1; let ph := rd d 0x31 1; let pw := rd d 0x32 1
  (List.range pt).flatMap fun tt => (List.range ph).flatMap fun hh => (List.range pw).flatMap fun ww =>
    (List.range chn).flatMap fun c =>
      le f.bytes (clipCode d f c (val (pt * t + tt) (ph * h + hh) (pw * w + ww) c))

/-- Where a token's bytes go. -/
def tokenRuns (d : List Byte) (f : Fmt) (t h w : Nat) (bs : List Byte) : List (Nat × List Byte) :=
  let ys (k : Nat) : Nat := rd d (0x48 + 4 * k) 4
  let dst := rd d 0x40 8
  let (_, nh, nw) := clipDims d
  if rd d 0x34 1 = 0 then [(dst + ((t * nh + h) * nw + w) * ys 0, bs)]
  else
    let n := (if f = .uint8 then 32 else 16) * f.bytes
    let k := (bs.length + n - 1) / n
    (chunks n k bs).zipIdx.map fun x => (dst + t * ys 2 + h * ys 1 + w * ys 0 + x.2 * ys 3, fit n x.1)

/-- Everything a completed clip writes: token, address and bytes. -/
def clipOutput (d : List Byte) (f : Fmt) (units : List (List Byte)) (k : Colour) : List (Nat × Nat × List Byte) :=
  let codec := rd d 0x18 1
  let (w, h, _) := Config.clipGeometry codec units
  let sample (fr pl y x : Nat) : XF :=
    let at' (x y : Nat) : Nat := (Config.clipSample codec units fr pl x y).toNat
    let x := rd d 0x1C 2 + x; let y := rd d 0x1E 2 + y
    k.norm pl (if pl = 0 then XF.ofDy (at' x y) 0 else k.chroma w h at' x y)
  let val (i oy ox c : Nat) : XF :=
    let fr := rd d 0x28 4 + i * rd d 0x2C 2
    resized d (fun y x => k.channel c (sample fr 0 y x) (sample fr 1 y x) (sample fr 2 y x)) oy ox
  let (nt, nh, nw) := clipDims d
  (List.range nt).flatMap fun t => (List.range nh).flatMap fun h => (List.range nw).flatMap fun w =>
    (tokenRuns d f t h w (tokenBytes d f k.chn val t h w)).map fun o => ((t * nh + h) * nw + w, o)

/-! ## Reading and decoding (R274, R281) -/

/-- What has been found of a clip so far: it needs more data (the next range), or it is at its end. -/
inductive ClipScan where
  | need (g n : Nat) (units : List (List Byte))
  | ended (status reason : Nat) (units : List (List Byte))
  deriving DecidableEq, Repr

/-- Does an engine decode this form of bitstream (R269)? Profiles are the standards' numbers: AV1 Main 0, HEVC Main 1 and Main 10 2, H.264
High 100, VP9 0 and 2, JPEG baseline 0. -/
def formOk (codec : Nat) (x : Nat × Nat × Nat × Nat) : Bool :=
  let (prof, depth, chroma, level) := x
  match codec with
  | 0 => prof == 0 && (depth == 8 || depth == 10) && decide (chroma < 2) && decide (level ≤ 63)
  | 1 => ((prof == 1 && depth == 8) || (prof == 2 && (depth == 8 || depth == 10))) && chroma == 1 && decide (level ≤ 62)
  | 2 => prof == 100 && depth == 8 && decide (chroma < 2) && decide (level ≤ 62)
  | 3 => ((prof == 0 && depth == 8) || (prof == 2 && depth == 10)) && chroma == 1 && decide (level ≤ 62)
  | _ => prof == 0 && depth == 8 && decide (chroma < 4)

/-- What the units read so far show: 0 the last selected frame is output, 6 more units are needed, else the reason of a corrupt clip
(R270, R276, R281). [DEDUCED, log 90] -/
def clipFinds (d : List Byte) (us : List (List Byte)) : Nat :=
  let codec := rd d 0x18 1
  let r := Config.clipReason codec us (clipFrames d)
  let seen := r = 0 || Config.clipDecoded codec us (clipFrames d) != 0
  let (w, h, _) := Config.clipGeometry codec us
  if r = 1 && !seen then 1
  else if !formOk codec (Config.clipForm codec us) then 3
  else if seen && !(within w 16 8192 && within h 16 4352) then 4
  else if seen && (w < rd d 0x1C 2 + rd d 0x20 2 || h < rd d 0x1E 2 + rd d 0x22 2) then 7
  else if [0, 2, 3, 5, 6].contains r then r else 1

/-- Go through the units read: `bs` holds the entry and the bytes of each in turn, from SAU. [DEDUCED, log 90] -/
def scanUnits (d : List Byte) : Nat → Nat → List (Byte × Bool) → List (List Byte) → ClipScan
  | 0, _, _, us => .ended St.corruptInput 6 us
  | fuel + 1, i, bs, us =>
    if rd d 0x10 4 ≤ i then .ended St.corruptInput 6 us
    else if bs.length < 16 then .need (rd d 8 8 + 16 * i) 16 us
    else
      let e := (bs.take 16).map (·.1)
      let off := rd e 0 8; let len := rd e 8 4
      let g := rd d 0 8 + off
      if (bs.take 16).any (·.2) then .ended St.poisoned 0 us
      else if len = 0 || 2 ^ 26 < len || 1 < rd e 0xC 4 || (i = rd d 0x14 4 && rd e 0xC 4 % 2 = 0) || !gvalid (g + len) ||
          gdev g != gdev (g + len) then .ended St.corruptInput 8 us
      else
        let rest := bs.drop 16
        if rest.length < len then .need g len us
        else if (rest.take len).any (·.2) then .ended St.poisoned 0 us
        else
          let us := us ++ [(rest.take len).map (·.1)]
          match clipFinds d us with
          | 0 => .ended St.ok 0 us
          | 6 => scanUnits d fuel (i + 1) (rest.drop len) us
          | r => .ended St.corruptInput r us

/-- The statuses a record may hold (R283). [DEDUCED, log 90] -/
def clipStatus (e : Nat) : Nat :=
  if [St.badState, St.timeout, St.poisoned, St.departed, St.blockReset].contains e then e else St.badField

namespace State

/-- Change the running clip of an engine. -/
def modClip (s : State) (e : Nat) (g : ClipRun → ClipRun) : State :=
  let x := s.igEngine e
  s.setIgEngine e { x with run := x.run.map g }

/-- Read on for engine `e` until data is on its way or the scan ends. -/
def clipScan (d : List Byte) : Nat → State → Nat → Option (Nat × Nat × List (List Byte)) × State
  | 0, s, _ => (some (St.badState, 0, []), s)
  | fuel + 1, s, e =>
    let key := FetchKey.clip e
    match s.fetch? key with
    | none => (some (St.badState, 0, []), s)
    | some f =>
      if f.missing != 0 then (none, s)
      else
        let n := f.bytes.length
        match scanUnits d (rd d 0x10 4 + 1) (rd d 0x14 4) (f.data 128 (n - 128)) [] with
        | .ended st r us => (some (st, r, us), s)
        | .need g k us =>
          if f.status != St.ok then (some (clipStatus f.status, 0, us), s)
          else clipScan d fuel (s.fetchMore key [(g, k)] 3 none n) e

/-- The units engine `e` has read of its clip. -/
def clipUnits (s : State) (e : Nat) (d : List Byte) : List (List Byte) :=
  match s.fetch? (.clip e) with
  | some f =>
    match scanUnits d (rd d 0x10 4 + 1) (rd d 0x14 4) (f.data 128 (f.bytes.length - 128)) [] with
    | .ended _ _ us | .need _ _ us => us
  | none => []

/-- How many luma pixels a frame has. -/
def clipPix (d : List Byte) (us : List (List Byte)) : Nat :=
  let g := Config.clipGeometry (rd d 0x18 1) us
  g.1 * g.2.1

def clipLate (s : State) (r : ClipRun) : Bool := decide (r.began + r.tmo * 2400 ≤ s.now)

/-- What a clip that ends badly does to its area (R284): it fills its layout with zeros, by writes that are awaited, or leaves it not
defined. -/
def clipSpoil (s : State) (e : Nat) (r : ClipRun) : Nat × State :=
  if rd r.desc 0x35 1 / 2 % 2 = 1 then
    (clipArea r.desc r.chn).foldl (fun (a : Nat × State) x =>
      let q := a.2.gWrite x.1 ((zeros x.2).map fun b => (b, false)) 3 none (.clip e 0)
      (a.1 + q.2.1, q.2.2)) (0, s)
  else (0, (clipArea r.desc r.chn).foldl (fun s a => s.forgetG a.1 a.2) s)

/-- A clip that has ended goes on to its record: when its outputs are out it is late if it ends at its deadline (R282), then its area is
filled, and the record follows the fill (R283, R284). [DEDUCED, log 92] -/
def clipClose (s : State) (e : Nat) : State :=
  match (s.igEngine e).run with
  | none => s
  | some r =>
    match r.fin with
    | none => s
    | some (st, reason, dec, out) =>
      if r.wait != 0 then s else
      let st := if st = St.ok && s.clipLate r then St.timeout else st
      let tok := out - r.lost.eraseDups.length
      let us := s.clipUnits e r.desc
      let (n, s) := if st = St.ok || r.fill || r.desc.isEmpty || !clipOk r.desc then (0, s) else s.clipSpoil e r
      if n != 0 then s.modClip e fun _ => { r with fin := some (st, reason, dec, out), wait := n, fill := true }
      else
        let s := if r.desc.isEmpty then s else s.clipRecord (rd r.desc 0x70 8) st reason dec tok e r.batch
        s.clipGone e st dec (clipPix r.desc us)

/-- The clip `r` of engine `e` ends: status, reason, frames decoded. -/
def clipEnd (s : State) (e : Nat) (r : ClipRun) (status reason decoded : Nat) : State :=
  (s.modClip e fun _ => { r with fin := some (status, reason, decoded, 0) }).clipClose e

/-- The channels of a clip, from the units read so far. -/
def clipChn (d : List Byte) (us : List (List Byte)) : Nat := (Colour.of d us).chn

/-- The scan has ended: decode, and write the outputs of a good clip. -/
def clipRun (s : State) (e : Nat) (r : ClipRun) (status reason : Nat) (us : List (List Byte)) : State :=
  let d := r.desc
  let dec := Config.clipDecoded (rd d 0x18 1) us (clipFrames d)
  let r := { r with chn := clipChn d us }
  if status != St.ok then s.clipEnd e r status reason dec
  else if s.clipLate r then s.clipEnd e r St.timeout 0 dec
  else
    match clipOfmt d with
    | none => s
    | some f =>
      let (nt, nh, nw) := clipDims d
      let (st, n, lost, s) := (clipOutput d f us (Colour.of d us)).foldl (fun (a : Nat × Nat × List Nat × State) o =>
        let q := a.2.2.2.gWrite o.2.1 (o.2.2.map fun b => (b, false)) 3 none (.clip e o.1)
        (if a.1 = St.ok then q.1 else a.1, a.2.1 + q.2.1, if q.1 = St.ok then a.2.2.1 else o.1 :: a.2.2.1, q.2.2)) (St.ok, 0, [], s)
      s.modClip e fun _ => { r with
        fin := some (if st = St.ok then st else clipStatus (stOf st), 0, dec, nt * nh * nw), wait := n, lost := lost }

/-- A write of a clip has been answered: of token `t`, or of the fill. -/
def clipAnswer (s : State) (e t status : Nat) : State :=
  s.modClip e fun r =>
    if r.fill || status = St.ok then { r with wait := r.wait - 1 }
    else { r with
      wait := r.wait - 1, lost := t :: r.lost
      fin := r.fin.map fun f => if f.1 = St.ok then (clipStatus status, 0, f.2.2) else f }

/-- CLIP_COMPLETE: the engine's clip goes on as far as its data allows, and ends. -/
def clipComplete (s : State) (e : Nat) : State :=
  match (s.igEngine e).run with
  | none => s
  | some r =>
    let key := FetchKey.clip e
    match r.fin with
    | some _ => s.clipClose e
    | none =>
      let (r, s) : Option ClipRun × State :=
        if !r.desc.isEmpty then (some r, s) else
        match s.fetch? key with
        | some f =>
          if f.missing != 0 then (none, s)
          else if f.status != St.ok then (none, s.clipEnd e r (clipStatus f.status) 0 0)
          else
            let d := (f.data 0 128).map (·.1)
            let r := { r with desc := d, tmo := if rd d 0x38 4 = 0 then r.tmo else rd d 0x38 4, chn := clipChn d [] }
            if (f.data 0 128).any (·.2) then (none, s.clipEnd e r St.poisoned 0 0)
            else if !clipOk d then (none, s.clipEnd e r St.badField 0 0)
            else (some r, s.modClip e fun _ => r)
        | none => (none, s)
      match r with
      | none => s
      | some r =>
        match clipScan r.desc (2 * rd r.desc 0x10 4 + 2) s e with
        | (some (st, reason, us), s) => s.clipRun e r st reason us
        | (none, s) => s.modClip e fun r => { r with chn := clipChn r.desc (s.clipUnits e r.desc) }

/-- CLIP_TIMEOUT (R282): outputs that are on their way are awaited before the record. [DEDUCED, log 92] -/
def clipTimeout (s : State) (e : Nat) : State :=
  match (s.igEngine e).run with
  | none => s
  | some r =>
    if !s.clipLate r then s else
    match r.fin with
    | some f => (s.modClip e fun r => { r with fin := some (if f.1 = St.ok then St.timeout else f.1, f.2) }).clipClose e
    | none =>
      let s := s.dropConts fun c => match c with | .fetch (.clip n) _ => n == e | _ => false
      let k := s.fresh
      ({ s with fresh := k + 1 }).clipEnd e { r with chn := clipChn r.desc (s.clipUnits e r.desc) } St.timeout 0
        (Config.freeNat k % 2 ^ 32)

/-! ## Batches (R286, R287) -/

/-- May clips of a batch start: its stream is in and goes on? -/
def batchOn (s : State) (b : Batch) : Bool :=
  match s.stream? b.st with
  | some x => !x.saved && !x.paused && !x.stopped && !s.killed x && !s.blockDown (0x40 + b.st % 16)
  | none => false

/-- The engines a batch may use. -/
def batchMask (s : State) (b : Batch) : BitVec 8 := b.mask &&& s.ig.enable

/-- Idle engines a batch may use now. -/
def idleFor (s : State) (b : Batch) : List Nat :=
  (List.range 8).filter fun e => (s.batchMask b).getLsbD e && (s.igEngine e).run.isNone && !s.blockDown (0x30 + e)

/-- The batch whose clip starts next and the engine that takes it. -/
def nextClip (s : State) : Option (Batch × Nat) :=
  (s.ig.batches.find? fun b => !b.todo.isEmpty && s.batchOn b && !(s.idleFor b).isEmpty).bind fun b =>
    let es := s.idleFor b
    ((List.range 8).findSome? fun i => if es.contains ((s.ig.rot + i) % 8) then some ((s.ig.rot + i) % 8) else none).map
      fun e => (b, e)

/-- CLIP_START: engine `e` takes the next clip when it is its turn. -/
def clipStart (s : State) (e : Nat) : State :=
  match s.nextClip with
  | some (b, k) =>
    match b.todo with
    | [] => s
    | a :: rest =>
      if k != e then s else
      let s := ({ s with ig := { s.ig with rot := (e + 1) % 8 } }).modBatch b.uid fun x => { x with todo := rest, live := x.live + 1 }
      let x := s.igEngine e
      let s := s.setIgEngine e { x with run := some ⟨b.uid, a, [], s.now, s.ig.defTmo, none, 0, 3, [], false⟩ }
      s.fetchNew (.clip e) [(a, 128)] 3 none
  | none => s

/-- A batch header: NCLIP, ENGMASK, LIST. [DEDUCED, log 90] -/
def batchOk (h : List Byte) : Bool :=
  within (rd h 0 4) 1 4096 && rd h 5 3 == 0 && rd h 8 8 % 64 == 0 && gvalid (rd h 8 8)

/-- A batch arrives at the ingest block for stream `st`. -/
def batchArrive (s : State) (st : Nat) (h : List Byte) : State :=
  let (u, s) := s.uid
  { s with ig := { s.ig with batches := s.ig.batches ++
    [⟨u, st, BitVec.ofNat 8 (rd h 4 1), (List.range (rd h 0 4)).map fun i => rd h 8 8 + 128 * i, 0, 0, 0⟩] } }

/-- The records of a batch that no engine may run: `ST_BAD_STATE` for each clip whose descriptor can be read, one after another.
[DEDUCED, log 92] -/
def batchRefuse : Nat → State → Nat → State
  | 0, s, _ => s
  | k + 1, s, st =>
    match s.ig.batches.find? fun b => b.st == st with
    | some b =>
      match b.todo with
      | [] => s
      | a :: rest =>
        let key := FetchKey.batch st
        let s := match s.fetch? key with | some _ => s | none => s.fetchNew key [(a, 128)] 3 none
        match s.fetch? key with
        | some f =>
          if f.missing != 0 then s else
          let s := s.dropFetch key
          let s := if f.status = St.ok then s.clipRecord (rd ((f.data 0 128).map (·.1)) 0x70 8) St.badState 0 0 0 0 b.uid else s
          batchRefuse k (s.modBatch b.uid fun x => { x with todo := rest, bad := x.bad + 1 }) st
        | none => s
    | none => s

/-- Settle a batch: refused when it shares no engine with the enabled set; its clips all ended and their records written, it is taken off
(R286). -/
def batchEnd (s : State) (st : Nat) : Option Nat × State :=
  let s := match s.ig.batches.find? fun b => b.st == st with
    | some b => if s.batchMask b = 0 then batchRefuse b.todo.length s st else s
    | none => s
  match s.ig.batches.find? fun b => b.st == st with
  | some b =>
    if b.todo.isEmpty && b.live = 0 && b.wait = 0 then
      (some b.bad, { s with ig := { s.ig with batches := s.ig.batches.filter fun x => x.uid != b.uid } })
    else (none, s)
  | none => (none, s)

/-- One piece of INGEST: read the header once, then wait for the batch. -/
def ingestPiece (s : State) (st : Nat) : State :=
  match s.running? st with
  | none => s
  | some (x, r) =>
    let s : State := if r.aux = 1 then s else
      s.withData st (classVl x.cls) [(rd r.desc 0x10 8, 16)] fun s e bs =>
        if e != St.ok then s.finish st e
        else if bs.any (·.2) then s.finish st St.poisoned
        else if !batchOk (bs.map (·.1)) then s.finish st St.badField
        else (s.batchArrive st (bs.map (·.1))).modRun st fun r => { r with aux := 1, pieces := rd (bs.map (·.1)) 0 4 }
    match s.running? st with
    | some (_, r) =>
      if r.fin || r.aux = 0 then s else
      match s.batchEnd st with
      | (some bad, s) => (s.modRun st fun r => { r with value := bad }).finish st St.ok
      | (none, s) => s
    | none => s

/-- The header of a submitted batch: it arrives when it has been read; a bad one ends the command. `igBatch noResult`
says that this is done. -/
def submitGo (s : State) (st : Nat) : State :=
  match s.stream? st with
  | some x =>
    match x.long with
    | some (.igBatch g) =>
      if g = noResult then s else
      let key := FetchKey.batch st
      let s := match s.fetch? key with | some _ => s | none => s.fetchNew key [(g, 16)] 3 none
      match s.fetch? key with
      | some f =>
        if f.missing != 0 then s else
        let h := (f.data 0 16).map (·.1)
        let e := if f.status != St.ok then f.status else if !f.pois.isEmpty then St.poisoned
          else if batchOk h then St.ok else St.badField
        let s := (s.dropFetch key).modStream st fun x => { x with long := some (.igBatch noResult), last := e, rlog2 := rd h 0 4 }
        if e = St.ok then s.batchArrive st h else s
      | none => s
    | _ => s
  | none => s

end State

/-! ## Commands (R288) -/

def igSubmit : Cmd :=
  { op := 0x0700, boxes := [.host, .svc], len := 8, launch := false, trim := fun _ => false,
    check := fun m => [(0, resultOk (rd (pay m) 0 8))],
    run := fun m s =>
      match s.beginLong m 0x0700 State.noResult (.igBatch (rd (pay m) 0 8)) with
      | some (n, s) => (.accepted n, s.submitGo n)
      | none => (.refuse St.badState, s) }

/-- The BUSY mask. -/
def State.igBusy (s : State) : Nat := iterate 8 0 fun e n => if (s.igEngine e).run.isSome then n + 2 ^ e else n

def igStatus : Cmd :=
  { op := 0x0701, boxes := [.host, .svc], len := 0, launch := false, trim := fun _ => false, check := fun _ => [],
    run := fun _ s => (.ok (le 1 s.ig.enable.toNat ++ le 1 s.igBusy ++ zeros 6 ++ le 8 s.ig.ok.toNat ++
      le 8 s.ig.corrupt.toNat ++ le 8 s.ig.timed.toNat ++ le 8 s.ig.pixels.toNat), s) }

def igConfig : Cmd :=
  { op := 0x0702, boxes := [.host, .svc], len := 8, launch := false, trim := fun _ => false,
    check := fun m => [zeroAt m 1 3, (4, rd (pay m) 4 4 == 0 || within (rd (pay m) 4 4) 1000 10000000)],
    run := fun m s => s.stage m.port (.ingest (BitVec.ofNat 8 (rd (pay m) 0 1))
      (if rd (pay m) 4 4 = 0 then 100000 else rd (pay m) 4 4)) }

def execCmdIgSubmit (m : MbxCmd) (s : State) : Host.Outcome State Fault Refusal := .next (s.issueCmd igSubmit m)
def execCmdIgStatus (m : MbxCmd) (s : State) : Host.Outcome State Fault Refusal := .next (s.issueCmd igStatus m)
def execCmdIgConfig (m : MbxCmd) (s : State) : Host.Outcome State Fault Refusal := .next (s.issueCmd igConfig m)
def execClipStart (e : Nat) (s : State) : Host.Outcome State Fault Refusal := .next (s.clipStart e)
def execClipComplete (e : Nat) (s : State) : Host.Outcome State Fault Refusal := .next (s.clipComplete e)
def execClipTimeout (e : Nat) (s : State) : Host.Outcome State Fault Refusal := .next (s.clipTimeout e)
def execIngest (st : Nat) (s : State) : Host.Outcome State Fault Refusal :=
  .next (s.streamRow st 6 (fun _ _ d => State.tailZero d 0x18) nothing State.ingestPiece)

end Sys2Proof.Machine
end

