-- ==== Sys2Proof/Machine/Requests.lean ====
section
/-! DEFINITION. Sys2Proof/Machine/Requests.lean: what the device does with the READ, WRITE, ATOMIC and FLAG requests of other devices
(R345, R346, R349 to R352, R356 to R358, R364). -/

namespace Sys2Proof.Machine

/-- Is a packet a response? -/
def pktResp (p : Packet) : Bool := p.flags.getLsbD 0

/-- The fields of a request's header that R344 has zero are zero. [DEDUCED, log 95] -/
def pktClean (p : Packet) : Bool :=
  fld p.flags 7 3 == 0 && fld p.poison 7 4 == 0 && p.rsv1 == 0 && p.rsv2 == 0 && p.status == 0 &&
  (p.op == 3 || p.ea == 0) && (p.op == 4 || p.val == 0) &&
  (match p.op.toNat with
   | 3 => fld p.aop 15 10 == 0
   | 4 => fld p.aop 15 2 == 0
   | 8 => fld p.addr 3 3 == 0 && fld p.addr 31 13 == 0
   | _ => true)

/-- A range of 1 to 256 bytes within one 256-byte block. -/
def blockOk (a n : Nat) : Bool := decide (1 ≤ n) && decide (a % 256 + n ≤ 256)

namespace State

/-! ## Exposure (R350, R351) -/

/-- The enabled entries of kind `kind` that take in device `src`. -/
def entriesFor (s : State) (kind src : Nat) : List Expose :=
  (s.fab.expose.map (·.2)).filter fun e => e.kind == kind && decide (e.dlo ≤ src) && decide (src ≤ e.dhi)

/-- Does one entry grant right `bit` for all of `n` bytes at local address `a`? -/
def permits (s : State) (src a n bit : Nat) : Bool :=
  (s.entriesFor 1 src).any fun e => e.perm.getLsbD bit && decide (e.base ≤ a) && decide (a + n ≤ e.base + e.size)

/-- Does one entry let device `src` signal flags of core `c`? -/
def permitsFlag (s : State) (src c : Nat) : Bool :=
  (s.entriesFor 2 src).any fun e => e.perm.getLsbD 4 && decide (e.base ≤ c) && decide (c < e.base + e.size)

/-- Does a range lie wholly in a frozen entry's (R364)? -/
def wholeFrozen (s : State) (a n : Nat) : Bool :=
  s.fab.expose.any fun e => e.2.kind == 1 && e.2.perm.getLsbD 3 && decide (e.2.base ≤ a) && decide (a + n ≤ e.2.base + e.2.size)

/-! ## Which requests are heard (R346, R349) -/

/-- Has the leave point passed? -/
def departed (s : State) : Bool :=
  match s.fab.devState with | 1 => false | 2 => s.fab.leaving.isSome | _ => true

/-- Answer the sender of a request. [DEDUCED, log 93] -/
def reply (s : State) (p : Packet) (status : Nat) (bs : List (Byte × Bool) := []) (frozen : Bool := false) : State :=
  s.respondPkt p.op.toNat p.src.toNat p.tag.toNat p.vl status bs frozen

/-- The header-level checks a request passes before its operation is looked at: the status of the first that fails. -/
def heard (s : State) (link : Nat) (p : Packet) : Option Nat × State :=
  if s.departed then (some St.departed, s)
  else if p.dst.toNat != s.fab.devnum then
    (some St.badField, if p.dst.toNat = 0xFFFF then s else s.logErrSev 0 (0x10 + link / 2) 0x11 (BitVec.ofNat 64 (link / 2)) 0 [])
  else if !pktClean p then (some St.badField, s)
  else (none, s)

/-- A GOP or TIME packet, which receives no response: one for another device is logged (R349), and one with a nonzero reserved field has no
effect (R345). [DEDUCED, log 95] -/
def unanswered (s : State) (link : Nat) (p : Packet) (run : State → State) : State :=
  if pktResp p then s
  else if s.departed then s
  else if p.dst.toNat != s.fab.devnum then
    if p.dst.toNat = 0xFFFF then s else s.logErrSev 0 (0x10 + link / 2) 0x11 (BitVec.ofNat 64 (link / 2)) 0 []
  else if !pktClean p then s else run s

/-- A request from another device: `ok` are its own field checks, `run` its effect on local address or reference.
[DEDUCED, log 94] -/
def serve (s : State) (link : Nat) (p : Packet) (ok : Bool) (run : State → State) : State :=
  if pktResp p then s else
  let s : State := { s with fab := { s.fab with lastReq := s.now } }
  match s.heard link p with
  | (some e, s) => s.reply p e
  | (none, s) => if ok then run s else s.reply p St.badField

/-- Does an address name this device? [DEDUCED, log 94] -/
def ours (s : State) (p : Packet) : Bool := gdev p.addr.toNat == s.fab.devnum && gvalid p.addr.toNat

/-- READ (R356, R364). -/
def onRead (s : State) (link : Nat) (p : Packet) : State :=
  let a := gloc p.addr.toNat
  s.serve link p (blockOk a p.len) fun s =>
    if !(s.ours p && s.permits p.src.toNat a p.len 0) then s.reply p St.notAuthorised else
    let wide := p.flags.getLsbD 2 && s.wholeFrozen a p.len
    let (b, n) := if wide then (a / 256 * 256, 256) else (a, p.len)
    let (e, bs) := s.readPiece b n
    (s.countAccess b e).reply p (outside e) bs wide

/-- WRITE (R356, R363). -/
def onWrite (s : State) (link : Nat) (p : Packet) : State :=
  let a := gloc p.addr.toNat
  s.serve link p (blockOk a p.len && p.data.length == p.len) fun s =>
    if !(s.ours p && s.permits p.src.toNat a p.len 1) then s.reply p St.notAuthorised else
    let (e, s) := s.writePiece a (withNibble p.data p.poison)
    s.reply p (outside e)

/-- ATOMIC (R357): frozen ranges are judged on arrival (R353, R363); it takes its place at its unit. -/
def onAtomic (s : State) (link : Nat) (p : Packet) : State :=
  let a := gloc p.addr.toNat
  let op := fld p.aop 3 0
  let o : AtomOp := ⟨a, op, fld p.aop 5 4, fld p.aop 9 6, p.ea.toInt, BitVec.ofNat 64 (rd p.data 0 8), BitVec.ofNat 64 (rd p.data 8 8)⟩
  s.serve link p (decide (op < 8) && atomFields op o.okind o.ofmt o.ea && p.len == 16) fun s =>
    if !(s.ours p && s.permits p.src.toNat a (atomBytes op) 2) then s.reply p St.notAuthorised else
    if s.inFrozen a (atomBytes op) then s.reply p St.notAuthorised else
    let (u, s) := s.uid
    { s with atoms := s.atoms ++ [⟨u, .fabric link p.src.toNat p.tag.toNat p.vl, o, false⟩] }

/-- FLAG (R358): a flag signal, answered when it has been applied. [DEDUCED, log 95, 96] -/
def onFlag (s : State) (link : Nat) (p : Packet) : State :=
  let ref := p.addr.toNat
  let c := nfld ref 23 12
  s.serve link p (decide (fld p.aop 1 0 < 2) && nfld ref 47 24 == 0 && p.len == 0) fun s =>
    if !(nfld ref 63 48 == s.fab.devnum && s.permitsFlag p.src.toNat c) then s.reply p St.notAuthorised
    else if !s.inMap c then s.reply p St.badField
    else (s.modFlag c (nfld ref 11 0) (signalFn (fld p.aop 1 0 == 1) p.val)).reply p St.ok

/-- A request whose operation is reserved (R345). -/
def onReserved (s : State) (link : Nat) (p : Packet) : State := s.serve link p false id

end State

def execRead (link : Nat) (p : Packet) (s : State) : Host.Outcome State Fault Refusal := .next (s.onRead link { p with op := 1 })
def execWrite (link : Nat) (p : Packet) (s : State) : Host.Outcome State Fault Refusal := .next (s.onWrite link { p with op := 2 })
def execAtomic (link : Nat) (p : Packet) (s : State) : Host.Outcome State Fault Refusal := .next (s.onAtomic link { p with op := 3 })
def execFlag (link : Nat) (p : Packet) (s : State) : Host.Outcome State Fault Refusal := .next (s.onFlag link { p with op := 4 })

end Sys2Proof.Machine
end

