-- ==== Sys2Proof/Machine/Bucket.lean ====
section
/-! DEFINITION. Sys2Proof/Machine/Bucket.lean: gradient buckets, the roundabout ring, norms, FOLD, BFILL and OPTIM
(R385 to R407, R412, R418). -/

namespace Sys2Proof.Machine

/-! ## Shards and segments (R388) -/

/-- E. -/
def BucketDef.elems (d : BucketDef) : Nat := d.valid / d.gfmt.bytes
/-- First element of shard `s`. -/
def BucketDef.shardLo (d : BucketDef) (s : Nat) : Nat := s * d.elems / d.n
def BucketDef.shardLen (d : BucketDef) (s : Nat) : Nat := d.shardLo (s + 1) - d.shardLo s
/-- Lmax. -/
def BucketDef.lmax (d : BucketDef) : Nat := (d.elems + d.n - 1) / d.n
def BucketDef.segs (d : BucketDef) (s : Nat) : Nat := (d.shardLen s + 1023) / 1024
/-- Elements of segment `j` of shard `s`. -/
def BucketDef.segLen (d : BucketDef) (s j : Nat) : Nat := min 1024 (d.shardLen s - 1024 * j)
/-- Base of the sparse region of a parity, and the arrival word of a position (R394). -/
def BucketDef.sparse (d : BucketDef) (par : Nat) : Nat := d.xreg + par * 24 * d.lmax
def BucketDef.arrival (d : BucketDef) (w : Nat) : Nat := d.xreg + 48 * d.lmax + 8 * w

/-! ## Partial sums (R397 to R399) -/

def partZero : Part := ⟨0, 0, false⟩

/-- The exact state a part stands for. -/
def Part.acc (p : Part) : XwAcc :=
  let v : Nat := p.elem % 2 ^ 126
  let v : Int := if v < 2 ^ 125 then (v : Int) else (v : Int) - (2 : Int) ^ 126
  let cls := p.elem / 2 ^ 126 % 4
  ⟨sgn 32 p.shad * (2 : Int) ^ 126 + v, cls == 1, cls == 2, cls == 3, decide (2 ^ 63 ≤ p.shad), p.shad / 2 ^ 32 % 2 ^ 31⟩

def accCls (a : XwAcc) : Nat := if a.nan || (a.pinf && a.ninf) then 3 else if a.pinf then 1 else if a.ninf then 2 else 0

/-- A state as a part. -/
def partOf (a : XwAcc) (esc : Bool) : Part := ⟨accCls a * 2 ^ 126 + (a.sum % (2 : Int) ^ 126).toNat, a.shadow.toNat, esc⟩

/-- Add a contribution to a part; the result's COUNT is `hop`. [DEDUCED, log 74] -/
def Part.add (p : Part) (ew : Int) (x : XF) (hop : Nat) : Part :=
  let a := p.acc.add ew x
  let small := decide (a.sum.natAbs ≤ 8388607) && a.finite
  partOf { a with count := hop } (p.esc || !small)

/-- Does adding `x` keep a narrow element within the range of a side entry? -/
def Part.narrowOk (p : Part) (ew : Int) (x : XF) : Bool :=
  let a := p.acc.add ew x
  let q := a.sum - p.acc.sum
  !a.finite || decide (a.sum.natAbs ≤ 8388607) || (decide (a.sum.natAbs < 2 ^ 62) && decide (q.natAbs < 2 ^ 62))

/-! ## Segments (R396, R397) -/

/-- The body of a narrow segment. -/
def narrowBody (ps : List Part) : List Byte :=
  let fields := ps.flatMap fun p => le 3 (if p.esc then 0x800000 else (p.acc.sum % (2 : Int) ^ 24).toNat)
  let side := (ps.zipIdx.filter (·.1.esc)).flatMap fun x =>
    le 2 x.2 ++ le 1 (accCls x.1.acc) ++ zeros 5 ++ le 8 (if x.1.acc.finite then (x.1.acc.sum % (2 : Int) ^ 64).toNat else 0)
  fit ((3 * ps.length + 15) / 16 * 16) fields ++ side

/-- [DEDUCED, log 74] -/
def wideBody (ps : List Part) : List Byte := ps.flatMap fun p => le 16 p.elem ++ le 8 p.shad

/-- A segment without its SEQ. -/
def segment (b ring step shard hop ix : Nat) (ew : Int) (wide : Bool) (ps : List Part) : List Byte :=
  le 2 b ++ le 1 ring ++ le 1 (if wide then 1 else 0) ++ le 4 step ++ le 2 shard ++ le 2 hop ++ le 4 ix ++ le 2 ps.length ++
  le 2 (if wide then 0 else (ps.filter (·.esc)).length) ++ le 2 (BitVec.ofInt 16 ew).toNat ++ zeros 2 ++ zeros 4 ++ zeros 36 ++
  (if wide then wideBody ps else narrowBody ps)

/-- The parts a segment carries. -/
def segParts (g : List Byte) (n : Nat) : List Part :=
  if rd g 3 1 % 2 = 1 then (List.range n).map fun e => ⟨rd g (0x40 + 24 * e) 16, rd g (0x50 + 24 * e) 8, false⟩
  else
    let side := 0x40 + (3 * n + 15) / 16 * 16
    let ns := rd g 0x12 2
    (List.range n).map fun e =>
      let f := rd g (0x40 + 3 * e) 3
      if f != 0x800000 then partOf ⟨sgn 24 f, false, false, false, false, 0⟩ false
      else
        match (List.range ns).find? fun k => rd g (side + 16 * k) 2 = e with
        | some k =>
          let cls := rd g (side + 16 * k + 2) 1 % 4
          partOf ⟨if cls = 0 then rdS g (side + 16 * k + 8) 8 else 0, cls == 1, cls == 2, cls == 3, false, 0⟩ true
        | none => partOf ⟨0, false, false, true, false, 0⟩ true

/-- Bytes of a segment that a header announces. -/
def segBytes (g : List Byte) : Nat :=
  let n := rd g 0x10 2
  if rd g 3 1 % 2 = 1 then 0x40 + 24 * n else 0x40 + (3 * n + 15) / 16 * 16 + 16 * rd g 0x12 2

namespace State

/-! ## State of the services -/

def bucket? (s : State) (b : Nat) : Option Bucket := SMap.get? s.tr.buckets b
def setBucket (s : State) (b : Nat) (x : Bucket) : State := { s with tr := { s.tr with buckets := SMap.put s.tr.buckets b x } }
def modBucket (s : State) (b : Nat) (g : Bucket → Bucket) : State := match s.bucket? b with | some x => s.setBucket b (g x) | none => s
def modBRun (s : State) (b : Nat) (g : BucketRun → BucketRun) : State := s.modBucket b fun x => { x with run := x.run.map g }
def ring? (s : State) (r : Nat) : Option Ring := SMap.get? s.tr.rings r
def setRing (s : State) (r : Nat) (x : Ring) : State := { s with tr := { s.tr with rings := SMap.put s.tr.rings r x } }
def modRing (s : State) (r : Nat) (g : Ring → Ring) : State := match s.ring? r with | some x => s.setRing r (g x) | none => s

/-- Bucket steps a bucket has completed. -/
def Bucket.completed (x : Bucket) : Nat := x.steps - if x.run.isSome then 1 else 0

/-- The bucket that reduces on a ring. -/
def reducing (s : State) (r : Nat) : Option (Nat × Bucket) :=
  s.tr.buckets.find? fun b => b.2.df.ring == r && b.2.run.isSome

/-- A position of a ring, as a device. -/
def ringDev (x : Ring) (pos : Nat) : Nat := (x.devs[pos % x.n]?).getD 0

/-- The ring moves: its timeout starts again. -/
def ringTouch (s : State) (r : Nat) : State := s.modRing r fun x => { x with lastOk := s.now }

/-- The bucket's step ends with a status: nothing more of it is sent. -/
def stepFail (s : State) (b status : Nat) : State :=
  match s.bucket? b with
  | some x =>
    match x.run with
    | some r =>
      if r.phase = 4 && r.status != St.ok then s else
      let s := s.setBucket b { x with run := some { r with phase := 4, status := status, adds := 0 } }
      (s.modRing x.df.ring fun g => { g with queue := [], cur := none }).dropConts fun c =>
        match c with | .bucket k => k == b | .ring k => k == x.df.ring | _ => false
    | none => s
  | none => s

/-! ## Sending segments (R400) -/

/-- A segment's SEQ goes into its place. [DEDUCED, log 72] -/
def withSeq (g : List Byte) (seq : Nat) : List Byte := patch g 0x18 (le 4 (seq % 2 ^ 32))

/-- Where slot `seq` of the inbox of the device at a position lies: every member's INBOX is at the same local address.
[DEDUCED, log 70] -/
def slotAddr (x : Ring) (pos seq : Nat) : Nat := ringDev x pos * 2 ^ 48 + x.inbox + 64 + seq % 8 * 24640

/-- Begin the next segment when none is under way and a slot of the successor is free. [DEDUCED, log 52] -/
def ringPump (s : State) (r : Nat) : State :=
  match s.ring? r with
  | none => s
  | some x =>
    match x.cur, x.queue with
    | none, g :: rest =>
      let used := leNat (s.read x.inbox 4)
      if 8 ≤ (x.sentSeq + 2 ^ 32 - used) % 2 ^ 32 then s else
      let bs := (withSeq g (x.sentSeq + 2 ^ 32 - 8)).map fun b => (b, false)
      let s := s.setRing r { x with queue := rest, cur := some ⟨g, 0, false⟩ }
      let (e, n, s) := s.gWrite (slotAddr x (x.pos + 1) x.sentSeq) bs 2 none (.ring r)
      let s := s.modRing r fun x => { x with cur := some ⟨g, n, false⟩ }
      if e = St.ok then s else match s.reducing r with | some (b, _) => s.stepFail b e | none => s
    | _, _ => s

/-- The writes of the segment under way have completed: its SEQ follows, and then the next segment. [DEDUCED, log 72] -/
def ringSent (s : State) (r : Nat) : State :=
  match s.ring? r with
  | none => s
  | some x =>
    match x.cur with
    | some c =>
      if c.missing != 0 then s
      else if !c.tail then
        let seq := (le 4 (x.sentSeq % 2 ^ 32)).map fun b => (b, false)
        let (e, n, s) := s.gWrite (slotAddr x (x.pos + 1) x.sentSeq + 0x18) seq 2 none (.ring r)
        let s := s.modRing r fun x => { x with cur := some ⟨c.bytes, n, true⟩ }
        if e = St.ok then s else match s.reducing r with | some (b, _) => s.stepFail b e | none => s
      else
        let s := s.setRing r { x with cur := none, sentSeq := (x.sentSeq + 1) % 2 ^ 32, lastOk := s.now }
        let s : State := { s with tr := { s.tr with ringb := s.tr.ringb + BitVec.ofNat 64 c.bytes.length } }
        s.ringPump r
    | none => s.ringPump r

/-- A write of the ring has been answered. -/
def ringAnswer (s : State) (r status : Nat) : State :=
  let s := s.modRing r fun x => { x with cur := x.cur.map fun c => { c with missing := c.missing - 1 } }
  if status = St.ok then s.ringSent r else match s.reducing r with | some (b, _) => s.stepFail b status | none => s

/-- Count a segment that goes out: narrow, or wide from now on (R398, R399). -/
def emitSegment (s : State) (b shard hop ix : Nat) (before after : List Part) (xs : List XF) : State :=
  match s.bucket? b with
  | none => s
  | some x =>
    match x.run with
    | none => s
    | some r =>
      let side := (after.filter (·.esc)).length
      let fits := (before.zip xs).all fun p => Part.narrowOk p.1 x.df.ew p.2
      let wide := r.wide || !fits || after.length / 16 < side
      let made := if wide then 0 else ((before.zip after).filter fun p => p.2.esc && !p.1.esc).length
      let path := max r.path (if wide then 2 else if side = 0 then 0 else 1)
      let s := s.setBucket b { x with run := some { r with wide := wide, side := r.side + made, path := path } }
      let s : State := { s with tr := { s.tr with
        side := s.tr.side + BitVec.ofNat 64 made, wideCnt := s.tr.wideCnt + if wide then 1 else 0 } }
      let g := segment b x.df.ring r.step shard hop ix x.df.ew wide after
      (s.modRing x.df.ring fun g' => { g' with queue := g'.queue ++ [g] }).ringPump x.df.ring

/-! ## Results (R401, R405) -/

/-- The group of an element, by the span table. -/
def groupOf (spans : List (Nat × Nat)) (i : Nat) : Nat := ((spans.filter fun p => p.1 ≤ i).getLast?.map (·.2)).getD 0xFFFF

/-- Add the square of a result element to its norm group. -/
def normAdd (s : State) (spans : List (Nat × Nat)) (i : Nat) (x : XF) : State :=
  let g := groupOf spans i
  match s.tr.norms with
  | some c =>
    if g = 0xFFFF then s else
    match SMap.get? s.regions c.loc with
    | some r => (s.addElem c.loc r g (x.mul x)).2
    | none => s
  | none => s

/-- Write element results of the own shard: RESULT as FP32, and the norms from the exact values. [DEDUCED, log 70, 73] -/
def writeShard (s : State) (b : Nat) (vals : List (XF × Nat)) : State :=
  match s.bucket? b with
  | none => s
  | some x =>
    match x.run, s.ring? x.df.ring with
    | some r, some g =>
      let (e, s) := s.devWrite x.df.result (vals.flatMap fun v => le 4 v.2)
      if e != St.ok then s.stepFail b (stOf e) else
      let lo := x.df.shardLo g.pos
      let s := if x.df.norm then
          vals.zipIdx.foldl (fun (s : State) v => s.normAdd r.spans (lo + v.2) v.1.1) s
        else s
      s.modBRun b fun r => { r with phase := 4, wrote := true }
    | _, _ => s

/-- Read every member's slice of the shard for the float path. -/
def floatBegin (s : State) (b : Nat) : State :=
  match s.bucket? b with
  | none => s
  | some x =>
    match s.ring? x.df.ring with
    | none => s
    | some g =>
      let lo := x.df.shardLo g.pos * x.df.gfmt.bytes
      let n := x.df.shardLen g.pos * x.df.gfmt.bytes
      let devs := g.devs.mergeSort (fun a b => decide (a ≤ b))
      let s := s.modBRun b fun r => { r with phase := 3, path := 4 }
      let s : State := { s with tr := { s.tr with floatCnt := s.tr.floatCnt + 1 } }
      s.fetchNew (.bucket b) (devs.map fun d => (d * 2 ^ 48 + x.df.grad + lo, n)) 2 none

/-- The float path's sums once its reads have returned. -/
def floatEnd (s : State) (b : Nat) : State :=
  match s.bucket? b, s.fetch? (.bucket b) with
  | some x, some f =>
    match s.ring? x.df.ring with
    | none => s
    | some g =>
      if f.missing != 0 then s else
      let s := s.dropFetch (.bucket b)
      if f.status != St.ok then s.stepFail b f.status
      else if !f.pois.isEmpty then s.stepFail b St.poisoned
      else
        let es := x.df.gfmt.bytes
        let len := x.df.shardLen g.pos
        let at' (k i : Nat) : W32 :=
          enc32 (decElem x.df.gfmt (leNat ((f.data (k * len * es + i * es) es).map (·.1))))
        s.writeShard b ((List.range len).map fun i =>
          let p := iterate g.n Pair.zero fun k p => (p.add (at' k i)).1
          (dec32 p.rn, p.rn.toNat))
  | _, _ => s

/-- The shard's sums are complete: the exact path, or the float path when an element exceeds its window. -/
def shardDone (s : State) (b : Nat) (ps : List Part) : State :=
  match s.bucket? b with
  | none => s
  | some x =>
    if ps.any fun p => p.acc.finite && p.acc.exceeded then s.floatBegin b else
    s.writeShard b (ps.map fun p =>
      let v := p.acc.result.value x.df.ew
      (v, (enc32 v).toNat))

/-! ## Starting a bucket step (R391 to R393) -/

/-- Is it bucket `b`'s turn on its ring? -/
def turn (s : State) (b : Nat) (x : Bucket) : Bool :=
  (s.reducing x.df.ring).isNone &&
  match s.ring? x.df.ring with
  | some g =>
    let on := (s.tr.buckets.filter fun y => y.2.df.ring == x.df.ring).map (·.1)
    ((on.find? fun k => g.order ≤ k).or on.head?) == some b
  | none => false

/-- A NORM bucket waits until the NORM step has re-opened LOCAL (R405). -/
def normReady (s : State) (x : Bucket) : Bool :=
  !x.df.norm || decide (x.steps ≤ s.tr.normStep) ||
  (match s.tr.normRun with | some r => r.phase ≥ 2 && x.steps ≤ s.tr.normStep + 1 | none => false)

/-- The span table keeps its rules. -/
def spansOk (ng : Nat) (t : List Byte) (n : Nat) : Bool :=
  rd t 0 4 == 0 && (List.range n).all fun k =>
    rd t (8 * k + 6) 2 == 0 && (rd t (8 * k + 4) 2 == 0xFFFF || decide (rd t (8 * k + 4) 2 < ng)) &&
    (k == 0 || decide (rd t (8 * (k - 1)) 4 < rd t (8 * k) 4))

/-- Split elements into those sent and kept: the threshold x_t (R393). -/
def threshold (e k : Nat) (as' : List XF) : Nat :=
  let fs := as'.map fun a => fld (enc32 a) 30 23
  let budget := e / 2 ^ k
  ((List.range 256).map (· + 1)).find? (fun x => decide ((fs.filter fun f => decide (x ≤ f)).length ≤ budget)) |>.getD 256

/-- The contributions of a step, or nothing when an area is poisoned. -/
def contributions (s : State) (d : BucketDef) : Option (List XF) :=
  let e := d.elems
  let rs := d.dens != 0 || d.resid
  if s.poisoned d.grad d.valid || (rs && s.poisoned d.residual (4 * e)) then none else
  some ((List.range e).map fun i =>
    let g := decElem d.gfmt (leNat (s.read (d.grad + i * d.gfmt.bytes) d.gfmt.bytes))
    if rs then dec32 (enc32 (g.add (dec32 (BitVec.ofNat 32 (leNat (s.read (d.residual + 4 * i) 4)))))) else g)

/-- Send the segments of a shard at ring step 0. -/
def sendOwn (s : State) (b : Nat) : State :=
  match s.bucket? b with
  | none => s
  | some x =>
    match x.run, s.ring? x.df.ring with
    | some r, some g =>
      let sh := (g.pos + g.n - 1) % g.n
      iterate (x.df.segs sh) s fun j (s : State) =>
        let xs := (r.q.drop (x.df.shardLo sh + 1024 * j)).take (x.df.segLen sh j)
        let before := xs.map fun _ => partZero
        s.emitSegment b sh 1 j before (xs.map fun v => partZero.add x.df.ew v 1) xs
    | _, _ => s

/-- Skip shards without segments among the arrivals. -/
def skipEmpty : Nat → State → Nat → State
  | 0, s, _ => s
  | k + 1, s, b =>
    match s.bucket? b with
    | none => s
    | some x =>
      match x.run, s.ring? x.df.ring with
      | some r, some g =>
        let sh := (g.pos + 2 * g.n - 2 - r.arrT) % g.n
        if r.phase != 1 || g.n ≤ r.arrT + 1 then s
        else if r.arrSeg < x.df.segs sh then s
        else
          let s := s.modBRun b fun r => { r with arrT := r.arrT + 1, arrSeg := 0 }
          if r.arrT + 2 = g.n then s.shardDone b r.final else skipEmpty k s b
      | _, _ => s

/-- Send one sparse element to the owner of its shard. -/
def sendSparse (s : State) (b i : Nat) (a : XF) : State :=
  match s.bucket? b with
  | none => s
  | some x =>
    match x.run, s.ring? x.df.ring with
    | some r, some g =>
      let sh := ((List.range g.n).find? fun k => decide (i < x.df.shardLo (k + 1))).getD 0
      let loc := x.df.sparse (r.step % 2) + 16 * (i - x.df.shardLo sh)
      if sh = g.pos then
        let (e, _, s) := s.applyAtom ⟨loc, 1, 0, 0, 0, (enc32 a).setWidth 64, 0⟩
        if e = St.ok then s else s.stepFail b (stOf e)
      else
        let p : Packet := { pktBlank with
          op := 3, dst := BitVec.ofNat 16 (ringDev g sh), addr := BitVec.ofNat 64 (ringDev g sh * 2 ^ 48 + loc), len := 16,
          aop := 1, data := le 8 (enc32 a).toNat ++ zeros 8 }
        match s.request p 2 none (.bucket b) with
        | .error e => s.stepFail b e
        | .ok s => s.modBRun b fun r => { r with adds := r.adds + 1 }
    | _, _ => s

/-- The adds have completed: write the arrival words (R394). -/
def sparseAdvance (s : State) (b : Nat) : State :=
  match s.bucket? b with
  | none => s
  | some x =>
    match x.run, s.ring? x.df.ring with
    | some r, some g =>
      if r.phase != 1 || r.adds != 0 || x.df.dens = 0 then s else
      let s := s.modBRun b fun r => { r with phase := 2 }
      iterate g.n s fun k (s : State) =>
        if k = g.pos then s else
        let a := ringDev g k * 2 ^ 48 + x.df.arrival g.pos
        let (e, n, s) := s.gWrite a ((le 8 (r.step + 1)).map fun b => (b, false)) 2 none (.bucket b)
        let s := s.modBRun b fun r => { r with adds := r.adds + n }
        if e = St.ok then s else s.stepFail b e
    | _, _ => s

/-- A sparse add or an arrival word has been answered. -/
def bucketAnswer (s : State) (b status : Nat) : State :=
  let s := s.modBRun b fun r => { r with adds := r.adds - 1 }
  let s := match s.bucket? b with | some x => s.ringTouch x.df.ring | none => s
  if status = St.ok then s.sparseAdvance b else s.stepFail b status

/-- Store what R392 and R393 leave in GRAD and RESIDUAL. [DEDUCED, log 73] -/
def storeResiduals (s : State) (d : BucketDef) (as' : List XF) (xt : Nat) : State :=
  if d.dens = 0 then
    if !d.resid then s else
    (s.devWrite d.residual (as'.flatMap fun a => le 4 (enc32 (match a with
      | .fin m e => (XF.fin m e).sub (XF.ofDy (roundInt m (e - d.ew)) d.ew)
      | _ => .zero false)).toNat)).2
  else
    let sent (a : XF) : Bool := decide (xt ≤ fld (enc32 a) 30 23)
    let (_, s) := s.devWrite d.grad (as'.flatMap fun a =>
      le d.gfmt.bytes (if sent a then (convert d.gfmt a).1 else (convert d.gfmt (.zero false)).1))
    (s.devWrite d.residual (as'.flatMap fun a => le 4 (if sent a then 0 else (enc32 a).toNat))).2

/-- BUCKET_START: the bucket's step begins when it has filled, may start and has its turn. -/
def bucketStart (s : State) (b : Nat) : State :=
  match s.bucket? b with
  | none => s
  | some x =>
    let d := x.df
    if !x.full || x.run.isSome || !(d.auto || x.go.isSome) || !s.turn b x || !s.normReady x then s else
    let ng := match s.tr.norms with | some c => c.ng | none => 0
    let s := if d.norm && (s.fetch? (.bucket b)).isNone then s.fetchNew (.bucket b) [(d.spans.toNat, 8 * d.nspan)] 2 none else s
    let spans : Option (Nat × List Byte × Bool) := match s.fetch? (.bucket b) with
      | some f => if f.missing != 0 then none else some (f.status, (f.data 0 (8 * d.nspan)).map (·.1), !f.pois.isEmpty)
      | none => some (St.ok, [], false)
    match spans with
    | none => s
    | some (st, t, pois) =>
      let s := s.dropFetch (.bucket b)
      let sp := (List.range d.nspan).map fun k => (rd t (8 * k) 4, rd t (8 * k + 4) 2)
      let run : BucketRun := {
        step := x.steps, phase := 1, q := [], wide := false, side := 0, sent := 0, xt := 0, adds := 0,
        arrT := 0, arrSeg := 0, final := [], spans := sp, status := St.ok, path := if d.dens = 0 then 0 else 3, wrote := false,
        st := x.go.getD none, began := s.now }
      let s := (s.setBucket b { x with full := false, go := none, steps := x.steps + 1, run := some run }).ringTouch d.ring
      if st != St.ok then s.stepFail b st
      else if pois then s.stepFail b St.poisoned
      else if d.norm && !spansOk ng t d.nspan then s.stepFail b St.badField
      else
        match s.contributions d with
        | none => s.stepFail b St.poisoned
        | some as' =>
          let xt := if d.dens = 0 then 0 else threshold d.elems d.dens as'
          let sent (a : XF) : Bool := decide (xt ≤ fld (enc32 a) 30 23)
          let s := s.storeResiduals d as' xt
          let s := s.modBRun b fun r => { r with q := as', xt := xt, sent := if d.dens = 0 then 0 else (as'.filter sent).length }
          if d.dens = 0 then
            if d.n = 1 then s.shardDone b (as'.map fun a => partZero.add d.ew a 1)
            else skipEmpty d.n (s.sendOwn b) b
          else
            (as'.zipIdx.foldl (fun (s : State) (a : XF × Nat) => if sent a.1 then s.sendSparse b a.2 a.1 else s) s).sparseAdvance b

/-! ## Arrivals (R398, R400) -/

/-- SEGMENT_ARRIVAL: the slot with the next SEQ is taken. [DEDUCED, log 52] -/
def segmentArrival (s : State) (r : Nat) : State :=
  match s.ring? r, s.reducing r with
  | some g, some (b, x) =>
    match x.run with
    | none => s
    | some q =>
      let d := x.df
      let slot := g.inbox + 64 + g.rxSeq % 8 * 24640
      if q.phase != 1 || d.dens != 0 || g.n ≤ q.arrT + 1 || leNat (s.read (slot + 0x18) 4) != g.rxSeq then s else
      let hd := s.read slot 64
      let sh := (g.pos + 2 * g.n - 2 - q.arrT) % g.n
      let n := d.segLen sh q.arrSeg
      if s.poisoned slot 64 then s.stepFail b St.poisoned
      else if rd hd 0 2 != b || rd hd 4 4 != q.step % 2 ^ 32 || rd hd 8 2 != sh || rd hd 0xC 4 != q.arrSeg ||
          rdS hd 0x14 2 != d.ew then s.stepFail b St.badState
      else if s.poisoned slot (segBytes hd) then s.stepFail b St.poisoned
      else
        let bs := s.read slot (segBytes hd)
        let wideIn := rd hd 3 1 % 2 == 1
        let ps := (segParts bs n).take n
        let xs := (q.q.drop (d.shardLo sh + 1024 * q.arrSeg)).take n
        let hop := q.arrT + 2
        let out := (ps.zip xs).map fun p => p.1.add d.ew p.2 hop
        let seq := (g.rxSeq + 1) % 2 ^ 32
        let s := s.setRing r { g with rxSeq := seq, lastOk := s.now }
        let pred := ringDev g (g.pos + g.n - 1) * 2 ^ 48 + g.inbox
        let s := (s.gWrite pred ((le 8 seq).map fun b => (b, false)) 2 none .drop).2.2
        let last := q.arrT + 2 = g.n
        let s := s.modBRun b fun q => { q with
          arrSeg := q.arrSeg + 1, path := max q.path (if wideIn then 2 else if ps.any (·.esc) then 1 else 0),
          wide := q.wide || (wideIn && !last), final := if last then q.final ++ out else q.final }
        let s := if last then s else s.emitSegment b sh hop q.arrSeg ps out xs
        if q.arrSeg + 1 < d.segs sh then s
        else
          let s := s.modBRun b fun q => { q with arrT := q.arrT + 1, arrSeg := 0 }
          if last then s.shardDone b (q.final ++ out) else skipEmpty g.n s b
  | _, _ => s

/-- Every other member's arrival word holds this step (R394). -/
def arrived (s : State) (g : Ring) (d : BucketDef) (step : Nat) : Bool :=
  (List.range g.n).all fun w => w == g.pos || leNat (s.read (d.arrival w) 8) == step + 1

/-- SPARSE_CLOSE: the owner closes its region, opens it again and writes RESULT. -/
def sparseClose (s : State) (b : Nat) : State :=
  let s := s.sparseAdvance b
  match s.bucket? b with
  | none => s
  | some x =>
    match x.run, s.ring? x.df.ring with
    | some r, some g =>
      let d := x.df
      if r.phase != 2 || d.dens = 0 || !s.arrived g d r.step then s else
      let key := d.sparse (r.step % 2)
      match SMap.get? s.regions key with
      | none => s.stepFail b St.badState
      | some q =>
        let len := d.shardLen g.pos
        let bad := s.poisoned key (16 * len)
        let (_, _, s) := s.closeRegion key
        let ovr := q.elems.any fun e => decide (e.1 < len) && e.2.finite && e.2.exceeded
        let vals := (List.range len).map fun i => (Xw.dec (leNat (s.read (key + 16 * i) 16))).value d.ew
        let s := (s.zeroAt key (16 * q.count))
        let s := (s.beginOpen key q.shadow q.count q.eb).finishOpen key
        let s := s.ringTouch d.ring
        if bad then s.stepFail b St.poisoned
        else if ovr then s.floatBegin b
        else s.writeShard b (vals.map fun v => (v, (enc32 v).toNat))
    | _, _ => s

/-- RING_TIMEOUT: a wait of the bucket step has lasted RTMO (R400). -/
def ringTimeout (s : State) (r : Nat) : State :=
  match s.ring? r, s.reducing r with
  | some g, some (b, x) =>
    match x.run with
    | some q =>
      if s.now < g.lastOk + g.rtmo * 2400000 then s
      else if q.phase = 1 || q.phase = 2 || !g.queue.isEmpty then s.stepFail b St.timeout else s
    | none => s
  | _, _ => s

/-! ## Completion (R402) -/

/-- Everything of a step that is sent has been sent. -/
def bucketQuiet (s : State) (x : Bucket) (r : BucketRun) : Bool :=
  r.adds == 0 && match s.ring? x.df.ring with | some g => g.queue.isEmpty && g.cur.isNone | none => true

/-- BUCKET_STEP_COMPLETE. -/
def bucketDone (s : State) (b : Nat) : State :=
  let s := match s.bucket? b with
    | some x => match x.run with | some r => if r.phase = 3 then s.floatEnd b else s | none => s
    | none => s
  match s.bucket? b with
  | none => s
  | some x =>
    match x.run with
    | none => s
    | some r =>
      if r.phase != 4 || !(r.status != St.ok || s.bucketQuiet x r) then s else
      let d := x.df
      let v := r.path + r.side % 2 ^ 28 * 16 + r.xt * 2 ^ 32
      let len := match s.ring? d.ring with | some g => d.shardLen g.pos | none => 0
      let s := if r.status = St.ok then s else s.forget d.result (d.result + 4 * len)
      let s := s.setBucket b { x with run := none, lastPath := r.path, lastStatus := r.status, lastSide := r.side,
                                      lastSent := BitVec.ofNat 64 r.sent }
      let s := s.modRing d.ring fun g => { g with order := b + 1 }
      let s := if d.bres = 0 then s else (s.devWrite d.bres (resultBytes r.status (r.step + 1) v)).2
      let s := if bitOf d.donef 31 then
          (s.signal .dev (.here (fld d.donef 23 12) (fld d.donef 11 0)) false 1 []).2 else s
      match r.st with
      | some st => (s.modRun st fun q => { q with value := v, pieces := 1 }).finish st r.status
      | none => s

/-! ## Collective steps BUCKET and FOLD (R386, R412) -/

def bucketPiece (s : State) (st : Nat) : State :=
  match s.running? st with
  | none => s
  | some (_, r) =>
    let b := rd r.desc 0x10 2
    if r.aux = 1 then s else
    match s.bucket? b with
    | none => s.finish st St.badField
    | some x =>
      if !x.full || x.df.auto || x.go.isSome then s.finish st St.badState
      else (s.setBucket b { x with go := some (some st) }).modRun st fun r => { r with aux := 1 }

def foldCheck (_ : State) (_ : Stream) (d : List Byte) : Bool :=
  let n := rd d 0x24 4
  n != 0 && decide (n ≤ 2 ^ 20) && rd d 0x28 1 < 2 && rd d 0x29 1 < 2 && tailZero d 0x2A

/-- The sum of one element ovr the sources, and whether it took poison. -/
def foldElem (pair : Bool) (srcs : List (List (Byte × Bool))) (i : Nat) : Pair × Bool :=
  srcs.foldl (fun (a : Pair × Bool) src =>
    let es := if pair then 8 else 4
    let bs := (src.drop (i * es)).take es
    let v := bs.map (·.1)
    let p := if pair then
        let q := Pair.norm ⟨BitVec.ofNat 32 (rd v 0 4), BitVec.ofNat 32 (rd v 4 4)⟩
        ((a.1.add q.s).1.add q.c).1
      else (a.1.add (BitVec.ofNat 32 (rd v 0 4))).1
    (p, a.2 || bs.any (·.2))) (Pair.zero, false)

/-- `aux` is 1 once the list has been read; its bytes are fetched again with the sources. -/
def foldPiece (s : State) (st : Nat) : State :=
  match s.running? st with
  | none => s
  | some (x, r) =>
    let d := r.desc
    let nsrc := rd d 0x24 4; let cnt := rd d 0x20 4
    let pair := rd d 0x28 1 == 1; let pairOut := rd d 0x29 1 == 1
    let es := if pair then 8 else 4
    let vl := classVl x.cls
    let listAt := (rd d 0x10 8, 16 * nsrc)
    let second (s : State) (t : List Byte) : State :=
      s.withData st vl ((List.range nsrc).map fun k => (rd t (16 * k + 8) 8, cnt * es)) fun s e bs =>
        if e != St.ok then s.finish st e else
        let srcs := (List.range nsrc).map fun k => (bs.drop (k * cnt * es)).take (cnt * es)
        let outs := (List.range cnt).map (foldElem pair srcs)
        let bytes := outs.flatMap fun o =>
          (if pairOut then le 4 o.1.s.toNat ++ le 4 o.1.c.toNat else le 4 o.1.rn.toNat).map fun b => (b, o.2)
        let s := s.putStream st vl (rd d 0x18 8) bytes
        (s.modRun st fun r => { r with pieces := 1 }).finish st (if outs.any (·.2) then St.poisoned else St.ok)
    if r.aux = 0 then
      s.withData st vl [listAt] fun s e bs =>
        if e != St.ok then s.finish st e
        else if bs.any (·.2) then s.finish st St.poisoned
        else
          let t := bs.map (·.1)
          let ranks := (List.range nsrc).map fun k => rd t (16 * k) 4
          if !((ranks.zip (ranks.drop 1)).all fun p => decide (p.1 < p.2)) ||
              !((List.range nsrc).all fun k => rd t (16 * k + 4) 4 == 0) then s.finish st St.badField
          else
            let s := s.modRun st fun r => { r with aux := 1, desc := patch r.desc 0 (r.desc.take 64 ++ t) }
            second s t
    else second s (d.drop 64)

/-! ## The NORM step (R405, R406) -/

/-- The norm configuration and the ring it runs on. -/
def normCfg (s : State) : Option (NormCfg × Ring) :=
  match s.tr.norms with | some c => (s.ring? c.ring).map fun g => (c, g) | none => none

/-- Local address of HOMEREG at HOME. [DEDUCED, log 70] -/
def homeReg (s : State) (c : NormCfg) : Nat := if c.home = s.fab.devnum then c.homereg else Config.normHome c.home

/-- One write or add of the NORM step went out or was refused. -/
def normOut (s : State) (status n : Nat) : State :=
  { s with tr := { s.tr with normRun := s.tr.normRun.map fun r => { r with
      adds := r.adds + n, status := if r.status = St.ok then status else r.status } } }

/-- Add element `i` of the closed LOCAL region to the home region. -/
def normSend (s : State) (c : NormCfg) (i : Nat) : State :=
  let v := leNat (s.read (c.loc + 16 * i) 16)
  if c.home = s.fab.devnum then
    match SMap.get? s.regions c.homereg with
    | some r => (s.addElem c.homereg r i ((Xw.dec v).value c.en)).2
    | none => s.normOut St.badState 0
  else
    let a := c.home * 2 ^ 48 + s.homeReg c + 16 * i
    let p : Packet := { pktBlank with
      op := 3, dst := BitVec.ofNat 16 c.home, addr := BitVec.ofNat 64 a, len := 16, aop := 1 + 3 * 16,
      ea := BitVec.ofInt 16 c.en, data := le 16 v }
    match s.request p 2 none .norm with
    | .error e => s.normOut e 0
    | .ok s => s.normOut St.ok 1

/-- The clip factor of a group, from the closed home element (R406). -/
def clipFactor (v : XF) (maxn : W32) : W32 :=
  if !v.isFinite then fp32Nan else
  let n := dec32 (enc32 (dec32 (enc32 v)).sqrt)
  if XF.le n (dec32 maxn) then fp32One else enc32 ((dec32 maxn).div n)

/-- At HOME: close, write the factors and the step word to every member, open again. -/
def normHomeStep (s : State) (c : NormCfg) (g : Ring) : State :=
  let word (k : Nat) : Nat := leNat (s.read (c.homereg + 24 * c.ng + 8 * k) 8)
  if c.home != s.fab.devnum || !((List.range g.n).all fun k => word k == s.tr.normStep + 1) then s else
  match SMap.get? s.regions c.homereg with
  | none => s
  | some r =>
    let (_, _, s) := s.closeRegion c.homereg
    let fs := (List.range c.ng).map fun i =>
      clipFactor ((Xw.dec (leNat (s.read (c.homereg + 16 * i) 16))).value c.en)
        (BitVec.ofNat 32 (leNat (s.read (c.maxn + 4 * i) 4)))
    let s := s.zeroAt c.homereg (16 * c.ng)
    let s := (s.beginOpen r.base r.shadow r.count r.eb).finishOpen r.base
    let bytes := (fs.flatMap fun f => le 4 f.toNat).map fun b => (b, false)
    g.devs.foldl (fun (s : State) dv =>
      let a := dv * 2 ^ 48 + c.clip
      let s := (s.gWrite (a + 64) bytes 2 none .drop).2.2
      (s.gWrite a ((le 4 (s.tr.normStep + 1)).map fun b => (b, false)) 2 none .drop).2.2) s

def normBegin (s : State) (st : Nat) : State :=
  match s.normCfg with
  | none => s.finish st St.badState
  | some _ => s

def normSet (s : State) (g : NormRun → NormRun) : State := { s with tr := { s.tr with normRun := s.tr.normRun.map g } }

/-- The NORM step goes as far as it can. -/
def normPiece (s : State) (st : Nat) : State :=
  match s.normCfg with
  | none => s.finish st St.badState
  | some (c, g) =>
    let s : State := if s.tr.normRun.isNone then { s with tr := { s.tr with normRun := some ⟨st, 1, 0, St.ok⟩ } } else s
    match s.tr.normRun with
    | none => s
    | some r =>
      if r.st != st then s else
      let ready := s.tr.buckets.all fun b =>
        !(b.2.df.ring == c.ring && b.2.df.norm) || decide (s.tr.normStep + 1 ≤ Bucket.completed b.2)
      let s := if r.phase = 1 && ready then
          let pois := s.poisoned c.loc (16 * c.ng)
          match SMap.get? s.regions c.loc with
          | none => s.normOut St.badState 0
          | some q =>
            let (_, _, s) := s.closeRegion c.loc
            let s := iterate c.ng s fun i (s : State) => s.normSend c i
            let s := s.zeroAt c.loc (16 * c.ng)
            let s := (s.beginOpen q.base q.shadow q.count q.eb).finishOpen q.base
            (if pois then s.normOut St.poisoned 0 else s).normSet fun r => { r with phase := 2 }
        else s
      let s := match s.tr.normRun with
        | some r =>
          if r.phase = 2 && r.adds = 0 then
            let a := c.home * 2 ^ 48 + s.homeReg c + 24 * c.ng + 8 * g.pos
            let (e, n, s) := s.gWrite a ((le 8 (s.tr.normStep + 1)).map fun b => (b, false)) 2 none .norm
            (s.normOut e n).normSet fun r => { r with phase := 3 }
          else s
        | none => s
      let s := s.normHomeStep c g
      match s.tr.normRun with
      | none => s
      | some r =>
        let ovr := r.status != St.ok && r.adds == 0
        if !ovr && !(r.phase = 3 && r.adds = 0 && leNat (s.read c.clip 4) = (s.tr.normStep + 1) % 2 ^ 32) then s else
        let fs := (List.range c.ng).map fun i => BitVec.ofNat 32 (leNat (s.read (c.clip + 64 + 4 * i) 4))
        let v := (fs.filter (· != fp32One)).length + (fs.filter fun f => (dec32 f).isNan).length * 2 ^ 32
        let s : State := { s with tr := { s.tr with normRun := none, normStep := s.tr.normStep + if ovr then 0 else 1 } }
        (s.modRun st fun q => { q with value := v, pieces := 1 }).finish st r.status

end State

/-! ## BFILL (R390) -/

/-- [DEDUCED, log 71] -/
def bfillBody (i : Ins) (s : State) : IRes :=
  if s.busy i (·.writes) then .queue 50 Foot.none [] else
  let b := fld i.f 27 20
  let n := ((s.ctx i.c).getA (fld i.f 19 16)).toNat
  match s.bucket? b with
  | none => .fault s (faultOf 0xB4 5)
  | some x =>
    if n = 0 then .fault s (faultOf 0xB4 5)
    else if x.df.valid < x.fill + n || (x.fill + n = x.df.valid && x.full) then .fault s (faultOf 0xB3 5)
    else if x.fill + n = x.df.valid then .done (s.setBucket b { x with fill := 0, full := true })
    else .done (s.setBucket b { x with fill := x.fill + n })

/-! ## OPTIM (R407) -/

/-- The frame of OPTIM. -/
structure Optim where
  n    : Nat
  ns   : Nat
  men  : Bool
  slot : Nat
  gr   : Nat
  pr   : Nat
  sa   : Nat
  sb   : Nat
  cp   : Nat
  clip : Nat
  ix   : Nat
  pf   : Option Fmt
  sf   : Option Fmt
  mf   : Option Fmt

def Optim.of (s : State) (c : Nat) (f : Frame) : Optim :=
  let r (hi lo : Nat) : Nat := ((s.ctx c).getA (fld f hi lo)).toNat
  { n := r 44 41, ns := fld f 70 69, men := bitOf f 71, slot := fld f 68 65, gr := r 28 25, pr := r 32 29, sa := r 36 33,
    sb := r 40 37, cp := r 75 72, clip := r 48 45, ix := r 52 49, pf := Fmt.ofCode (fld f 56 53),
    sf := Fmt.ofCode (fld f 60 57), mf := Fmt.ofCode (fld f 64 61) }

def isParam (f : Option Fmt) : Bool := f == some .fp32 || f == some .bf16

/-- The words of a micro-program slot. -/
def slotOps (s : State) (c n : Nat) : Option (List UWord × List W32) :=
  (SMap.get? (s.ctx c).uops n).map fun u => (u.ops.map fun w => UWord.of w.toNat, u.consts)

/-- Is a slot fit for OPTIM: it writes the outputs named, and needs no branch bits? -/
def optimSlot (o : Option (List UWord × List W32)) (out1 : Bool) : Bool :=
  match o with
  | none => false
  | some u =>
    u.1.any (fun w => w.u == 0x3C) && (!out1 || u.1.any fun w => w.u == 0x3D) &&
    !u.1.any fun w => w.u == 0x3E || (gradAct w.u).isSome

/-- Run a slot on one element. -/
def runSlot (u : List UWord × List W32) (ins : List XF) : Fl (XF × XF) := do
  let l ← u.1.foldlM (fun l w => l.run ins u.2 false w) (⟨List.replicate 16 (.zero false), .zero false, .zero false, false, false⟩ : Lane)
  return (l.o0, l.o1)

/-- One element: what is written to P, A, B and the copy, as codes. -/
def optimElem (s : State) (c : Nat) (o : Optim) (factor : XF) (k : Nat) : Fl (List (Nat × List Byte)) := do
  let pf := o.pf.getD .fp32; let sf := o.sf.getD .fp32; let mf := o.mf.getD .fp32
  let at' (f : Fmt) (base : Nat) : XF := s.elemAt f ((gloc base + k * f.bytes) * 8) none
  let put (f : Fmt) (base : Nat) (x : XF) : Fl (Nat × List Byte) := do
    let q := convert f x
    raise (cvtBits q.2 flagVovf)
    return (gloc base + k * f.bytes, le f.bytes q.1)
  let g := at' .fp32 o.gr
  let in0 ← vecEng.rn [g, factor] (g.mul factor)
  let p := at' pf o.pr
  let a := if o.ns ≥ 1 then at' sf o.sa else .zero false
  let b := if o.ns = 2 then at' sf o.sb else .zero false
  match slotOps s c o.slot with
  | none => return []
  | some u =>
    let (x, y) ← runSlot u [in0, p, a, b]
    if o.ns = 0 then
      let w ← put pf o.pr x
      if o.men then return [w, ← put mf o.cp y] else return [w]
    else if o.ns = 1 then return [← put pf o.pr x, ← put sf o.sa y]
    else
      let wa ← put sf o.sa x
      let wb ← put sf o.sb y
      match slotOps s c (o.slot + 1) with
      | none => return [wa, wb]
      | some u2 =>
        let na := decElem sf (leNat wa.2); let nb := decElem sf (leNat wb.2)
        let (x2, y2) ← runSlot u2 [in0, p, na, nb]
        let w ← put pf o.pr x2
        if o.men then return [wa, wb, w, ← put mf o.cp y2] else return [wa, wb, w]

def optimDec (f : Frame) : Option FaultInfo :=
  let o (hi lo : Nat) : Bool := (Fmt.ofCode (fld f hi lo)).isSome
  firstFault [decodeCheck f 0xB9 [(127, 76), (24, 16)] (bitOf f 71 || fld f 75 72 == 0), need (o 56 53 && o 60 57 && o 64 61) 0xB1 0]

def optimRegs (f : Frame) : List Nat :=
  [fld f 52 49, fld f 48 45, fld f 44 41, fld f 40 37, fld f 36 33, fld f 32 29, fld f 28 25] ++
  if bitOf f 71 then [fld f 75 72] else []

/-- OPTIM (R407), taken apart. -/
def optimOp (i : Ins) (s : State) : VOp :=
  let o := Optim.of s i.c i.f
  let n := min o.n 16777216
  let pb := (o.pf.getD .fp32).bytes; let sb := (o.sf.getD .fp32).bytes; let mb := (o.mf.getD .fp32).bytes
  let areas : List (Nat × Nat × Bool) :=
    [(o.gr, n * 4, false), (o.pr, n * pb, true)] ++ (if o.ns ≥ 1 then [(o.sa, n * sb, true)] else []) ++
    (if o.ns = 2 then [(o.sb, n * sb, true)] else []) ++ (if o.men then [(o.cp, n * mb, true)] else []) ++
    (if o.clip = 0 then [] else [(o.clip, 4 * o.ix + 4, false)])
  let reads := areas.filter fun a => a.1 != o.cp || !o.men
  { unit := 2, lane := 21,
    late := [need (!(o.men && o.ns = 1) && optimSlot (slotOps s i.c o.slot) (o.ns ≥ 1 || (o.ns = 0 && o.men)) &&
        (o.ns != 2 || optimSlot (slotOps s i.c (o.slot + 1)) o.men)) 0xB7 2],
    free := fun s => areas.foldl (fun s a => if a.2.2 then s.freeRange i.c (gloc a.1) a.2.1 else s) s,
    checks := [need (isParam o.pf && (o.ns = 0 || isParam o.sf) && (!o.men || (o.mf.bind fun m => atomFmt m.code).isSome)) 0xB1 2,
        need (decide (1 ≤ o.n) && decide (o.n ≤ 16777216) && decide (o.ns < 3) && decide (o.ix < 1024) &&
          (o.ns != 2 || decide (o.slot ≤ 14))) 0xB2 2] ++
      areas.map (fun a => need (a.1 % 16 == 0) 0xB6 2 a.1) ++ areas.map (fun a => s.ownFault i.c a.1 a.2.1 0xB5 2),
    foot := ⟨areas.map fun a => ⟨gloc a.1, gloc a.1 + a.2.1, a.2.2⟩, []⟩,
    recs := [],
    bad := fun s => (reads.find? fun a => s.poisoned (gloc a.1) a.2.1).map (·.1),
    act := fun s =>
      let factor := if o.clip = 0 then one else dec32 (BitVec.ofNat 32 (leNat (s.read (gloc o.clip + 4 * o.ix) 4)))
      iterate n s fun k (s : State) =>
        let (ws, bits) := (optimElem s i.c o factor k).run 0
        (ws.foldl (fun (s : State) w => s.ownStore w.1 w.2) s).setFlags i.c bits }

/-- [DEDUCED, log 71, 158] -/
def optimBody (i : Ins) (s : State) : IRes :=
  let v := optimOp i s
  if s.uploading i then .hold else
  match firstFault v.checks with
  | some x => v.stop i s x
  | none =>
    s.enterUnit i v.lane v.foot [] <|
    match firstFault v.late with
    | some x => v.stop i s x
    | none =>
      match v.bad s with
      | some a => v.stop i s (faultOf 0xB8 2 a)
      | none =>
        match s.frozenFault v.unit v.foot.outs with
        | some x => v.stop i s x
        | none => .done (v.act s)

def runBfill (c : Nat) (f : Frame) (s : State) : State :=
  s.issueCore c f (decodeCheck f 0xB9 [(127, 28)]) [fld f 19 16] bfillBody
def runOptim (c : Nat) (f : Frame) (s : State) : State := s.issueCore c f (optimDec f) (optimRegs f) optimBody

def execBfill (c : Nat) (f : Frame) (s : State) : Host.Outcome State Fault Refusal := .next (s.startOp 0xB0 c f (runBfill c f))
def execOptim (c : Nat) (f : Frame) (s : State) : Host.Outcome State Fault Refusal := .next (s.startOp 0xB4 c f (runOptim c f))
def execBucketStart (b : Nat) (s : State) : Host.Outcome State Fault Refusal := .next (s.bucketStart b)
def execSegmentArrival (r : Nat) (s : State) : Host.Outcome State Fault Refusal := .next (s.segmentArrival r)
def execSparseClose (b : Nat) (s : State) : Host.Outcome State Fault Refusal := .next (s.sparseClose b)
def execRingTimeout (r : Nat) (s : State) : Host.Outcome State Fault Refusal := .next (s.ringTimeout r)
def execBucketStepComplete (b : Nat) (s : State) : Host.Outcome State Fault Refusal := .next (s.bucketDone b)
def execBucket (st : Nat) (s : State) : Host.Outcome State Fault Refusal :=
  .next (s.streamRow st 0x11 (fun _ _ d => State.tailZero d 0x12) nothing State.bucketPiece)
def execNorm (st : Nat) (s : State) : Host.Outcome State Fault Refusal :=
  .next (s.streamRow st 0x12 (fun _ _ d => State.tailZero d 0x10) State.normBegin State.normPiece)
def execFold (st : Nat) (s : State) : Host.Outcome State Fault Refusal :=
  .next (s.streamRow st 0x13 State.foldCheck nothing State.foldPiece)

end Sys2Proof.Machine
end

