-- ==== Sys2Proof/Machine/MatrixEv.lean ====
section
/-! DEFINITION. Sys2Proof/Machine/MatrixEv.lean: the matrix unit's own events: panel loads, passes, the gather timeout, and stopping at a
row-group boundary (R49 to R53, R67, R78 to R82). An event whose condition does not hold yet changes nothing. -/

namespace Sys2Proof.Machine

/-- The cause of a poisoned operand of a matrix-queue instruction: CONV has its own (R86, R267). -/
def poisonCause (f : Frame) : Nat := if f.toNat % 256 = 0xA0 then 0xA7 else 0x47

/-- Source latency of a panel load. -/
def PanelLoad.lat (l : PanelLoad) : Nat :=
  match l.src with
  | some m => srcLat ((m.findSome? id).getD 0 / 8)
  | none => srcLat l.base

/-- Source latency of a pass's rows. -/
def PassSpec.lat (p : PassSpec) : Nat :=
  p.slots.flatten.foldl (fun n r => max n (match r.addrs.findSome? id with | some a => srcLat (a / 8) | none => 0)) 0

/-- Does an entry of the matrix queue take a panel? -/
def MKind.takes : MKind → Bool
  | .passes _ todo _ => !todo.isEmpty
  | _ => false

namespace State

/-- May the matrix unit of a core go on in this cycle (R77)? -/
def matrixOn (s : State) (c : Nat) : Bool := s.running c && s.clocked c && (s.ctx c).attn.isNone && decide ((s.mx c).ready ≤ s.cyc c)

/-- The cycle in which the load of a taken panel ends: a pass may start, and end, before it (R53). [DEDUCED, log 49] -/
def takenEnd (m : Matrix) : Nat :=
  let stop (l : PanelLoad) : Nat := match l.began with | some b => b + l.dur | none => 0
  match m.pass, m.late with
  | some q, _ => stop q.panel
  | none, some l => stop l
  | none, none => 0

/-- PANEL_LOAD_BEGIN (R51): the load at the head begins; its operands are read.
[DEDUCED, log 49] [DESIGN CHOICE, log 77] -/
def panelBegin (s : State) (c : Nat) : State :=
  let m := s.mx c
  match m.loads with
  | [] => s
  | l :: rest =>
    if !s.matrixOn c || l.began.isSome || s.cyc c < max (l.issue + l.lat) (max m.prevStart (max m.loadEnd (takenEnd m))) then s
    else if l.bad s then s.fault c l.pc l.frame (faultOf (poisonCause l.frame) 1 l.base)
    else s.modMx c fun m => { m with loads := { l.fill s with began := some (s.cyc c) } :: rest }

/-- Has the load that began lasted its length by cycle `n`? -/
def loadOver (n : Nat) (l : PanelLoad) : Bool :=
  l.ended.isNone && match l.began with | some b => decide (b + l.dur ≤ n) | none => false

/-- PANEL_LOAD_END (R49): the load that began has lasted its length; its panel may have been taken already, and its pass may have
ended. -/
def panelEnd (s : State) (c : Nat) : State :=
  let m := s.mx c
  let n := s.cyc c
  if !s.matrixOn c then s else
  match m.late with
  | some l => if loadOver n l then s.modMx c fun m => { m with late := none, loadEnd := n } else s
  | none =>
    match m.pass, m.loads with
    | some q, ls =>
      if loadOver n q.panel then
        s.modMx c fun m => { m with pass := some { q with panel := { q.panel with ended := some n } }, loadEnd := n }
      else
        match ls with
        | l :: rest =>
          if loadOver n l then s.modMx c fun m => { m with loads := { l with ended := some n } :: rest, loadEnd := n } else s
        | [] => s
    | none, l :: rest =>
      if loadOver n l then s.modMx c fun m => { m with loads := { l with ended := some n } :: rest, loadEnd := n } else s
    | none, [] => s

/-- Feed slots of a pass, or fault on a poisoned row (R83). -/
def feedOr (s : State) (c bank lo hi : Nat) (e : MEntry) (p : PassSpec) (l : PanelLoad) : Bool × State :=
  match s.feed c bank lo hi p l with
  | some s => (true, s)
  | none => (false, s.entryFault c e (faultOf (poisonCause e.frame) 1))

/-- Lay a pass out for panels of K_p `kp`. -/
def fitPass (kp : Nat) (p : PassSpec) : PassSpec :=
  if p.len = kp then p else
  { p with len := kp, slots := p.slots.map (·.map fun r =>
      { r with addrs := r.addrs.take kp, scales := r.scales.take ((kp + 31) / 32) }) }

/-- What is wrong with a pass of MMA once its panel is known: the pairing, panels of two K_p, or a row that leaves the core's own
memory (R59, R61). [DEDUCED, log 175] -/
def passFault (s : State) (c : Nat) (p : PassSpec) (l : PanelLoad) : Option FaultInfo :=
  let g (a : Nat) : Nat := s.fab.devnum * 2 ^ 48 + a
  firstFault [need (pairs l.fmt p.afmt && p.len == l.kp) 0x41 1,
    p.slots.flatten.findSome? fun r => match r.addrs.findSome? id with
      | some a => s.ownFault c (g (a / 8)) ((l.kp * p.afmt.bits + 7) / 8) 0x43 1
      | none => none,
    p.slots.flatten.findSome? fun r => match r.scales.findSome? id with
      | some a => s.ownFault c (g a) r.scales.length 0x43 1
      | none => none]

/-- PASS_START (R53): the pass at the front takes the panel at the head and feeds its first slot. An MMA takes the panels of PLOAD and
TLOAD; MMAWG and CONV take their own. [DESIGN CHOICE, log 11, 77] -/
def passStart (s : State) (c : Nat) : State :=
  let m := s.mx c
  match m.queue, m.loads, m.pass with
  | e :: queue, l :: rest, none =>
    match e.kind, l.began with
    | .passes bank (p :: todo) own, some b =>
      if !s.matrixOn c || l.owner != (if own then e.uid else 0) ||
          (p.ix == 0 && p.fed == 0 && s.matrixWaits c e) ||
          s.cyc c < max m.prevEnd (max (b + l.dur - (l.ncol - 1)) ((if own then l.issue else e.issue) + p.lat)) then s else
      let fits (q : PassSpec) : PassSpec := if own || p.ix != 0 then q else fitPass l.kp q
      match (if own then none else s.passFault c (fits p) l) with
      | some i => s.entryFault c e i
      | none =>
        let dur := p.slots.length * slices l.fmt l.kp
        let s := s.modMx c fun m => { m with
          loads := rest, pass := some ⟨s.cyc c, dur, 1, fits p, l⟩, prevStart := s.cyc c,
          queue := { e with kind := .passes bank (fits p :: todo.map fits) own } :: queue }
        (s.feedOr c bank 0 1 e (fits p) l).2
    | _, _ => s
  | _, _, _ => s

/-- The pass that runs is over: the next of its instruction, or the next instruction, is at the front. -/
def dropPass (s : State) (c : Nat) : State :=
  s.modMx c fun m =>
    let stop := match m.pass with | some q => q.start + q.dur | none => m.prevEnd
    let late := match m.pass with | some q => if q.panel.ended.isNone then some q.panel else m.late | none => m.late
    let queue := match m.queue with
      | e :: rest =>
        match e.kind with
        | .passes b (_ :: todo) own =>
          if todo.isEmpty && !m.decoding e.uid then rest else { e with kind := .passes b todo own } :: rest
        | _ => e :: rest
      | [] => []
    { m with pass := none, late := late, queue := queue, prevEnd := stop }

/-- PASS_END (R53): every slot has been fed; the pass ends at S + D, also before its panel's load does.
[DESIGN CHOICE, log 11, 77] -/
def passEnd (s : State) (c : Nat) : State :=
  let m := s.mx c
  match m.pass, m.queue with
  | some q, e :: _ =>
    match e.kind with
    | .passes bank _ _ =>
      if !s.matrixOn c || s.cyc c < q.start + q.dur then s else
      let (ok, s) := s.feedOr c bank q.slot q.spec.slots.length e q.spec q.panel
      if ok then (s.dropPass c).runMatrix 10 c else s
    | _ => s
  | _, _ => s

/-- GATHER_WINDOW_TIMEOUT (R67). [DEDUCED, log 155] -/
def gatherTimeout (s : State) (c : Nat) : State :=
  let x := s.ctx c
  match x.mx.queue, x.mx.gather with
  | e :: _, some g =>
    match e.kind with
    | .gwait dst =>
      match g.due with
      | some m => if s.matrixOn c then ((s.gatherClose c dst e.uid m).popEntry c).runMatrix 10 c else s
      | none => s
    | _ => s
  | _, _ => s

/-! ## Pre-emption (R57, R78 to R82) -/

/-- Outputs of the banks that are not live. [DEDUCED, log 78] -/
def deadKeys (m : Matrix) : List Nat :=
  (List.range 16).flatMap fun k =>
    if m.live.getLsbD k then [] else (List.range 256).map fun i => k * 256 + i

/-- The slot of a running pass that a pre-emption now lets end, and the running cycles until then (R78). -/
def stopAt (s : State) (c : Nat) (q : Pass) : Nat × Nat :=
  let n := slices q.panel.fmt q.panel.kp
  let hi := min q.spec.slots.length (max q.slot (if n = 0 then 0 else (s.cyc c - q.start) / n + 1))
  (hi, q.start + hi * n - s.cyc c)

/-- The pass that runs stops at the end of its current slot; its panel goes back to the head of the queue.
[DEDUCED, log 78] -/
def stopPass (s : State) (c : Nat) : State :=
  let m := s.mx c
  match m.pass, m.queue with
  | some q, e :: rest =>
    match e.kind with
    | .passes bank (p :: todo) own =>
      let hi := (s.stopAt c q).1
      let (ok, s) := s.feedOr c bank q.slot hi e p q.panel
      if !ok then s
      else if p.slots.length ≤ hi then s.dropPass c
      else s.modMx c fun m => { m with
        pass := none, loads := q.panel :: m.loads,
        queue := { e with kind := .passes bank ({ p with slots := p.slots.drop hi, fed := p.fed + hi } :: todo) own } :: rest }
    | _ => s
  | _, _ => s

/-- Pre-empt the matrix unit of a core: a due gather window closes first (R85), the pass stops at its boundary, 8 cycles let the
columns complete, and 8 for the control area and 16 for each live bank write the spill region (R78, R81).
[DEDUCED, log 78] -/
def spillMatrix (s : State) (c : Nat) : State :=
  let s := s.gatherTimeout c
  let n := match (s.mx c).pass with | some q => (s.stopAt c q).2 | none => 0
  let s := s.stopPass c
  let live := ((List.range 16).filter fun k => (s.mx c).live.getLsbD k).length
  s.modCore c fun k => { k with spill := n + 16 + 16 * live }

/-! ## The spill region (R78 to R81) -/

/-- A location of a core's own memory as a reference (R80). -/
def refOf (c a : Nat) : Nat :=
  if deckOf c ≤ a && a < deckOf c + deckSize then 2 ^ 63 + (a - deckOf c) else (a - spadOf c) % 2 ^ 22

/-- A load entry (R80). [DEDUCED, log 174] -/
def loadEntry (c : Nat) (l : PanelLoad) : List Byte :=
  le 16 l.frame.toNat ++ le 8 (refOf c l.base) ++ le 8 (l.stride % 2 ^ 22) ++ le 8 (if l.fmt.isMx then refOf c l.sbase else 0) ++
  zeros 24

/-- The operand fields of an interrupted MMA or MMAWG: locations as references, strides by their low 22 bits, a mask as it is.
[DEDUCED, log 174] -/
def argRefs (c : Nat) (e : MEntry) : List Byte :=
  let loc (k : Nat) : List Byte := le 8 (refOf c (gloc ((e.args[k]?).getD 0).toNat))
  let num (k : Nat) : List Byte := le 8 (((e.args[k]?).getD 0).toNat % 2 ^ 22)
  let raw (k : Nat) : List Byte := le 8 ((e.args[k]?).getD 0).toNat
  if opcode e.frame = 0x40 then loc 0 ++ num 1 ++ raw 2 ++ loc 3
  else loc 0 ++ num 1 ++ loc 2 ++ num 3 ++ raw 4 ++ loc 5 ++ loc 6

/-- The interrupted MMA or MMAWG at the front of the queue, with its next pass; work of CONV leaves no such record (R264). -/
def broken (m : Matrix) : Option (MEntry × PassSpec) :=
  match m.queue with
  | e :: _ =>
    match e.kind with
    | .passes _ (p :: _) _ =>
      if (opcode e.frame = 0x40 || opcode e.frame = 0x50) && (p.ix != 0 || p.fed != 0) then some (e, p) else none
    | _ => none
  | [] => none

/-- The gather window's 32 bytes (R80). [DEDUCED, log 174] -/
def gatherBytes (c n : Nat) (g : Option Gather) : List Byte :=
  match g with
  | some g => le 8 (refOf c g.base) ++ le 8 (g.stride % 2 ^ 22) ++ le 2 g.arm ++ le 2 g.fbase ++ le 2 g.tmo ++
      le 4 (match g.since with | some t => n - t | none => 0) ++ le 1 1 ++ zeros 5
  | none => zeros 32

/-- The control area of the spill region, from LIVE on (R80). [DEDUCED, log 174] -/
def controlArea (x : Ctx) (c : Nat) : List Byte :=
  let m := x.mx
  let open' := (match m.loads with
    | l :: rest => (match broken m with | some (_, p) => if p.fed != 0 then (some l, rest) else (none, m.loads) | none => (none, m.loads))
    | [] => (none, []))
  let que := (open'.2.filter fun l => l.owner == 0).take 4
  let head := match broken m with
    | some (e, p) => (p.ix, p.fed, if opcode e.frame = 0x40 then 1 else 2, fit 96 (le 16 e.frame.toNat ++ argRefs c e))
    | none => (0, 0, 0, zeros 96)
  le 2 m.live.toNat ++ le 1 (x.astat.toNat % 16) ++ le 1 que.length ++ le 2 head.1 ++ le 2 head.2.1 ++ le 1 head.2.2.1 ++ zeros 7 ++
  head.2.2.2 ++ (match open'.1 with | some l => loadEntry c l | none => zeros 64) ++ fit 256 (que.flatMap (loadEntry c)) ++
  gatherBytes c x.cycles m.gather ++ zeros 560

/-- The image of engine bank `k` (engine * 4 + bank). -/
def bankImage (m : Matrix) (k : Nat) : List Byte := (List.range 256).flatMap fun i => le 8 (SMap.getD m.acc (k * 256 + i) 0).toNat

/-- The unit writes its spill record and its live banks; the areas of dead banks, and what those banks held, are not defined (R57,
R78, R80). [DEDUCED, log 78] -/
def writeSpill (s : State) (c : Nat) : State :=
  let x := s.ctx c
  let s := s.forget (spillOf c) (spillOf c + 0x8000)
  let s := iterate 16 s fun k s => if x.mx.live.getLsbD k then s.store (spillOf c + k * 0x800) (bankImage x.mx k) else s
  (s.store (spillOf c + 0x8000) (controlArea x c)).freeAcc c (deadKeys x.mx)

end State

def execPanelLoadBegin (c : Nat) (s : State) : Host.Outcome State Fault Refusal := .next (s.panelBegin c)
def execPanelLoadEnd (c : Nat) (s : State) : Host.Outcome State Fault Refusal := .next (s.panelEnd c)
def execPassStart (c : Nat) (s : State) : Host.Outcome State Fault Refusal := .next (s.passStart c)
def execPassEnd (c : Nat) (s : State) : Host.Outcome State Fault Refusal := .next (s.passEnd c)
def execGatherWindowTimeout (c : Nat) (s : State) : Host.Outcome State Fault Refusal := .next (s.gatherTimeout c)

end Sys2Proof.Machine
end

