-- ==== Sys2Proof/Machine/Programs.lean ====
section
/-! DEFINITION. Sys2Proof/Machine/Programs.lean: the life of a program (R34 to R44, R158 to R167), switching (R192 to R194), retired cores
(R35) and the debug windows' control register (R198). -/

namespace Sys2Proof.Machine

/-! ## Images and save areas (R158 to R160) -/

/-- The header keeps its rules. -/
def imageOk (h : List Byte) (len : Nat) : Bool :=
  rd h 0 4 == 0x4B524441 && rd h 4 2 == 1 && decide (1 ≤ rd h 6 1) && decide (rd h 6 1 ≤ 48) &&
  decide (1 ≤ rd h 7 1) && decide (rd h 7 1 ≤ 64) &&
  rd h 8 4 % 16 == 0 && decide (0x40 ≤ rd h 8 4) && decide (rd h 8 4 + rd h 0xC 4 ≤ len) &&
  rd h 0xC 4 % 16 == 0 && decide (16 ≤ rd h 0xC 4) && decide (rd h 0xC 4 ≤ 0x100000) &&
  rd h 0x10 4 % 16 == 0 && decide (rd h 0x10 4 < rd h 0xC 4) &&
  rd h 0x14 4 % 1024 == 0 && decide (rd h 0x14 4 ≤ spillLo) &&
  rd h 0x18 4 % 0x10000 == 0 && decide (rd h 0x18 4 ≤ deckSize) && (h.drop 0x20).all (· == 0)

namespace State

/-- The lowest free handle. [DESIGN CHOICE, log 165] -/
def freeHandle (s : State) : Option Nat :=
  (List.range (min 1024 (s.progs.length + 1))).find? fun h => (s.prog h).isNone

/-- Does a save area share a byte with another program's? -/
def saveMeets (s : State) (a n : Nat) : Bool := s.progs.any fun p => meet a n p.2.save p.2.saveLen

/-! ## CMD_PROG_LOAD (R158, R159, R166) -/

/-- Header and text have been read. [DEDUCED, log 81] -/
def loadImage (s : State) (m : MbxCmd) (bs : List (Byte × Bool)) : Ans × State :=
  let p := pay m
  let h := (bs.take 64).map (·.1)
  let text := (bs.drop 64).map (·.1)
  let streets := rd h 6 1; let avenues := rd h 7 1; let spad := rd h 0x14 4; let deck := rd h 0x18 4
  let need := saveNeed (streets * avenues) spad deck
  let save := rd p 0x10 8; let len := rd p 0x18 8
  if bs.any (·.2) then (.refuse St.poisoned, s)
  else if crc32 text != rd h 0x1C 4 then (.refuse St.corruptInput, s)
  else if len < need then (.bad 0x18, s)
  else if s.saveMeets save len then (.refuse St.badState, s)
  else
    match s.freeHandle with
    | none => (.refuse St.badState, s)
    | some n =>
      let q : Prog := {
        st := 1, streets := streets, avenues := avenues, entry := rd h 0x10 4, textLen := text.length, spadUse := spad,
        deckUse := deck, save := save, saveLen := len, place := none, slot := none, order := 0, arg := 0, recs := [],
        nfault := 0, runFrom := none, runCyc := 0, slice := s.dc.pslice, still := 0, fail := false, switches := 0,
        saved := [], seed := 0 }
      (.ok (le 2 n ++ zeros 6 ++ le 8 need), (s.store (textBase n) text).setProg n q)

/-- The header has been read: check it and read the text. [DESIGN CHOICE, log 15] -/
def loadText (s : State) (m : MbxCmd) (bs : List (Byte × Bool)) : Ans × State :=
  let key := FetchKey.mbx (portNo m.port)
  let h := bs.map (·.1)
  if bs.any (·.2) then (.refuse St.poisoned, s.dropFetch key)
  else if !imageOk h (rd (pay m) 8 4) || s.deckOpen < rd h 0x18 4 then (.bad 0, s.dropFetch key)
  else
    let s := s.fetchMore key [(rd (pay m) 0 8 + rd h 8 4, rd h 0xC 4)] 3 none 64
    match s.fetch? key with
    | some f =>
      if f.missing != 0 then (.later, s)
      else if f.status != St.ok then (.refuse f.status, s.dropFetch key)
      else (s.dropFetch key).loadImage m (f.data 0 (64 + rd h 0xC 4))
    | none => (.refuse St.badState, s)

/-- [DEDUCED, log 82] -/
def loadRun (m : MbxCmd) (s : State) : Ans × State :=
  let key := FetchKey.mbx (portNo m.port)
  let s := match s.fetch? key with | some _ => s | none => s.fetchNew key [(rd (pay m) 0 8, 64)] 3 none
  match s.fetch? key with
  | some f =>
    if f.missing != 0 then (.later, s)
    else if f.status != St.ok then (.refuse f.status, s.dropFetch key)
    else if f.bytes.length ≤ 64 then s.loadText m (f.data 0 64)
    else (s.dropFetch key).loadImage m (f.data 0 (64 + rd ((f.data 0 64).map (·.1)) 0xC 4))
  | none => (.refuse St.badState, s)

/-! ## Placing (R37, R38) -/

/-- Cores outside the core map. -/
def outCores (s : State) : List Nat := (s.cores.filter fun k => k.2.excl != 0).map (·.1)

def inRect (s0 a0 st av c : Nat) : Bool :=
  decide (s0 ≤ c / 64) && decide (c / 64 < s0 + st) && decide (a0 ≤ c % 64) && decide (c % 64 < a0 + av)

def rectGood (s : State) (s0 a0 : Nat) (p : Prog) : Bool := !s.outCores.any (inRect s0 a0 p.streets p.avenues)

/-- Does the rectangle meet the group of another active program? -/
def rectOverlap (s : State) (h s0 a0 : Nat) (p : Prog) : Bool :=
  s.progs.any fun q => q.1 != h && (q.2.st == 2 || q.2.active) && groupsMeet { p with place := some (s0, a0) } q.2

/-- The rectangle firmware chooses. -/
def chooseRect (s : State) (h : Nat) (p : Prog) : Option (Nat × Nat) :=
  let corners := (List.range (49 - p.streets)).flatMap fun i => (List.range (65 - p.avenues)).map fun j => (i, j)
  (corners.find? fun x => s.rectGood x.1 x.2 p && !s.rectOverlap h x.1 x.2 p).or
    (corners.find? fun x => s.rectGood x.1 x.2 p)

/-- The arithmetic status word of a core that runs no program is cleared (R107). [DEDUCED, log 176] -/
def clearStat (s : State) (c : Nat) : State :=
  if (s.core c).st = 1 || (s.core c).st = 2 || (s.core c).st = 6 then s else s.modCtx c fun x => { x with astat := 0 }

/-- A placed program: its group stands, and the status words of its cores that run nothing are cleared (R107).
[DEDUCED, log 176] -/
def placeAt (s : State) (h : Nat) (p : Prog) (s0 a0 : Nat) : Ans × State :=
  let ovr := s.rectOverlap h s0 a0 p
  let p' : Prog := { p with st := 2, place := some (s0, a0), saved := [] }
  (.ok (le 1 s0 ++ le 1 a0 ++ le 1 (if ovr then 1 else 0)),
   (p'.cores.foldl (fun (s : State) c => s.clearStat c) s).setProg h p')

/-! ## Starting (R164) -/

/-- What a core finds at its start. [DESIGN CHOICE, log 181] -/
def startCtx (s : State) (p : Prog) (arg : W64) (c : Nat) : Ctx :=
  let (s0, a0) := p.place.getD (0, 0)
  let dev := s.fab.devnum * 2 ^ 48
  let x : Ctx := { Ctx.start with pc := p.entry }
  ((((x.setA 0 arg).setA 1 (BitVec.ofNat 64 c)).setA 2 (BitVec.ofNat 64 ((c / 64 - s0) + (c % 64 - a0) * 2 ^ 8 +
    p.streets * 2 ^ 16 + p.avenues * 2 ^ 24 + s.fab.devnum * 2 ^ 32))).setA 3 (BitVec.ofNat 64 (dev + spadOf c))).setA 4
    (BitVec.ofNat 64 (dev + deckOf c))

/-- Does the placement stand (R35)? -/
def placeStands (s : State) (p : Prog) : Bool := p.place.isSome && p.cores.all s.inMap

/-- [DESIGN CHOICE, log 4] [DEDUCED, log 81] -/
def startProg (s : State) (h : Nat) (p : Prog) (arg : W64) : State :=
  let (k, s) := s.uid
  let p : Prog := { p with
    order := k, arg := arg, recs := [], nfault := 0, runCyc := 0, slice := s.dc.pslice, still := 0, fail := false, switches := 0,
    runFrom := none, slot := none, saved := [] }
  if s.canRun p && s.yields h p then
    let s := p.cores.foldl (fun (s : State) c => s.modCore c fun q => { q with
      ctx := s.startCtx p arg c, st := 1, holder := h, halted := false, fault := [], step := 0, issued := false, again := [], spill := 0 }) s
    s.setProg h { p with st := 3, slot := s.freeSlot, runFrom := some s.now }
  else
    let saved : SMap Saved := p.cores.map fun c => (c, ⟨s.startCtx p arg c, false, none, [], []⟩)
    let s : State := { s with rot := s.rot ++ [h] }
    (s.setProg h { p with st := 4, saved := saved }).writeSave h

/-! ## Reading -/

/-- Nanoseconds a program has been switched in. -/
def runNs (s : State) (p : Prog) : Nat := s.runCycles p * 5 / 12

def haltedCores (s : State) (p : Prog) : Nat :=
  if p.st = 3 then (p.cores.filter fun c => (s.core c).halted).length else (p.saved.filter fun v => v.2.halted).length

def statusBytes (s : State) (p : Prog) : List Byte :=
  let (s0, a0) := if s.placeStands p then p.place.getD (0xFF, 0xFF) else (0xFF, 0xFF)
  le 1 p.st ++ le 1 (p.slot.getD 0xFF) ++ le 1 s0 ++ le 1 a0 ++ le 1 p.streets ++ le 1 p.avenues ++ le 1 p.recs.length ++
  zeros 1 ++ le 4 p.nfault.toNat ++ le 4 (s.haltedCores p) ++ le 8 (s.runNs p) ++ le 8 p.switches.toNat

/-! ## Switching out (R192) -/

/-- Accesses of a core that a switch waits for: stores, atomics, signals and halo copies under way. -/
def switchBusy (s : State) (c h : Nat) : Bool :=
  (s.works c h).any fun w => w.out && w.unit != 4 && w.unit != 6 ||
    (w.unit == 6 && w.writes)

/-- The outstanding SLD reads of a core, to be issued again; their data is discarded. [DEDUCED, log 79] -/
def takeLoads (s : State) (c h : Nat) : List Req × State :=
  let mine (k : Cont) : Bool := match k with | .load c' h' .. => c' == c && h' == h | _ => false
  let rs := (s.fab.outst.map (·.2) ++ s.fab.waiting).filter fun r => mine r.cont
  (rs, s.dropConts mine)

/-- What the save area keeps of a core's memory. [DEDUCED, log 80] -/
def keptMem (s : State) (p : Prog) (c : Nat) : Memory :=
  (savedRanges c p).foldl (fun m r => m.join (s.mem.clip r.1 r.2)) ⟨[], [], []⟩

/-- Save one core. [DEDUCED, log 79] -/
def saveCore (s : State) (h c : Nat) (p : Prog) : Saved × State :=
  let s := s.writeSpill c
  let (stems, s) := s.takeStems c h
  let (sld, s) := s.takeLoads c h
  let k := s.core c
  (⟨k.ctx, k.halted, some (s.keptMem p c), stems, sld⟩,
   s.setCore c { k with ctx := Ctx.start, st := 0, last := some h, step := 0, issued := false, spill := 0 })

/-- A program whose cores have come to their safe points is switched out. -/
def switchOut (s : State) (h : Nat) : State :=
  match s.prog h with
  | none => s
  | some p =>
    let (saved, s) := p.cores.foldl (fun (a : SMap Saved × State) c =>
      match a.2.prog h with
      | some q =>
        if q.st != 3 then a else
        let (v, s) := a.2.saveCore h c q
        (SMap.put a.1 c v, s)
      | none => a) (([] : SMap Saved), s)
    match s.prog h with
    | none => s
    | some p =>
      if p.st != 3 then s else
      let s := (s.setProg h { p with st := 4, slot := none, runFrom := none, runCyc := s.runCycles p,
                                     switches := p.switches + 1, saved := saved }).writeSave h
      let s : State := { s with
        rot := s.rot ++ [h]
        streams := s.streams.map fun t => (t.1, if t.2.owner = .prog h then { t.2 with paused := true } else t.2) }
      s.schedule

/-- Does a clip of one of the program's streams still run (R287)? [DEDUCED, log 79] -/
def clipsRun (s : State) (h : Nat) : Bool :=
  s.ig.batches.any fun b => b.live != 0 && match s.stream? b.st with | some x => x.owner == Owner.prog h | none => false

/-- The switch goes on: it completes when every access it waits for has completed, every matrix unit has spilled, and the last clip
that runs has ended (R81, R192, R287). [DEDUCED, log 79] -/
def switchGo (s : State) (h : Nat) : State :=
  match s.prog h with
  | some p =>
    if s.switching p && !p.fail && !s.clipsRun h && p.cores.all (fun c => (s.core c).spill == 0 && !s.switchBusy c h) then s.switchOut h
    else s
  | none => s

/-- Has a program run its slice (R43, R194)? [DEDUCED, log 87] -/
def sliceOver (s : State) (p : Prog) : Bool :=
  match p.runFrom with | some t => decide (t + p.slice * 2400 + p.still ≤ s.now) | none => false

/-- Does some waiting program, the first to have waited for its cores, need what `h` holds, and have all others that hold its cores
run their slices too (R41)? [DEDUCED, log 87] -/
def wanted (s : State) (h : Nat) (p : Prog) : Bool :=
  s.rot.any fun w => match s.prog w with
    | some q => q.st == 4 && !q.fail && q.cores.all s.inMap && s.yields w q && (groupsMeet p q || s.freeSlot.isNone) &&
        s.progs.all fun r => r.1 == h || r.2.st != 3 || !groupsMeet q r.2 || s.sliceOver r.2
    | none => false

/-- Pre-empt a program: its streams pause, the matrix units of its cores go to their boundaries, and no instruction issues
(R78, R192). -/
def preempt (s : State) (h : Nat) (p : Prog) : State :=
  let s : State := { s with streams := s.streams.map fun t => (t.1, if t.2.owner = .prog h then { t.2 with paused := true } else t.2) }
  p.cores.foldl (fun (s : State) c =>
    if (s.core c).st = 1 then (s.spillMatrix c).modCore c fun k => { k with st := if k.st = 1 then 2 else k.st } else s) s

/-- PROGRAM_SLICE_EXPIRY (R41, R43, R192, R194). [DEDUCED, log 87] -/
def progExpiry (s : State) (h : Nat) : State :=
  let s := s.applyKills
  match s.prog h with
  | none => s
  | some p =>
    if s.tru.handAt.isSome then s else
    if s.switching p then s.switchGo h else
    if p.st != 3 || p.fail || !s.sliceOver p || !s.wanted h p || p.cores.any (fun c => (s.core c).st == 6) then s
    else (s.preempt h p).switchGo h

/-! ## Retired cores (R35, R367) -/

/-- Empty the frozen cache: fills on their way are discarded (R367, R368). -/
def flushFrozen (s : State) : State := { s with fab := { s.fab with cache := [], epoch := s.fab.epoch + 1 } }

/-- What a retirement does to one program. -/
def retireFrom (s : State) (c h : Nat) : State :=
  match s.prog h with
  | none => s
  | some p =>
    if !p.hasCore c then s
    else if p.active then s.progFault c h allOnes64 0 (faultOf 0xF0 7)
    else if p.st = 2 then
      (s.setProg h { p with st := 1, place := none }).event 1 0 (BitVec.ofNat 64 h) 1
    else s.event 1 0 (BitVec.ofNat 64 h) (BitVec.ofNat 64 p.st)

/-- CORE_RETIRE: a running core of the map reports an uncorrectable internal error. [DEDUCED, log 89] -/
def coreRetire (s : State) (c : Nat) : State :=
  if !s.inMap c then s else
  let s := s.modCore c fun k => { k with excl := 6 }
  let s := ((s.progs.map (·.1)).foldl (fun (s : State) h => s.retireFrom c h) s).flushFrozen
  (s.modCore c fun k => { k with st := 7 }).event 6 0 (BitVec.ofNat 64 c) 0 |>.logErr 0x60 0x0B (BitVec.ofNat 64 c)

/-! ## The debug windows (R198, R505) -/

/-- The debug probe halts a core at the safe points of a switch: its matrix unit spills, and the SLD reads under way are cancelled
(R192 step 3, R198). [DEDUCED, log 88] -/
def dbgHalt (s : State) (c : Nat) : State :=
  let s := s.spillMatrix c
  if (s.core c).st != 1 then s else
  let (rs, s) := (s.writeSpill c).takeLoads c (s.core c).holder
  s.modCore c fun k => { k with st := 6, step := 0, issued := false, again := rs, spill := 0 }

/-- A core leaves the debug halt: its matrix unit reads its spill region back, and its SLDs are issued again.
[DEDUCED, log 88] -/
def dbgResume (s : State) (c step : Nat) : State :=
  let k := s.core c
  let mx := Matrix.reload (s.readSpill c k.ctx.mx) k.ctx.cycles
  let s := s.setCore c { k with st := 1, step := step, again := [], ctx := { k.ctx with mx := mx } }
  { s with fab := { s.fab with waiting := s.fab.waiting ++ k.again } }

/-- A core with a request to halt, or whose stepped instruction has completed, halts (R198). [DEDUCED, log 88] -/
def dbgGo (s : State) (c : Nat) : State :=
  let k := s.core c
  if k.st != 1 then s
  else if k.step = 0 then (if k.haltreq then s.dbgHalt c else s)
  else if k.issued && !(s.works c k.holder).any (fun w => decide (k.step ≤ w.uid + 1)) then s.dbgHalt c
  else s

/-- A write of `CO_DBGCTL`. [DEDUCED, log 88] -/
def dbgWrite (s : State) (c : Nat) (v : W32) : State :=
  if s.tru.debug = 0 || nCores ≤ c then s else
  let s := s.modCore c fun k => { k with haltreq := bitOf v 0 }
  if (s.core c).st = 6 && bitOf v 1 then s.dbgResume c (s.fresh + 1)
  else if (s.core c).st = 6 && bitOf v 2 then s.dbgResume c 0
  else s.dbgGo c

end State

/-! ## Commands (R163, R166, R167) -/

def progBoxes : List Port := [.host, .svc]

/-- Check 6 for a command that names a handle at payload offset 0. -/
def withProg (m : MbxCmd) (s : State) (states : List Nat) (k : Nat → Prog → Ans × State) : Ans × State :=
  let h := rd (pay m) 0 2
  match s.prog h with
  | none => (.bad 0, s)
  | some p => if states.contains p.st then k h p else (.refuse St.badState, s)

/-- [DESIGN CHOICE, log 4] -/
def progLoad : Cmd :=
  { op := 0x0200, boxes := progBoxes, len := 0x20, launch := true, trim := fun _ => true,
    check := fun m =>
      let p := pay m
      [(0, rd p 0 8 % 64 == 0 && gvalid (rd p 0 8)), (8, decide (0x50 ≤ rd p 8 4)), zeroAt m 0xC 4,
       (0x10, rd p 0x10 8 % 4096 == 0 && decide (rd p 0x10 8 < lpEnd)),
       (0x18, decide (rd p 0x10 8 + rd p 0x18 8 ≤ lpEnd))],
    run := State.loadRun }

/-- [DESIGN CHOICE, log 4] -/
def progPlace : Cmd :=
  { op := 0x0201, boxes := progBoxes, len := 8, launch := true, trim := fun _ => true,
    check := fun m => [(2, decide (rd (pay m) 2 1 < 2)), zeroAt m 3 1, zeroAt m 6 2],
    run := fun m s => withProg m s [1, 2, 5, 6, 7] fun h p =>
      if rd (pay m) 2 1 = 1 then
        match s.chooseRect h p with
        | some (s0, a0) => s.placeAt h p s0 a0
        | none => (.refuse St.badState, s)
      else
        let s0 := rd (pay m) 4 1; let a0 := rd (pay m) 5 1
        if 48 < s0 + p.streets then (.bad 4, s) else if 64 < a0 + p.avenues then (.bad 5, s)
        else if !s.rectGood s0 a0 p then (.refuse St.badState, s)
        else s.placeAt h p s0 a0 }

/-- [DEDUCED, log 81, 86] -/
def progStart : Cmd :=
  { op := 0x0202, boxes := progBoxes, len := 0x10, launch := true, trim := fun _ => true, check := fun m => [zeroAt m 2 6],
    run := fun m s => withProg m s [2, 5, 6, 7] fun h p =>
      if !s.placeStands p then (.refuse St.badState, s)
      else (.ok, s.startProg h p (BitVec.ofNat 64 (rd (pay m) 8 8))) }

def progStatus : Cmd :=
  { op := 0x0203, boxes := progBoxes, len := 2, launch := false, trim := fun _ => false, check := fun _ => [],
    run := fun m s => withProg m s [1, 2, 3, 4, 5, 6, 7] fun _ p => (.ok (s.statusBytes p), s) }

def progFaults : Cmd :=
  { op := 0x0204, boxes := progBoxes, len := 4, launch := false, trim := fun _ => false,
    check := fun m => [(2, decide (rd (pay m) 2 1 < 16)), (3, decide (1 ≤ rd (pay m) 3 1) && decide (rd (pay m) 3 1 ≤ 3))],
    run := fun m s => withProg m s [1, 2, 3, 4, 5, 6, 7] fun _ p =>
      let first := rd (pay m) 2 1; let n := rd (pay m) 3 1
      if p.recs.length < first + n then (.bad 2, s) else (.ok ((p.recs.drop first).take n).flatten, s) }

/-- [DEDUCED, log 83] -/
def progUnload : Cmd :=
  { op := 0x0205, boxes := progBoxes, len := 2, launch := false, trim := fun _ => false, check := fun _ => [],
    run := fun m s => withProg m s [1, 2, 5, 6, 7] fun h _ =>
      let mine := (s.streams.filter fun x => decide (x.2.owner = .prog h)).map (·.1)
      let s := mine.foldl (fun (s : State) st => s.cancelAny st) s
      (.ok, { s with progs := SMap.del s.progs h, streams := s.streams.filter fun x => !mine.contains x.1,
                     sposts := s.sposts.filter fun p => p.h != h }) }

/-- The flag of a core as CMD_PROG_FLAG reads it. -/
def State.flagOf (s : State) (h c n : Nat) (p : Prog) : W32 :=
  match s.progCtx h c with
  | some x => x.flag n
  | none => match SMap.get? p.saved c with | some v => v.ctx.flag n | none => 0

/-- [DEDUCED, log 86] -/
def progFlag : Cmd :=
  { op := 0x0206, boxes := progBoxes, len := 0xC, launch := false, trim := fun _ => false,
    check := fun m => [(4, decide (rd (pay m) 4 2 < 4096)), (6, decide (rd (pay m) 6 1 < 3)), zeroAt m 7 1],
    run := fun m s => withProg m s [3, 4, 5, 6, 7] fun h p =>
      let q := pay m
      let so := rd q 2 1; let ao := rd q 3 1; let n := rd q 4 2; let op := rd q 6 1
      if p.streets ≤ so then (.bad 2, s) else if p.avenues ≤ ao then (.bad 3, s)
      else if !p.active && op != 2 then (.refuse St.badState, s)
      else
        let (s0, a0) := p.place.getD (0, 0)
        let c := (s0 + so) * 64 + a0 + ao
        let old := s.flagOf h c n p
        let s := if op = 2 then s else s.modProgFlag h c n (signalFn (op == 1) (BitVec.ofNat 32 (rd q 8 4)))
        (.ok (le 4 old.toNat), s) }

def execCmdProgLoad (m : MbxCmd) (s : State) : Host.Outcome State Fault Refusal := .next (s.issueCmd progLoad m)
def execCmdProgPlace (m : MbxCmd) (s : State) : Host.Outcome State Fault Refusal := .next (s.issueCmd progPlace m)
def execCmdProgStart (m : MbxCmd) (s : State) : Host.Outcome State Fault Refusal := .next (s.issueCmd progStart m)
def execCmdProgStatus (m : MbxCmd) (s : State) : Host.Outcome State Fault Refusal := .next (s.issueCmd progStatus m)
def execCmdProgFaults (m : MbxCmd) (s : State) : Host.Outcome State Fault Refusal := .next (s.issueCmd progFaults m)
def execCmdProgUnload (m : MbxCmd) (s : State) : Host.Outcome State Fault Refusal := .next (s.issueCmd progUnload m)
def execCmdProgFlag (m : MbxCmd) (s : State) : Host.Outcome State Fault Refusal := .next (s.issueCmd progFlag m)
def execProgramSliceExpiry (h : Nat) (s : State) : Host.Outcome State Fault Refusal := .next (s.progExpiry h)
def execCoreRetire (c : Nat) (s : State) : Host.Outcome State Fault Refusal := .next (s.coreRetire c)
def execCoDbgctlHaltreq (c : Nat) (v : W32) (s : State) : Host.Outcome State Fault Refusal := .next (s.dbgWrite c v)
def execCoDbgctlStep (c : Nat) (v : W32) (s : State) : Host.Outcome State Fault Refusal := .next (s.dbgWrite c v)
def execCoDbgctlResume (c : Nat) (v : W32) (s : State) : Host.Outcome State Fault Refusal := .next (s.dbgWrite c v)

end Sys2Proof.Machine
end

