-- ==== Sys2Proof/Machine/Boot.lean ====
section
/-! DEFINITION. Sys2Proof/Machine/Boot.lean: images and their checks (R488 to R490), the boot header (R487), what a reset clears
(R475), and the reset sequence with the boot (R473, R476 to R479, R491, R493). -/

namespace Sys2Proof.Machine

/-! ## Octet strings (R488) -/

/-- The number an octet string spells, most significant byte first. -/
def beNat (bs : List Byte) : Nat := bs.foldl (fun n b => 256 * n + b.toNat) 0

def sub (bs : List Byte) (off n : Nat) : List Byte := (bs.drop off).take n

/-- Does an octet string equal a hash? -/
def hashIs (bs : List Byte) (h : BitVec 384) : Bool := beNat bs == h.toNat

/-! ## Images (R489, R490) -/

/-- Check 1: the fields of a header keep R489, for a body of `len` bytes. -/
def hdrFields (h : List Byte) (kind len : Nat) : Bool :=
  rd h 0 4 == 0x49464B5A && rd h 4 2 == 1 && rd h 6 1 == kind && rd h 7 1 < 2 && decide (rd h 0x10 4 ≤ 128) &&
  rd h 0x14 4 == len && len % 4096 == 0 && decide (len ≤ if kind = 0 then 48 * 2 ^ 20 else 15 * 2 ^ 20) &&
  rd h 0x1A 6 == 0 && decide (rd h 0x110 4 < 32) && rd h 0x114 12 == 0 && (h.drop 0x2A0).all (· == 0)

/-- The first of checks 1 to 6 that a header fails, 0 when it passes them. -/
def hdrCheck (t : Trust) (h : List Byte) (kind len : Nat) : Nat :=
  let root := sub h 0x50 96; let sign := sub h 0xB0 96
  let signed := Config.sha384 (sub h 0 0x180)
  if !(kind < 2 && hdrFields h kind len) then 1
  else if Config.sha384 root != Config.rootHash then 2
  else if t.keyrev.getLsbD (rd h 0x110 4) then 3
  else if !(Config.ecdsaOk root (sub h 0x120 96) (Config.sha384 (sub h 0xB0 0x70)) && Config.ecdsaOk sign (sub h 0x180 96) signed) then 4
  else if (match t.owner with
      | some o => !(rd h 7 1 % 2 == 1 && Config.sha384 (sub h 0x240 96) == o &&
          Config.ecdsaOk (sub h 0x240 96) (sub h 0x1E0 96) signed)
      | none => false) then 5
  else if rd h 0x10 4 < (if kind = 0 then t.fwsvn else t.calsvn) then 6
  else 0

/-- The first check an image fails, 0 when it is valid. -/
def imgCheck (t : Trust) (kind : Nat) (i : Img) : Nat :=
  let c := hdrCheck t i.hdr kind i.body.length
  if c != 0 then c else if hashIs (sub i.hdr 0x20 48) (Config.sha384 i.body) then 0 else 7

def Trust.img (t : Trust) (kind slot : Nat) : Option Img :=
  match kind, slot with | 0, 0 => t.fwA | 0, _ => t.fwB | _, 0 => t.calA | _, _ => t.calB

def Trust.setImg (t : Trust) (kind slot : Nat) (i : Option Img) : Trust :=
  match kind, slot with
  | 0, 0 => { t with fwA := i } | 0, _ => { t with fwB := i } | _, 0 => { t with calA := i } | _, _ => { t with calB := i }

/-- The check a slot fails; an empty slot fails the first. -/
def slotCheck (t : Trust) (kind slot : Nat) : Nat :=
  match t.img kind slot with | some i => imgCheck t kind i | none => 1

/-! ## The boot header (R487) -/

/-- The copy a reader takes: which one, and its content; none when neither is valid. -/
def Trust.hdrIn (t : Trust) : Option (Nat × BootHdr) :=
  match t.hdr0, t.hdr1 with
  | some a, some b => if (b.seq - a.seq).toNat < 2 ^ 31 then some (1, b) else some (0, a)
  | some a, none => some (0, a)
  | none, some b => some (1, b)
  | none, none => none

def Trust.hdr (t : Trust) : BootHdr := match t.hdrIn with | some p => p.2 | none => ⟨0, 0, 0, 0, 0, 0⟩

/-- Write the header: the copy that does not hold the higher SEQ takes it. -/
def Trust.writeHdr (t : Trust) (g : BootHdr → BootHdr) : Trust :=
  let h := g t.hdr
  let h := { h with seq := t.hdr.seq + 1 }
  match t.hdrIn with
  | some (0, _) => { t with hdr1 := some h }
  | _ => { t with hdr0 := some h }

/-- Which copy the next write takes. -/
def Trust.hdrNext (t : Trust) : Nat := match t.hdrIn with | some (0, _) => 1 | _ => 0

def BootHdr.act (h : BootHdr) (kind : Nat) : Nat := if kind = 0 then h.fwact.toNat % 2 else h.calact.toNat % 2
def BootHdr.pend (h : BootHdr) (kind : Nat) : Bool := if kind = 0 then h.fwpend != 0 else h.calpend != 0
def BootHdr.set (h : BootHdr) (kind slot : Nat) (pend : Bool) : BootHdr :=
  let p : Byte := if pend then 1 else 0
  if kind = 0 then { h with fwact := BitVec.ofNat 8 slot, fwpend := p } else { h with calact := BitVec.ofNat 8 slot, calpend := p }

/-! ## The strap pin (R479) -/

/-- Code and STRAPERR of a resistance in ohms. [DEDUCED, log 104] -/
def strapCode (r : Nat) : Nat × Bool :=
  if r < 1730 then (15, true) else if 130500 ≤ r then (15, false) else
  match [2310, 3090, 4120, 5490, 7320, 9770, 13000, 17300, 23100, 30900].findIdx? fun e => decide (r < e) with
  | some k => (k, false)
  | none => (15, true)

/-- MODE of a code: 0 normal, 1 recovery, 2 hold. -/
def strapMode (code : Nat) : Nat := if code = 8 || code = 9 then 2 else if [2, 3, 6, 7].contains code then 1 else 0

/-- Does a code name service Ethernet as its boot source? -/
def strapEth (code : Nat) : Bool := decide (4 ≤ code) && decide (code ≤ 7)

namespace State

/-! ## Alerts (R481, R511) -/

/-- ALERT_N follows `LL_ALERT` AND `LL_ALERTEN`; the port signals when that becomes nonzero. -/
def alertPin (s : State) (a en : BitVec 7) : State :=
  let was := s.pw.alert &&& s.pw.alerten
  let s : State := { s with pw := { s.pw with alert := a, alerten := en, alertn := a &&& en == 0 } }
  if was == 0 && a &&& en != 0 then s.emit (.ibi 2) else s

def setAlert (s : State) (bit : Nat) : State :=
  s.alertPin (s.pw.alert ||| BitVec.ofNat 7 (2 ^ bit)) s.pw.alerten

/-! ## What a reset clears (R475, R8, R445) -/

/-- LL_RSTCAUSE. -/
def rstCause (p : Power) : W32 :=
  BitVec.ofNat 32 (p.cause + (if p.cold then 128 else 0) + p.warmcnt.toNat * 256 + min p.merged 255 * 2 ^ 24)

/-- Memory after a reset: LPDDR5X is kept in self-refresh where R475 says so. -/
def resetMem (s : State) (keep : Bool) : Memory :=
  s.mem.forget (if keep then fwEnd else 0) (2 ^ 48) s.fresh

/-- The Lamplighter's registers after a reset of kind `cold`. -/
def resetPower (s : State) (cold : Bool) : Power :=
  let p := s.pw; let r := Power.reset
  { r with
    pstate := p.pstate, refok := p.refok, auxok := p.auxok, pg48 := p.pg48, sagwarn := p.sagwarn, sagOff := p.sagOff
    sagn := p.sagn, vin := p.vin, trips := p.trips, tripHold := p.tripHold, latched := p.latched, cause := p.cause
    cold := p.cold, merged := p.merged, seq := p.seq, pinLow := p.pinLow, pulse := p.pulse, held := p.held
    refLost := p.refLost
    cap := if p.trimFault then 1200 else gradeMax
    droopTot := if cold then 0 else p.droopTot, droopCnt := if cold then 0 else p.droopCnt
    sagCnt := if cold then 0 else p.sagCnt, thrns := if cold then 0 else p.thrns
    warmcnt := if cold then 0 else p.warmcnt, expired := if cold then 0 else p.expired
    scratch := if cold then 0 else p.scratch, attempts := if cold then 0 else p.attempts
    trimFault := p.trimFault, trimSrc := p.trimSrc, code := p.code, straperr := p.straperr, rmeas := p.rmeas }

/-- The trust state after a reset: nonces, sessions, debug access and work in progress end; a read cursor stands at the
end of the log, as `SEC_ERRNEW` reads 0. [DEDUCED, log 105] -/
def resetTrust (s : State) (cold : Bool) : Trust :=
  { s.tru with
    handover := none, handAt := none, busy := 0, nonces := [], debug := 0, wdtsusp := false, session := none
    dbglock := s.tru.dbglock && !cold, lastSeq := none, lastRsp := [], rspPort := 0, spdm := [], fetch := none
    mctpBusy := false, rspWait := false, confirm := none, deferred := [], cursors := (List.range 5).map fun p => (p, s.tru.errSeq) }

/-- Everything a reset clears at once. [DEDUCED, log 105] -/
def wipe (s : State) (cold keep : Bool) : State :=
  let r := State.reset
  { r with
    pending := s.pending, now := s.now, fresh := s.fresh + 1, mem := s.resetMem keep, env := s.env, out := s.out
    mcs := if cold then [] else (List.range 12).map fun k => (k, { s.mc k with trained := 0, ueAddr := 0 })
    xunits := if cold then [] else
      (s.xunits.map fun x => (x.1, (⟨[], [], x.2.ops, []⟩ : XUnit))).filter fun x => x.2 != XUnit.empty
    hp := { r.hp with
      ur := if cold then 0 else s.hp.ur, ca := if cold then 0 else s.hp.ca
      disc := if cold then 0 else s.hp.disc, pois := if cold then 0 else s.hp.pois
      pz := { r.hp.pz with bytes := if cold then 0 else s.hp.pz.bytes } }
    tr := if cold then r.tr else { r.tr with
      drop := s.tr.drop, late := s.tr.late, side := s.tr.side, wideCnt := s.tr.wideCnt, floatCnt := s.tr.floatCnt
      ringb := s.tr.ringb }
    dc := { r.dc with snapSeq := if cold then 0 else s.dc.snapSeq }
    pw := s.resetPower cold, tru := s.resetTrust cold }

/-! ## Steps 5 to 7 (R476, R31 to R34) -/

/-- Severity of a reset's log entry (R514). -/
def rstSev (cause : Nat) : Nat := if [2, 5, 6, 9].contains cause then 3 else 0

/-- The sequence has come to its end: the reset is logged. -/
def seqEnd (s : State) : State :=
  let s : State := { s with pw := { s.pw with seq := none } }
  s.logErrSev (rstSev s.pw.cause) 0x80 0xC 0 0 (le 4 (rstCause s.pw).toNat)

/-- LPDDR5X is trained and the UCIe link comes up. -/
def linksUp (s : State) : State :=
  { s with mcs := (List.range 12).map (fun k => (k, { s.mc k with trained := 0xFF })), hp := { s.hp with link := 2 },
           pw := { s.pw with pstate := 3, pllst := 2 } }

/-- Firmware runs, and steps 5 to 7 are next (R476 step 4). [DESIGN CHOICE, log 5] -/
def firmwareUp (s : State) : State := { s with pw := { s.pw with seq := some 5 } }

/-- Steps 5 to 7: training, self-test, the core map, and the links. [DESIGN CHOICE, log 5, 12] -/
def bringUp (s : State) : State :=
  let mesh := s.env.badX.any (·.2)
  let s : State := { s with dc := { s.dc with fwok := true, dstate := if mesh then 2 else 1 } }
  let s := (s.env.excl.filter fun x => x.1 < nCores).foldl (fun (s : State) x => s.modCore x.1 fun k => { k with excl := x.2 % 16 }) s
  s.linksUp.seqEnd

/-- Steps 5 to 7 follow when firmware runs and no reset is held back (R474, R476). [DESIGN CHOICE, log 5] -/
def bootGo (s : State) : State := if s.pw.seq = some 5 && s.pw.held.isNone then s.bringUp else s

/-- The recovery monitor runs (R493); in hold nothing is trained. The self-test of step 5 is skipped, so no core leaves the map and
EXCL stays 0. [DESIGN CHOICE, log 179] -/
def recover (s : State) (hold : Bool) : State :=
  let s : State := { s with dc := { s.dc with fwok := true, dstate := 3 }, pw := { s.pw with pstate := 3 } }
  (if hold then s else s.linksUp).seqEnd

/-! ## Step 4: the boot (R491) -/

/-- The boot ROM takes the header and counts the boot. [DEDUCED, log 119] -/
def bootHeader (s : State) : State :=
  let s := if s.tru.hdrIn.isNone then s.logErr 0x81 0xF 0 else s
  { s with tru := s.tru.writeHdr fun h => { h with bootcnt := h.bootcnt + 1 } }

/-- Choose the slot of a kind; an unconfirmed activation goes back to the other slot. [DEDUCED, log 119] -/
def bootSlot (s : State) (kind : Nat) : Nat × State :=
  let h := s.tru.hdr
  if h.pend kind then
    let n := 1 - h.act kind
    (n, { s with tru := s.tru.writeHdr fun h => h.set kind n false }.logErr 0x81 0xA 0)
  else (h.act kind, s)

/-- Check the chosen slot, then the other; each failure is logged. [DEDUCED, log 103] -/
def bootCheck (s : State) (kind slot : Nat) : Option Nat × State :=
  let c := slotCheck s.tru kind slot
  if c = 0 then (some slot, s) else
  let s := s.logErr 0x81 9 0 0 (le 24 c)
  let c := slotCheck s.tru kind (1 - slot)
  if c = 0 then (some (1 - slot), s) else (none, s.logErr 0x81 9 0 0 (le 24 c))

/-- A body runs from code bank 0. -/
def runImage (s : State) (i : Img) : State :=
  { s with tru := { s.tru with runHdr := i.hdr, banks := [i.body, []], bank := 0 } }

/-- Boot from flash. [DEDUCED, log 103] -/
def bootFlash (s : State) : State :=
  let s := s.bootHeader
  let (f, s) := s.bootSlot 0
  let (k, s) := s.bootSlot 1
  let (f, s) := s.bootCheck 0 f
  let (k, s) := s.bootCheck 1 k
  match f, k with
  | some f, some k =>
    match s.tru.img 0 f, s.tru.img 1 k with
    | some i, some j =>
      ({ s with tru := { s.tru with fwslot := f, calslot := k, calHdr := j.hdr } }.runImage i).firmwareUp
    | _, _ => s.recover false
  | _, _ => s.recover false

/-- Send the request for one block of the image. -/
def imgRequest (s : State) (off : Nat) : State :=
  match s.tru.fetch with
  | none => s
  | some f =>
    let s : State := { s with tru := { s.tru with fetch := some { f with out := SMap.put f.out off s.now } } }
    s.svcSend 0 0x20 (le 8 Config.serial.toNat ++ le 8 off ++ le 4 1024 ++ zeros 4)

/-- Keep 16 requests outstanding. -/
def imgPump : Nat → State → State
  | 0, s => s
  | n + 1, s =>
    match s.tru.fetch with
    | some f =>
      if f.out.length < 16 && f.len.isNone then
        imgPump n (({ s with tru := { s.tru with fetch := some { f with next := f.next + 1024 } } }).imgRequest f.next)
      else s
    | none => s

/-- Step 4, by the code of the pin. -/
def seqBoot (s : State) : State :=
  match strapMode s.pw.code with
  | 2 => s.recover true
  | 1 => s.recover false
  | _ =>
    if strapEth s.pw.code then
      let s := s.bootHeader
      imgPump 16 { s with
        pw := { s.pw with seq := some 4 }, tru := { s.tru with fetch := some ⟨0, [], [], none, s.now⟩ } }
    else s.bootFlash

/-! ## Steps 1 to 3 -/

/-- Step 3: the reference, the strap pin. [DEDUCED, log 104] -/
def seqStrap (s : State) : State :=
  if !s.pw.refok || s.pw.pinLow then { s with pw := { s.pw with seq := some 3 } } else
  let (c, e) := strapCode s.env.rmeas
  let s : State := { s with pw := { s.pw with code := c, straperr := e, rmeas := min (s.env.rmeas / 100) 0xFFF } }
  (if e then s.setAlert 4 else s).seqBoot

/-- Step 2: the trim words (R478). [DESIGN CHOICE, log 12] -/
def seqTrim (s : State) : State :=
  let p := s.pw
  let n := p.attempts + if s.env.trimA then 1 else 2
  let ok := s.env.trimA || s.env.trimB
  let s : State := { s with pw := { p with
    attempts := n, trimFault := !ok, trimSrc := if s.env.trimA then 0 else if s.env.trimB then 1 else 2
    cap := if ok then gradeMax else 1200 } }
  (if ok then s else (s.setAlert 3).logErr 0x80 0xD 0 St.trimFault).seqStrap

/-- May the conversion run? -/
def mayConvert (s : State) : Bool :=
  !s.pw.sagOff && s.pw.tripHold.isNone && !s.pw.latched && s.pw.pstate != 0 && s.pw.pulse.isNone

/-- Step 1b, and then step 2 when the trim words are still to be loaded. -/
def seqRails (s : State) (trim : Bool) : State :=
  if !s.mayConvert || s.pw.pinLow then { s with pw := { s.pw with seq := some (if trim then 1 else 10) } } else
  let s : State := { s with pw := { s.pw with pg48 := true } }
  if trim then s.seqTrim else s.seqStrap

/-- A waiting sequence goes on when nothing holds it any more. -/
def seqGo (s : State) : State :=
  match s.pw.seq with
  | some 1 => s.seqRails true
  | some 10 => s.seqRails false
  | some 3 => s.seqStrap
  | _ => s

/-- The sequence of a reset begins, or begins again under R473. [DESIGN CHOICE, log 5] [DEDUCED, log 111] -/
def seqBegin (s : State) (cause : Nat) : State :=
  let p := s.pw
  let cold := decide (cause ≤ 2)
  let was := p.seq
  let keep := !cold && cause != 6 && s.nb == 0
  let s : State := { s with pw := { p with
    cause := if was.isSome then p.cause else cause
    cold := cold || (was.isSome && p.cold)
    merged := if was.isSome then min 255 (p.merged + 1) else 0
    warmcnt := if cold || p.warmcnt = 0xFFFF then p.warmcnt else p.warmcnt + 1
    pg48 := if cold || cause = 6 then false else p.pg48 } }
  let s := s.wipe cold keep
  if cold then s.seqRails true
  else if cause = 6 then s.seqRails (was == some 1)
  else match was with
    | some 1 => s.seqRails true
    | some 10 => s.seqRails false
    | _ => s.seqStrap

/-- A reset is taken: during a write pulse its sequence waits, and the core clocks stop at once (R474).
[DEDUCED, log 110, 118] -/
def takeReset (s : State) (cause : Nat) : State :=
  if s.pw.pulse.isSome && cause != 1 then
    { s with
      cores := s.cores.map (fun k => (k.1, if k.2.st = 1 then { k.2 with st := 0 } else k.2))
      pw := { s.pw with held := some (match s.pw.held with | some c => min c cause | none => cause) } }
  else s.seqBegin cause

end State

end Sys2Proof.Machine
end

