-- ==== Sys2Proof/Machine/Power.lean ====
section
/-! DEFINITION. Sys2Proof/Machine/Power.lean: supplies, throttling, clocks and reset sources (R460 to R474, R483 to R485). -/

namespace Sys2Proof.Machine

/-- [DESIGN CHOICE, log 10] -/
def msCycles : Nat := 2400000

namespace State

def modPw (s : State) (g : Power → Power) : State := { s with pw := g s.pw }

/-- A POWER event (R484). -/
def powerEvent (s : State) (cause : Nat) : State := s.event 9 0 (BitVec.ofNat 64 cause) 0

/-! ## Supplies (R460, R461) -/

/-- A standby rail is below its threshold: the whole device is held. [DEDUCED, log 109] -/
def powerOn (s : State) : State :=
  let p := s.pw
  let k := s.fresh
  let lost := Config.freeNat k % 2 == 0
  let pw : Power := { p with
    pstate := 0, pulse := none, held := none, pinLow := false, tripHold := none, latched := false, trips := [] }
  let s : State := { s with fresh := k + 8, pw := pw }
  -- The page or word that an interrupted pulse was writing is not defined (R474).
  let t := s.tru
  let t : Trust := match p.pulse with
    | some 0 => if lost then { t with hdr0 := none } else t
    | some 1 => if lost then { t with hdr1 := none } else t
    | some 2 => if lost then { t with fwA := none } else t
    | some 3 => if lost then { t with fwB := none } else t
    | some 4 => if lost then { t with calA := none } else t
    | some 5 => if lost then { t with calB := none } else t
    | some 6 => { t with owner := some (BitVec.ofNat 384 (iterate 6 0 fun i n => n + (Config.freeW64 (k + 1 + i)).toNat * 2 ^ (64 * i))) }
    | some 7 => { t with fwsvn := Config.freeNat (k + 1) % 129 }
    | some 8 => { t with calsvn := Config.freeNat (k + 1) % 129 }
    | some _ => if lost then { t with net := [] } else t
    | none => t
  { s with tru := t }.seqBegin 1

/-- Both standby rails are valid. -/
def railsValid (s : State) : State :=
  if s.pw.pstate != 0 then s else (s.modPw fun p => { p with pstate := 1, auxok := true }).seqGo

def sagWarn (s : State) : State :=
  if s.pw.sagwarn || s.pw.pstate = 0 then s else
  ((s.modPw fun p => { p with sagwarn := true, sagn := false, sagCnt := p.sagCnt + 1 }).setAlert 0).powerEvent 1

def sagWarnEnd (s : State) : State :=
  if !s.pw.sagwarn || s.pw.pstate = 0 then s else (s.modPw fun p => { p with sagwarn := false, sagn := true }).powerEvent 2

/-- The conversion stops and a cold reset follows; the warning is on record (R485). [DEDUCED, log 106] -/
def sagDown (s : State) : State :=
  if s.pw.sagOff || s.pw.pstate = 0 then s else
  ((s.modPw fun p => { p with sagOff := true, pg48 := false, pstate := 1, sagwarn := true, sagn := false }).takeReset 2).setAlert 0

def sagUp (s : State) : State :=
  if !s.pw.sagOff then s else (s.modPw fun p => { p with sagOff := false }).seqGo

/-! ## Throttling (R462 to R466, R484) -/

/-- THRNS, in nanoseconds. -/
def thrNs (s : State) : Nat := (s.pw.thrns + match s.pw.thrFrom with | some t => s.now - t | none => 0) * 5 / 12

/-- Set both levels: a throttle starts when its level leaves 0. [DEDUCED, log 108] -/
def setLevels (s : State) (pl tl : Nat) : State :=
  let p := s.pw
  let pStart := p.plevel == 0 && pl != 0 && p.plZero.isNone
  let tStart := p.tlevel == 0 && tl != 0 && p.tlZero.isNone
  let zero (old new : Nat) (z : Option Nat) : Option Nat := if new != 0 then none else if old != 0 then some s.now else z
  let was := elevel p; let is := max pl tl
  let s := s.modPw fun p => { p with
    plevel := pl, tlevel := tl, plZero := zero p.plevel pl p.plZero, tlZero := zero p.tlevel tl p.tlZero
    thrns := if was != 0 && is = 0 then p.thrns + (s.now - p.thrFrom.getD s.now) else p.thrns
    thrFrom := if is = 0 then none else if was = 0 then some s.now else p.thrFrom }
  let s := if pStart then (s.setAlert 5).powerEvent 3 else s
  if tStart then (s.setAlert 1).powerEvent 5 else s

/-- How much lower the thermal thresholds are, in 1/16 °C (R478). -/
def safeDrop (p : Power) : Int := if p.trimFault then 160 else 0

/-- THROTTLE_BOUNDARY: a 100 µs boundary. -/
def boundary (s : State) : State :=
  let p := s.pw
  if p.pstate < 2 && !p.pg48 then s else
  let pl := if p.cap < p.mean then min 15 (p.plevel + 1) else if p.mean * 100 < p.cap * 97 then p.plevel - 1 else p.plevel
  let t := max p.tjmax p.tdeck + safeDrop p
  let tl := if 1600 ≤ t then min 15 (p.tlevel + 1) else if t < 1568 then p.tlevel - 1 else p.tlevel
  s.setLevels pl tl

def throttleEnd (s : State) (thermal : Bool) : State :=
  let p := s.pw
  match if thermal then p.tlZero else p.plZero with
  | some t =>
    if s.now < t + 10 * msCycles then s
    else if thermal then (s.modPw fun p => { p with tlZero := none }).powerEvent 6
    else (s.modPw fun p => { p with plZero := none }).powerEvent 4
  | none => s

/-- A thermal trip (R465). -/
def trip (s : State) : State :=
  let ts := (s.pw.trips.filter fun t => s.now < t + 600000 * msCycles) ++ [s.now]
  (s.modPw fun p => { p with
    trips := ts, latched := decide (3 ≤ ts.length), tripHold := some (s.now + 10000 * msCycles), pg48 := false, pstate := 1
    hot := false }).takeReset 6

/-- POWER_SAMPLE: a 10 µs sample (R463 to R465). [DEDUCED, log 107] -/
def sample (s : State) (r : Sample) : State :=
  if s.pw.pstate < 2 && !s.pw.pg48 then s else
  let samples := (s.pw.samples ++ [r.watts]).drop (s.pw.samples.length + 1 - 100)
  let top := max r.die r.sram
  let hot := decide (1840 ≤ top)
  let again := hot && s.pw.hot
  let alert := decide (16 * (s.pw.alertc : Int) ≤ top)
  let rise := alert && !s.pw.alerted
  let s := s.modPw fun p => { p with
    samples := samples, mean := samples.foldl (· + ·) 0 / samples.length, vin := r.vin, tjmax := r.die, sensor := r.sensor
    tdeck := r.sram, tlp := r.lp, hot := hot, alerted := alert }
  let s := if s.pw.cap * 125 < r.watts * 100 then s.setLevels 15 s.pw.tlevel else s
  let s := if rise then (s.setAlert 2).powerEvent 9 else s
  if again then s.trip else s

def tripEnd (s : State) : State :=
  match s.pw.tripHold with
  | some t => if s.pw.latched || s.now < t then s else (s.modPw fun p => { p with tripHold := none }).seqGo
  | none => s

def droopStretch (s : State) (st : Nat) : State :=
  if 48 ≤ st || s.pw.stretch.contains st then s else s.modPw fun p => { p with stretch := p.stretch ++ [st] }

def droopStop (s : State) (st : Nat) : State :=
  if 48 ≤ st || s.pw.stops.contains st then s else
  ((s.modPw fun p => { p with
    stops := p.stops ++ [st], droopTot := p.droopTot + 1
    droopCnt := if p.droopCnt = 0xFFFFFFFF then p.droopCnt else p.droopCnt + 1 }).setAlert 6).powerEvent 8

def droopEnd (s : State) (st : Nat) : State :=
  s.modPw fun p => { p with stretch := p.stretch.filter (· != st), stops := p.stops.filter (· != st) }

/-! ## Clocks (R467 to R470) -/

def refLoss (s : State) : State :=
  s.modPw fun p => { p with refok := false, refLost := p.refLost || p.refok && p.seq.isNone && p.pstate ≥ 2 }

def refBack (s : State) : State :=
  if s.pw.refok then s else
  let lost := s.pw.refLost
  let s := s.modPw fun p => { p with refok := true, refLost := false }
  if lost then s.takeReset 9 else s.seqGo

/-- Nothing runs and nothing is asked of the device (R469). -/
def quiet (s : State) : Bool :=
  s.pw.idleen && !s.progs.any (fun p => p.2.st == 3) &&
  !s.streams.any (fun t => decide (Stream.code t.2 = 1)) &&
  !s.ig.engines.any (fun e => e.2.run.isSome) && !s.stems.any (fun e => e.2.run.isSome) &&
  !s.tr.buckets.any (fun b => b.2.run.isSome) && s.hp.reqs.isEmpty

def goIdle (s : State) : State :=
  if s.pw.pstate = 3 && s.pw.seq.isNone && s.quiet && s.pw.idleFrom + 10 * msCycles ≤ s.now &&
      s.fab.lastReq + 10 * msCycles ≤ s.now then
    s.modPw fun p => { p with pstate := 2, pllst := 0 }
  else s

def wakeUp (s : State) : State :=
  if s.pw.pstate = 2 && s.pw.pllst = 0 then s.modPw fun p => { p with pllst := 1, idleFrom := s.now } else s

def pllDone (s : State) : State :=
  if s.pw.pstate = 2 && s.pw.pllst = 1 then s.modPw fun p => { p with pllst := 2, pstate := 3 } else s

/-! ## Reset sources (R471 to R474) -/

def pinAssert (s : State) : State :=
  if s.pw.pinLow || s.pw.pstate = 0 then s else
  (s.modPw fun p => { p with pinLow := true, latched := false, tripHold := if p.latched then none else p.tripHold }).takeReset 3

def pinRelease (s : State) : State :=
  if !s.pw.pinLow then s else (s.modPw fun p => { p with pinLow := false }).seqGo

def watchdog (s : State) : State :=
  if s.dc.dstate != 1 || s.tru.wdtsusp then s else
  (s.modPw fun p => { p with expired := if p.expired = 0xFFFF then p.expired else p.expired + 1 }).takeReset 5

/-- A counter rises by the bit that a pulse has programmed (R494). -/
def bitDone (s : State) (pulse : Option Nat) : State :=
  match pulse with
  | some 7 => { s with tru := { s.tru with fwsvn := s.tru.fwsvn + 1 } }
  | some 8 => { s with tru := { s.tru with calsvn := s.tru.calsvn + 1 } }
  | _ => s

/-- A confirmation goes on to its next pulse, or is answered. [DEDUCED, log 138] -/
def confirmGo (s : State) : State :=
  match s.tru.confirm with
  | none => s
  | some c =>
    if (if c.kind = 0 then s.tru.fwsvn else s.tru.calsvn) < c.target then s.modPw fun p => { p with pulse := some (7 + c.kind) }
    else ({ s with tru := { s.tru with confirm := none } }).respond c.port c.tag St.ok [] 0 0

/-- A write pulse ends: a held reset begins, and what waited for the pulse goes on. [DEDUCED, log 110] -/
def pulseEnd (s : State) : State :=
  if s.pw.pulse.isNone then s else
  let c := s.pw.held
  let s := (s.modPw fun p => { p with pulse := none, held := none }).bitDone s.pw.pulse
  match c with | some c => s.seqBegin c | none => s.seqGo.confirmGo

end State

def execPowerOnReset (s : State) : Host.Outcome State Fault Refusal := .next s.powerOn
def execStandbyRailsValid (s : State) : Host.Outcome State Fault Refusal := .next s.railsValid
def execSagWarning (s : State) : Host.Outcome State Fault Refusal := .next s.sagWarn
def execSagWarningRelease (s : State) : Host.Outcome State Fault Refusal := .next s.sagWarnEnd
def execSagReset (s : State) : Host.Outcome State Fault Refusal := .next s.sagDown
def execSagResetRelease (s : State) : Host.Outcome State Fault Refusal := .next s.sagUp
def execPowerSample (r : Sample) (s : State) : Host.Outcome State Fault Refusal := .next (s.sample r)
def execThrottleBoundary (s : State) : Host.Outcome State Fault Refusal := .next s.boundary
def execThrottleEnd (thermal : Bool) (s : State) : Host.Outcome State Fault Refusal := .next (s.throttleEnd thermal)
def execStandbyWaitExpiry (s : State) : Host.Outcome State Fault Refusal := .next s.tripEnd
def execDroopStretch (street : Nat) (s : State) : Host.Outcome State Fault Refusal := .next (s.droopStretch street)
def execDroopStop (street : Nat) (s : State) : Host.Outcome State Fault Refusal := .next (s.droopStop street)
def execDroopRecovery (street : Nat) (s : State) : Host.Outcome State Fault Refusal := .next (s.droopEnd street)
def execReferenceClockLost (s : State) : Host.Outcome State Fault Refusal := .next s.refLoss
def execReferenceClockRegained (s : State) : Host.Outcome State Fault Refusal := .next s.refBack
def execChipWideIdleness (s : State) : Host.Outcome State Fault Refusal := .next s.goIdle
def execWake (s : State) : Host.Outcome State Fault Refusal := .next s.wakeUp
def execPllRestartComplete (s : State) : Host.Outcome State Fault Refusal := .next s.pllDone
def execModResetNAssert (s : State) : Host.Outcome State Fault Refusal := .next s.pinAssert
def execModResetNRelease (s : State) : Host.Outcome State Fault Refusal := .next s.pinRelease
/-- A link reset from the host die is a warm reset, cause 0x4. -/
def execUcieLinkReset (s : State) : Host.Outcome State Fault Refusal := .next (if s.hp.link = 0 then s else s.takeReset 4)
/-- A retrain leaves the device as it is (R421). [DESIGN CHOICE, log 13] -/
def execUcieLinkRetrain (s : State) : Host.Outcome State Fault Refusal := .next s
def execWatchdog (s : State) : Host.Outcome State Fault Refusal := .next s.watchdog
def execWritePulseEnd (s : State) : Host.Outcome State Fault Refusal := .next s.pulseEnd
/-- TRST resets the test access port and nothing else (R471, R513). -/
def execTrstNAssert (s : State) : Host.Outcome State Fault Refusal := .next { s with tru := { s.tru with jtagIr := 0 } }

/-! ## Commands (R483) -/

/-- A byte field whose zero gives the default `d`. -/
def orDefault (v d : Nat) : Nat := if v = 0 then d else v

def pwrConfig : Cmd :=
  { op := 0x0110, boxes := [.host, .bmc, .svc], len := 8, launch := false, trim := fun _ => false,
    check := fun m =>
      let p := pay m
      let cap := orDefault (rd p 0 2) gradeMax; let warn := orDefault (rd p 2 1) 84; let rst := orDefault (rd p 3 1) 72
      let alert := orDefault (rd p 4 1) 95; let wdt := orDefault (rd p 6 2) 1000
      [(0, decide (1200 ≤ cap) && decide (cap ≤ gradeMax)), (2, decide (76 ≤ warn) && decide (warn ≤ 92)),
       (2, decide (rst + 4 ≤ warn)), (3, decide (68 ≤ rst) && decide (rst ≤ 80)), (4, decide (70 ≤ alert) && decide (alert ≤ 99)),
       zeroAt m 5 1, (6, decide (10 ≤ wdt) && decide (wdt ≤ 10000))],
    run := fun m s =>
      let p := pay m
      s.stage m.port (.power (orDefault (rd p 0 2) gradeMax) (orDefault (rd p 2 1) 84) (orDefault (rd p 3 1) 72)
        (orDefault (rd p 4 1) 95) (orDefault (rd p 6 2) 1000)) }

/-- A signed 16-bit field. -/
def le16s (v : Int) : List Byte := le 2 (BitVec.ofInt 16 v).toNat

def pwrStatus : Cmd :=
  { op := 0x0111, boxes := allPorts, len := 0, launch := false, trim := fun _ => false, check := fun _ => [],
    run := fun _ s =>
      let p := s.pw
      (.ok (le 2 p.mean ++ le 2 p.cap ++ le 2 p.vin ++ le16s p.tjmax ++ le16s p.tdeck ++ le16s p.tlp ++ le 1 p.plevel ++
        le 1 p.tlevel ++ le 1 p.pstate ++ zeros 1 ++ le 8 s.thrNs ++ le 4 p.sagCnt.toNat ++ le 4 p.droopCnt.toNat), s) }

def execCmdPwrConfig (m : MbxCmd) (s : State) : Host.Outcome State Fault Refusal := .next (s.issueCmd pwrConfig m)
def execCmdPwrStatus (m : MbxCmd) (s : State) : Host.Outcome State Fault Refusal := .next (s.issueCmd pwrStatus m)

end Sys2Proof.Machine
end

