-- ==== Sys2Proof/Machine/Trees.lean ====
section
/-! DEFINITION. Sys2Proof/Machine/Trees.lean: global operations on trees (R369 to R372) and fabric time (R373 to R375). -/

namespace Sys2Proof.Machine

def rootParent : Nat := 0xFFFF

namespace State

/-! ## Packets of a tree (R345) -/

/-- Send a packet that takes no response on VL0 to a member. -/
def sendVl0 (s : State) (dst : Nat) (p : Packet) : State :=
  if s.fab.devState != 1 || !SMap.getD s.fab.members dst false then s else
  match s.pickLink dst dst with
  | some l => s.sendPacket l 0 { p with src := BitVec.ofNat 16 s.fab.devnum, dst := BitVec.ofNat 16 dst }
  | none => s

/-- ADDR of a GOP packet. -/
def gopAddr (tree step kind seq : Nat) (fail : Bool) : Nat :=
  tree + step * 16 + kind * 256 + (if fail then 4096 else 0) + seq % 2 ^ 32 * 2 ^ 32

def sendGop (s : State) (dst tree step kind seq : Nat) (fail : Bool) (data : List Byte) : State :=
  s.sendVl0 dst { pktBlank with
    op := 8, addr := BitVec.ofNat 64 (gopAddr tree step kind seq fail), len := data.length, data := data }

def tree? (s : State) (t : Nat) : Option Tree := SMap.get? s.fab.trees t
def setTree (s : State) (t : Nat) (x : Tree) : State := { s with fab := { s.fab with trees := SMap.put s.fab.trees t x } }

/-- The same packet to every child. -/
def toChildren (s : State) (t : Nat) (x : Tree) (step kind : Nat) (fail : Bool) (data : List Byte) : State :=
  x.children.foldl (fun s c => s.sendGop c t step kind x.seq fail data) s

/-! ## Completion -/

/-- The work of a long command has ended; its stream completes when that is reported. -/
def longDone (s : State) (st status value : Nat) (pieces : Nat := 1) : State :=
  s.modStream st fun x => { x with last := status, bytes := BitVec.ofNat 64 value, rlog2 := pieces, done := 1 }

/-- Number under which phase `ph` of step program `sp` starts a global operation: no stream has it. -/
def phaseStream (sp ph : Nat) : Nat := 2 ^ 24 + sp * 16 + ph

/-- The global operation of a phase has ended. -/
def phaseHears (s : State) (n status : Nat) : State :=
  let sp := (n - 2 ^ 24) / 16; let ph := (n - 2 ^ 24) % 16
  { s with tr := { s.tr with steps := s.tr.steps.map fun x =>
      (x.1, if x.1 = sp then { x.2 with run := x.2.run.map fun r => { r with
        phases := r.phases.zipIdx.map fun p => if p.2 = ph then { p.1 with res := some status } else p.1 } } else x.2) } }

/-- The stream of an operation hears of its end. -/
def tellStream (s : State) (st : Option Nat) (status value : Nat) : State :=
  match st with
  | none => s
  | some n =>
    match s.stream? n with
    | none => if 2 ^ 24 ≤ n then s.phaseHears n status else s
    | some x =>
      if x.long.isSome then s.longDone n status value
      else (s.modRun n fun r => { r with value := value, pieces := 1 }).finish n status

/-- The operation ends at this member, and its sequence number moves on. -/
def gopEnd (s : State) (t : Nat) (x : Tree) (r : GopRun) (status value : Nat) : State :=
  (s.setTree t { x with seq := x.seq + 1, run := none }).tellStream r.st status value

/-- What a failing operation ends with. [DEDUCED, log 99] -/
def gopStatus (r : GopRun) : Nat := if r.gone then St.departed else if r.fail then St.timeout else St.ok

/-- A barrier or broadcast is released: the bytes go to BDST, the packet goes on. [DEDUCED, log 102] -/
def gopRelease (s : State) (t : Nat) (x : Tree) (r : GopRun) : State :=
  let s := s.toChildren t x 1 r.kind r.gone (if r.kind = 1 then fit 64 r.data else [])
  let (e, s) := if r.kind = 1 && r.started && !r.gone && r.st.isSome then
      let q := s.gWrite r.bdst.toNat ((fit 64 r.data).map fun b => (b, false)) 2 none .drop
      (q.1, q.2.2)
    else (St.ok, s)
  s.gopEnd t x r (if r.gone then St.departed else stOf e) x.seq

/-! ## Snapshots (R370) -/

/-- Has every request of this device on VL1 to VL4 completed? -/
def drainedHere (s : State) : Bool := !s.fab.outst.any fun r => decide (1 ≤ r.2.vl) && decide (r.2.vl ≤ 4)

/-- Resume: traffic goes on, the packet goes on, the operation ends. -/
def gopResume (s : State) (t : Nat) (x : Tree) (r : GopRun) (snap : Nat) : State :=
  (s.toChildren t x 4 2 (r.fail || r.gone) []).gopEnd t x r (gopStatus r) snap

/-- A member whose part is drained says so; the root resumes. -/
def gopDrained (s : State) (t : Nat) (force : Bool) : State :=
  match s.tree? t with
  | none => s
  | some x =>
    match x.run with
    | none => s
    | some r =>
      if !r.draining || r.sentDrained || !(force || (s.drainedHere && x.children.all r.drained.contains)) then s else
      let r := { r with sentDrained := true, fail := r.fail || force }
      if x.parent = rootParent then s.gopResume t x r s.ftime.toNat
      else (s.setTree t { x with run := some r }).sendGop x.parent t 3 2 x.seq (r.fail || r.gone) []

/-- DRAIN: new requests are held at their source from now on. -/
def gopDrain (s : State) (t : Nat) (x : Tree) (r : GopRun) : State :=
  let s := s.toChildren t x 2 2 r.gone []
  (s.setTree t { x with run := some { r with draining := true, drainAt := s.now } }).gopDrained t false

/-! ## Going up -/

/-- Once the member has started and every child has arrived, ARRIVE goes to the parent; the root turns round.
[DEDUCED, log 118] -/
def gopUp (s : State) (t : Nat) : State :=
  match s.tree? t with
  | none => s
  | some x =>
    match x.run with
    | none => s
    | some r =>
      if !r.started || r.sentUp || !x.children.all r.arrived.contains then s else
      let r := { r with sentUp := true }
      if x.parent = rootParent then (if r.kind = 2 then s.gopDrain t x r else s.gopRelease t x r)
      else (s.setTree t { x with run := some r }).sendGop x.parent t 0 r.kind x.seq r.gone []

/-- Children that have arrived for an operation this member has not started, by sequence number. -/
def earlyCode (seq child : Nat) : Nat := seq * 65536 + child

def gopNew (kind : Nat) (st : Option Nat) (tmoAt : Option Nat) (data : List Byte) (bdst : W64) (arrived : List Nat) : GopRun :=
  { kind := kind, st := st, started := true, tmoAt := tmoAt, data := data, bdst := bdst, arrived := arrived, sentUp := false,
    draining := false, drained := [], sentDrained := false, drainAt := 0, fail := false, gone := false }

/-- A partner or a stream starts this member's part. -/
def gopStart (s : State) (t kind tmo : Nat) (st : Option Nat) (data : List Byte) (bdst : W64) : State :=
  match s.tree? t with
  | none => s
  | some x =>
    let arrived := (x.early.filter fun e => e / 65536 == x.seq).map (· % 65536)
    let r := gopNew kind st (if tmo = 0 then none else some (s.now + tmo * 2400)) data bdst arrived
    (s.setTree t { x with early := x.early.filter (fun e => x.seq < e / 65536), run := some r }).gopUp t

/-- May an operation start on a tree: the device is JOINED, has a place, and none is in progress? -/
def gopFree (s : State) (t : Nat) : Bool :=
  s.fab.devState == 1 && match s.tree? t with | some x => x.run.isNone | none => false

/-! ## GOP packets -/

/-- The tree, member and fields a GOP packet is for, when it is from a parent or child of the tree. -/
def gopPacket (s : State) (p : Packet) (fromParent : Bool) (k : Nat → Tree → Nat → Nat → Bool → State → State) : State :=
  let a := p.addr
  let t := fld a 2 0
  match s.tree? t with
  | none => s
  | some x =>
    let src := p.src.toNat
    if s.fab.devState != 1 || p.dst.toNat != s.fab.devnum then s
    else if !(if fromParent then x.parent == src else x.children.contains src) then s
    else k t x (fld a 11 8) (fld a 63 32) (bitOf a 12) s

/-- ARRIVE from a child. -/
def onArrive (s : State) (p : Packet) : State :=
  s.gopPacket p false fun t x _ seq fail s =>
    match x.run with
    | some r =>
      if seq = x.seq then
        (s.setTree t { x with run := some { r with arrived := r.arrived ++ [p.src.toNat], gone := r.gone || fail } }).gopUp t
      else if x.seq < seq then s.setTree t { x with early := x.early ++ [earlyCode seq p.src.toNat] } else s
    | none => if x.seq ≤ seq then s.setTree t { x with early := x.early ++ [earlyCode seq p.src.toNat] } else s

/-- RELEASE from the parent: kind 3 goes on at once and ends in the warm reset of the fabric global reset. -/
def onRelease (s : State) (p : Packet) : State :=
  s.gopPacket p true fun t x kind seq fail s =>
    if kind = 3 then (s.toChildren t x 1 3 false []).takeReset 8 else
    match x.run with
    | some r => if seq = x.seq then s.gopRelease t x { r with gone := r.gone || fail, data := p.data } else s
    | none => s

def onDrain (s : State) (p : Packet) : State :=
  s.gopPacket p true fun t x _ seq fail s =>
    match x.run with
    | some r => if seq = x.seq && r.kind = 2 && !r.draining then s.gopDrain t x { r with gone := r.gone || fail } else s
    | none => s

def onDrained (s : State) (p : Packet) : State :=
  s.gopPacket p false fun t x _ seq fail s =>
    match x.run with
    | some r =>
      if seq = x.seq then
        (s.setTree t { x with run := some { r with drained := r.drained ++ [p.src.toNat], fail := r.fail || fail } }).gopDrained t false
      else s
    | none => s

/-- RESUME from the parent. The packet has no field for the time the root stamped: T_snap is free here.
[DESIGN CHOICE, log 98] -/
def onResume (s : State) (p : Packet) : State :=
  s.gopPacket p true fun t x _ seq fail s =>
    match x.run with
    | some r =>
      if seq = x.seq && r.kind = 2 then
        let k := s.fresh
        let s : State := { s with fresh := k + 1 }
        s.gopResume t x { r with fail := r.fail || fail } (Config.freeW64 k).toNat
      else s
    | none => s

/-! ## Limits (R371, R372) -/

/-- ⌈log₁₆ n⌉. -/
def log16 (n : Nat) : Nat := if n ≤ 1 then 0 else if n ≤ 16 then 1 else if n ≤ 256 then 2 else if n ≤ 4096 then 3 else 4

/-- The drain limit of a member, in cycles; the number of members is the fabric manager's. -/
def drainLimit (s : State) (t : Nat) : Nat := 48000 - 3840 * log16 (SMap.getD s.env.tree t 1)

def drainExpiry (s : State) (t : Nat) : State :=
  match (s.tree? t).bind (·.run) with
  | some r => if r.draining && !r.sentDrained && r.drainAt + s.drainLimit t ≤ s.now then s.gopDrained t true else s
  | none => s

def gopTimeout (s : State) (t : Nat) : State :=
  match s.tree? t with
  | some x =>
    match x.run with
    | some r =>
      match r.tmoAt with
      | some d => if d ≤ s.now then s.gopEnd t x r St.timeout 0 else s
      | none => s
    | none => s
  | none => s

/-- A neighbour has left the member table: the operation ends here with `ST_DEPARTED` and is passed on to the others.
[DEDUCED, log 99] -/
def gopDeparted (s : State) (t dev : Nat) : State :=
  match s.tree? t with
  | none => s
  | some x =>
    match x.run with
    | none => s
    | some r =>
      if x.parent != dev && !x.children.contains dev then s else
      let st := r.st
      let r := { r with st := none, gone := true, arrived := r.arrived ++ [dev], drained := r.drained ++ [dev] }
      let x := { x with run := some r }
      let s := (s.setTree t x).tellStream st St.departed 0
      if x.parent = dev then
        (if r.draining then s.gopResume t x r 0
         else if x.children.all r.arrived.contains then s.gopRelease t x r else s)
      else (s.gopUp t).gopDrained t false

/-! ## Fabric time (R374, R375) -/

/-- A member of T0 other than the root sends T1 to its parent. -/
def timeAsk (s : State) : State :=
  match s.tree? 0 with
  | some x =>
    if x.parent = rootParent || s.fab.devState != 1 then s else
    let t1 := s.ftime.toNat
    let s : State := { s with fab := { s.fab with time := { s.fab.time with t1 := some t1 } } }
    s.sendVl0 x.parent { pktBlank with op := 9, len := 32, data := le 8 t1 ++ zeros 24 }
  | none => s

/-- An exchange has come back: the offset is taken and slewed away. [DEDUCED, log 100] -/
def timeTake (s : State) (t1 : Nat) (d : List Byte) : State :=
  let t4 : Int := s.ftime.toNat
  let t2 : Int := rd d 8 8; let t3 : Int := rd d 0x10 8; let c2 : Int := rd d 0x18 8
  let twice : Int := (t2 - t1) - (t4 - t3 - c2)
  let f := s.fab.time
  let good := if twice.natAbs ≤ 10 then f.good + 1 else 0
  let sync := if 100 < twice.natAbs then false else f.sync || decide (8 ≤ good)
  let offs : Int := max (-32768) (min 32767 (twice.tdiv 2))
  { s with fab := { s.fab with time := { f with
      t1 := none, slew := twice * 30000, good := good, sync := sync, offs := offs, lastOk := s.now } } }

/-- TIME: the parent's answer to our T1, or a child's T1. The parent takes the correction C1 out of T2, so that the field
carries C2 back. [DEDUCED, log 100] -/
def onTime (s : State) (p : Packet) : State :=
  match s.tree? 0 with
  | none => s
  | some x =>
    let src := p.src.toNat
    if s.fab.devState != 1 || p.dst.toNat != s.fab.devnum || p.data.length != 32 then s
    else if x.parent = src then
      match s.fab.time.t1 with
      | some t1 => if rd p.data 0 8 = t1 then s.timeTake t1 p.data else s
      | none => s
    else if x.children.contains src then
      let now := s.ftime.toNat
      s.sendVl0 src { pktBlank with
        op := 9, len := 32, data := p.data.take 8 ++ le 8 (now + 2 ^ 64 - rd p.data 0x18 8) ++ le 8 now ++ zeros 8 }
    else s

def syncLost (s : State) : State :=
  let f := s.fab.time
  if f.lastOk + 10 * msCycles ≤ s.now then { s with fab := { s.fab with time := { f with sync := false, good := 0 } } } else s

/-- LEAVE_POINT: no request has arrived for one fabric timeout (R377). [DEDUCED, log 152] -/
def leavePoint (s : State) : State :=
  if s.fab.devState = 2 && s.fab.leaving.isNone && s.fab.lastReq + s.fab.tmoUs * 2400 ≤ s.now then
    { s with fab := { s.fab with leaving := some s.now } }
  else s

/-! ## The GOP step of a stream (R412) -/

def gopCheck (_ : State) (_ : Stream) (d : List Byte) : Bool :=
  rd d 0x10 1 < 8 && rd d 0x11 1 < 3 && rd d 0x12 2 == 0 && rd d 0x20 8 % 64 == 0 && gvalid (rd d 0x20 8) && tailZero d 0x28

/-- `aux` is 1 once the operation has started. -/
def gopPiece (s : State) (st : Nat) : State :=
  match s.running? st with
  | none => s
  | some (x, r) =>
    if r.aux = 1 then s else
    let d := r.desc
    let t := rd d 0x10 1; let kind := rd d 0x11 1
    let start (s : State) (data : List Byte) : State :=
      if !s.gopFree t then s.finish st St.badState else
      (s.modRun st fun r => { r with aux := 1 }).gopStart t kind (rd d 0x14 4) (some st) data (BitVec.ofNat 64 (rd d 0x20 8))
    let root := match s.tree? t with | some y => y.parent == rootParent | none => false
    if kind = 1 && root then
      s.withData st (classVl x.cls) [(rd d 0x18 8, 64)] fun s e bs =>
        if e != St.ok then s.finish st e else if bs.any (·.2) then s.finish st St.poisoned
        else start s (bs.map (·.1))
    else start s []

end State

def execGop (st : Nat) (s : State) : Host.Outcome State Fault Refusal :=
  .next (s.streamRow st 0x10 State.gopCheck nothing State.gopPiece)
def execGopArrive (link : Nat) (p : Packet) (s : State) : Host.Outcome State Fault Refusal :=
  .next (s.unanswered link { p with op := 8 } fun s => s.onArrive p)
def execGopRelease (link : Nat) (p : Packet) (s : State) : Host.Outcome State Fault Refusal :=
  .next (s.unanswered link { p with op := 8 } fun s => s.onRelease p)
def execGopDrain (link : Nat) (p : Packet) (s : State) : Host.Outcome State Fault Refusal :=
  .next (s.unanswered link { p with op := 8 } fun s => s.onDrain p)
def execGopDrained (link : Nat) (p : Packet) (s : State) : Host.Outcome State Fault Refusal :=
  .next (s.unanswered link { p with op := 8 } fun s => s.onDrained p)
def execGopResume (link : Nat) (p : Packet) (s : State) : Host.Outcome State Fault Refusal :=
  .next (s.unanswered link { p with op := 8 } fun s => s.onResume p)
def execSnapshotDrainLimit (t : Nat) (s : State) : Host.Outcome State Fault Refusal := .next (s.drainExpiry t)
def execGlobalOperationTimeout (t : Nat) (s : State) : Host.Outcome State Fault Refusal := .next (s.gopTimeout t)
def execTimePacket (link : Nat) (p : Packet) (s : State) : Host.Outcome State Fault Refusal :=
  .next (s.unanswered link { p with op := 9 } fun s => s.onTime p)
def execTimeExchange (s : State) : Host.Outcome State Fault Refusal := .next s.timeAsk
def execSyncLoss (s : State) : Host.Outcome State Fault Refusal := .next s.syncLost
def execLeavePoint (s : State) : Host.Outcome State Fault Refusal := .next s.leavePoint

end Sys2Proof.Machine
end

