-- ==== Sys2Proof/Machine/Steps.lean ====
section
/-! DEFINITION. Sys2Proof/Machine/Steps.lean: step programs (R409 to R411), phase timers (R413 to R415) and the training-service
commands (R387, R395, R404, R416, R417). -/

namespace Sys2Proof.Machine

namespace State

/-! ## Phase timers (R413 to R415) -/

def phId (s : State) (n : Nat) : PhId := SMap.getD s.tr.phids n ⟨none, none, 1, 0⟩
def setPhId (s : State) (n : Nat) (x : PhId) : State := { s with tr := { s.tr with phids := SMap.put s.tr.phids n x } }

/-- Records between tail and head. -/
def logCount (t : Training) : Nat := (t.logHead + 2 ^ t.log2n - t.logTail) % 2 ^ t.log2n

/-- Write a record at the head, or discard it when the ring is full. [DEDUCED, log 75] -/
def logRecord (s : State) (bs : List Byte) : State :=
  let t := s.tr
  if lpEnd ≤ t.logBase || logCount t + 1 = 2 ^ t.log2n then
    { s with tr := { t with drop := t.drop + 1, evtFull := true } }
  else
    let s := (s.devWrite (t.logBase + 32 * t.logHead) bs).2
    { s with tr := { t with logHead := (t.logHead + 1) % 2 ^ t.log2n } }

/-- The 32 bytes of a record; a time of which no stamp was combined is free. [DEDUCED, log 115] -/
def recordBytes (s : State) (phid flags : Nat) (r : PhRec) : List Byte :=
  let t (n : Nat) (v : W64) (k : Nat) : List Byte := le 8 (if n = 0 then Config.freeW64 (s.fresh + k) else v).toNat
  le 1 phid ++ le 1 flags ++ le 2 r.nend ++ le 4 r.step.toNat ++ t r.nbegin r.first 0 ++ t r.nbegin r.lastB 1 ++
  t r.nend r.lastE 2

/-- Log the open record of an identifier. -/
def closeRecord (s : State) (phid : Nat) (x : PhId) (r : PhRec) (incomplete : Bool) : State :=
  let bs := s.recordBytes phid ((if incomplete then 1 else 0) + if r.strag then 2 else 0) r
  (({ s with fresh := s.fresh + 3 }).logRecord bs).setPhId phid { x with rcd := none, logged := some r.step }

def PhRec.new (step : W64) : PhRec := ⟨step, 0, 0, 0, 0, 0, false⟩

/-- Combine a begin or end stamp into a record. -/
def PhRec.take (r : PhRec) (t : Stamp) : PhRec :=
  let mx (n : Nat) (a : W64) : W64 := if n = 0 || a.toNat < t.time.toNat then t.time else a
  if t.edge = 0 then
    { r with nbegin := r.nbegin + 1, lastB := mx r.nbegin r.lastB,
             first := if r.nbegin = 0 || t.time.toNat < r.first.toNat then t.time else r.first }
  else { r with nend := r.nend + 1, lastE := mx r.nend r.lastE }

def stampLate (s : State) : State := { s with tr := { s.tr with late := s.tr.late + 1 } }

/-- A stamp for a record that is open now. -/
def stampInto (s : State) (t : Stamp) (r : PhRec) : State :=
  let x := s.phId t.phid
  let r := PhRec.take r t
  if x.expect ≤ r.nend then s.closeRecord t.phid x r false else s.setPhId t.phid { x with rcd := some r }

/-- A stamp reaches the block. -/
def applyStamp (s : State) (t : Stamp) : State :=
  let x := s.phId t.phid
  if t.edge = 2 then
    let bs := s.recordBytes t.phid 4 ⟨t.step, 0, 0, 0, 0, 0, false⟩
    ({ s with fresh := s.fresh + 3 }).logRecord (patch bs 8 (le 8 t.time.toNat))
  else
    match x.rcd with
    | some r =>
      if t.step.toNat < r.step.toNat then s.stampLate
      else if t.step = r.step then s.stampInto t r
      else (s.closeRecord t.phid x r true).stampInto t (PhRec.new t.step)
    | none =>
      match x.logged with
      | some l => if t.step.toNat ≤ l.toNat then s.stampLate else s.stampInto t (PhRec.new t.step)
      | none => s.stampInto t (PhRec.new t.step)

/-- PHASE_STAMP: the `ix`-th stamp under way arrives. -/
def phaseStamp (s : State) (ix : Nat) : State :=
  match s.tr.stamps[ix]? with
  | some t => { s with tr := { s.tr with stamps := s.tr.stamps.eraseIdx ix } }.applyStamp t
  | none => s

/-- STRAGGLER: fabric time has reached FIRST_BEGIN + THR of an open record. -/
def straggler (s : State) (phid : Nat) : State :=
  let x := s.phId phid
  match x.rcd with
  | some r =>
    if x.thr = 0 || r.nbegin = 0 || r.strag || s.ftime.toNat < r.first.toNat + x.thr.toNat then s else
    let s := s.setPhId phid { x with rcd := some { r with strag := true } }
    ({ s with tr := { s.tr with evtStrag := true, lastPhid := BitVec.ofNat 8 phid, lastStep := r.step.setWidth 24 } }).event 4 0
      (BitVec.ofNat 64 phid) r.step
  | none => s

/-! ## Step programs (R410, R411) -/

def stepProg (s : State) (sp : Nat) : Option StepProg := SMap.get? s.tr.steps sp
def setStep (s : State) (sp : Nat) (x : StepProg) : State := { s with tr := { s.tr with steps := SMap.put s.tr.steps sp x } }

def modStepRun (s : State) (sp : Nat) (g : StepRun → StepRun) : State :=
  match s.stepProg sp with | some x => s.setStep sp { x with run := x.run.map g } | none => s

def modPhase (s : State) (sp ph : Nat) (g : PhaseRun → PhaseRun) : State :=
  s.modStepRun sp fun r => { r with phases := r.phases.zipIdx.map fun p => if p.2 = ph then g p.1 else p.1 }

/-- Firmware's own stamp. -/
def stampPhase (s : State) (d : PhaseDef) (edge k : Nat) : State :=
  if d.phid = 0xFF then s else
  { s with tr := { s.tr with stamps := s.tr.stamps ++ [⟨s.fab.devnum, none, d.phid, edge, BitVec.ofNat 64 k, s.ftime⟩] } }

/-- Steps that every phase has completed. -/
def stepsDone (r : StepRun) : Nat := (r.phases.map fun p => p.next - r.first).foldl min (2 ^ 64)

/-- The run ends when nothing of it runs and nothing of it is to start. [DEDUCED, log 113] -/
def stepEnd (s : State) (sp : Nat) : State :=
  match s.stepProg sp with
  | some x =>
    match x.run with
    | some r =>
      let ovr := match r.bound with | some b => r.phases.all fun p => decide (b ≤ p.next) | none => false
      if r.phases.any (·.live) || !(r.fail.isSome || ovr) then s else
      let (status, value) := match r.fail with
        | some (e, ph, k) => (e, if ph < 16 then ph + k % 2 ^ 56 * 256 else 0)
        | none => (St.ok, 0)
      (s.setStep sp { x with run := none }).longDone r.st status value (stepsDone r)
    | none => s
  | none => s

/-- A phase fails: no phase starts any more; the first failure counts. -/
def phaseFail (s : State) (sp ph k status : Nat) : State :=
  ((s.modStepRun sp fun r => { r with fail := r.fail.or (some (status, ph, k)) }).modPhase sp ph fun p =>
    { p with live := false }).stepEnd sp

/-- May phase `ph` of a run start its next step? -/
def phaseReady (x : StepProg) (r : StepRun) (ph : Nat) : Bool :=
  match x.phases[ph]?, r.phases[ph]? with
  | some d, some p =>
    let k := p.next
    let next (j : Nat) : Nat := (r.phases[j]?.map (·.next)).getD 0
    !p.live && r.fail.isNone && (match r.bound with | some b => decide (k < b) | none => true) &&
    (List.range 16).all fun j =>
      (!d.dep.getLsbD j || decide (k < next j)) && (!d.pdep.getLsbD j || decide (k ≤ r.first) || decide (k ≤ next j))
  | _, _ => false

/-- Post what fits of a stream phase's descriptors. -/
def postPhase : Nat → State → Nat → Nat → Nat → State
  | 0, s, _, _, _ => s
  | n + 1, s, sp, ph, st =>
    match ((s.stepProg sp).bind (·.run)).bind fun r => r.phases[ph]? with
    | some p =>
      match p.todo, s.stream? st with
      | some (d :: rest), some y =>
        if y.stopped || !hasRoom y then s else
        postPhase n ((s.post st ⟨d, 0, 0⟩).modPhase sp ph fun p => { p with todo := some rest }) sp ph st
      | _, _ => s
    | none => s

/-- A stream phase goes on: its list is read, and then its descriptors are posted in order. [DEDUCED, log 114] -/
def phaseFeed (s : State) (sp ph : Nat) : State :=
  match s.stepProg sp with
  | none => s
  | some x =>
    match x.phases[ph]?, x.run.bind fun r => r.phases[ph]? with
    | some d, some p =>
      if d.kind != 1 || !p.live then s else
      match p.todo with
      | some l => postPhase l.length s sp ph d.stream
      | none =>
        let key := FetchKey.phase sp ph
        match s.fetch? key with
        | some f =>
          if f.missing != 0 then s else
          let s := s.dropFetch key
          if f.status != St.ok then s.phaseFail sp ph p.next f.status
          else if !f.pois.isEmpty then s.phaseFail sp ph p.next St.poisoned
          else
            let l := chunks 64 d.count ((f.data 0 (64 * d.count)).map (·.1))
            postPhase d.count (s.modPhase sp ph fun p => { p with todo := some l }) sp ph d.stream
        | none => s
    | _, _ => s

/-- PHASE_START. [DEDUCED, log 113] -/
def phaseStart (s : State) (sp ph : Nat) : State :=
  match s.stepProg sp with
  | none => s
  | some x =>
    match x.run, x.phases[ph]? with
    | some r, some d =>
      if !phaseReady x r ph || (List.range ph).any (phaseReady x r) then s else
      let k := ((r.phases[ph]?).map (·.next)).getD 0
      let s := (s.modPhase sp ph fun p => { p with live := true, since := s.now, todo := none, res := none }).stampPhase d 0 k
      match d.kind with
      | 0 =>
        match s.prog d.handle with
        | some p =>
          if [2, 5, 6, 7].contains p.st && s.placeStands p then s.startProg d.handle p (BitVec.ofNat 64 k)
          else s.phaseFail sp ph k St.badState
        | none => s.phaseFail sp ph k St.badField
      | 1 =>
        match s.stream? d.stream with
        | some y =>
          if y.owner != Owner.partner r.port || y.stopped || y.long.isSome then s.phaseFail sp ph k St.badState
          else (s.fetchNew (.phase sp ph) [(d.list, 64 * d.count)] 3 none).phaseFeed sp ph
        | none => s.phaseFail sp ph k St.badField
      | _ =>
        if s.gopFree d.tree then s.gopStart d.tree d.gkind 0 (some (phaseStream sp ph)) [] 0
        else s.phaseFail sp ph k St.badState
    | _, _ => s

/-- The work of a phase has completed. -/
def phaseDone (s : State) (sp ph k : Nat) (d : PhaseDef) : State :=
  ((s.stampPhase d 1 k).modPhase sp ph fun p => { p with live := false, next := p.next + 1 }).stepEnd sp

/-- PHASE_COMPLETE: the phase's work has ended, well or badly. The status of a faulted program is not stated.
[DEDUCED, log 112] -/
def phaseComplete (s : State) (sp ph : Nat) : State :=
  let s := s.phaseFeed sp ph
  match s.stepProg sp with
  | none => s
  | some x =>
    match x.phases[ph]?, x.run.bind fun r => r.phases[ph]? with
    | some d, some p =>
      let k := p.next
      if !p.live then s else
      match d.kind with
      | 0 =>
        match s.prog d.handle with
        | some q =>
          if q.st = 5 then s.phaseDone sp ph k d
          else if q.st = 7 then s.phaseFail sp ph k St.aborted
          else if q.st = 6 then
            ({ s with fresh := s.fresh + 1 }).phaseFail sp ph k (Config.freeNat s.fresh % 65536)
          else s
        | none => s.phaseFail sp ph k St.badField
      | 1 =>
        match s.stream? d.stream with
        | some y =>
          if y.stopped then s.phaseFail sp ph k y.last
          else if p.todo == some [] && Stream.idle y then s.phaseDone sp ph k d else s
        | none => s.phaseFail sp ph k St.aborted
      | _ =>
        match p.res with
        | some e => if e = St.ok then s.phaseDone sp ph k d else s.phaseFail sp ph k e
        | none => s
    | _, _ => s

/-- Abort or cancel what a phase runs. -/
def phaseKill (s : State) (sp ph : Nat) (d : PhaseDef) : State :=
  match d.kind with
  | 0 => s.stopProgram d.handle 7
  | 1 => (s.cancelAny d.stream).dropFetch (.phase sp ph)
  | _ => s.detach (phaseStream sp ph)

/-- PHASE_TIMEOUT. [DEDUCED, log 112] -/
def phaseTimeout (s : State) (sp ph : Nat) : State :=
  let s := s.phaseComplete sp ph
  match s.stepProg sp with
  | none => s
  | some x =>
    match x.phases[ph]?, x.run.bind fun r => r.phases[ph]? with
    | some d, some p =>
      if !p.live || d.tmo = 0 || s.now < p.since + d.tmo * 2400 then s
      else (s.phaseKill sp ph d).phaseFail sp ph p.next St.timeout
    | _, _ => s

/-- CMD_TS_STEP_STOP with MODE 0: the steps that have begun are the last. -/
def stepStop (s : State) (sp : Nat) : State :=
  (s.modStepRun sp fun r =>
    let top := (r.phases.map fun p => if p.live then p.next + 1 else p.next).foldl max r.first
    { r with bound := some (match r.bound with | some b => min b top | none => top) }).stepEnd sp

/-- MODE 1: every running phase is stopped, and the run completes with `ST_ABORTED`. -/
def stepAbort (s : State) (sp : Nat) : State :=
  match s.stepProg sp with
  | some x =>
    match x.run with
    | some r =>
      let s := (x.phases.zipIdx.filter fun d => ((r.phases[d.2]?).map (·.live)).getD false).foldl
        (fun s d => s.phaseKill sp d.2 d.1) s
      (s.modStepRun sp fun r => { r with
        fail := some (St.aborted, 16, 0), phases := r.phases.map fun p => { p with live := false } }).stepEnd sp
    | none => s
  | none => s

end State

def execPhaseStart (sp ph : Nat) (s : State) : Host.Outcome State Fault Refusal := .next (s.phaseStart sp ph)
def execPhaseComplete (sp ph : Nat) (s : State) : Host.Outcome State Fault Refusal := .next (s.phaseComplete sp ph)
def execPhaseTimeout (sp ph : Nat) (s : State) : Host.Outcome State Fault Refusal := .next (s.phaseTimeout sp ph)
def execPhaseStamp (ix : Nat) (s : State) : Host.Outcome State Fault Refusal := .next (s.phaseStamp ix)
def execStraggler (phid : Nat) (s : State) : Host.Outcome State Fault Refusal := .next (s.straggler phid)

/-! ## Commands -/

def tsBoxes : List Port := [.host, .svc]
def tsFmBoxes : List Port := [.host, .fm, .svc]

/-- Is a range one of LPDDR5X available to programs, 2^`al` aligned? -/
def lpArea (a n al : Nat) : Bool := a % al == 0 && decide (a + n ≤ lpEnd)

/-- The ring of a payload whose list has been read. -/
def ringOf (p : List Byte) (devs : List Nat) : Ring :=
  { n := rd p 2 2, pos := rd p 4 2, rtmo := if rd p 6 2 = 0 then 100 else rd p 6 2, devs := devs, inbox := rd p 0x10 8,
    sentSeq := 0, rxSeq := 0, order := 0, queue := [], cur := none, lastOk := 0 }

/-- INBOX lies in LPDDR5X or in one deck slice (R395). -/
def State.inboxOk (s : State) (a : Nat) : Bool :=
  a % 4096 == 0 && (decide (a + 197184 ≤ lpEnd) ||
    match place a with | .deck c off => s.inMap c && decide (off + 197184 ≤ s.deckOpen) | _ => false)

def tsRing : Cmd :=
  { op := 0x0600, boxes := tsFmBoxes, len := 0x18, launch := false, trim := fun _ => false,
    check := fun m =>
      let p := pay m
      [(0, decide (rd p 0 1 < 16)), (1, decide (rd p 1 1 < 2))] ++
      if rd p 1 1 = 0 then [] else
      [(2, decide (1 ≤ rd p 2 2) && decide (rd p 2 2 ≤ 8192)), (4, decide (rd p 4 2 < rd p 2 2)), (6, decide (rd p 6 2 ≤ 10000)),
       (8, gvalid (rd p 8 8))],
    run := fun m s =>
      let p := pay m
      if rd p 1 1 = 0 then s.stage m.port (.ring (rd p 0 1) none)
      else if !s.inboxOk (rd p 0x10 8) then (.bad 0x10, s)
      else s.withMbxData m.port [(rd p 8 8, 2 * rd p 2 2)] fun s e bs =>
        if e != St.ok then (.refuse e, s)
        else if bs.any (·.2) then (.refuse St.poisoned, s)
        else
          let devs := (List.range (rd p 2 2)).map fun k => rd (bs.map (·.1)) (2 * k) 2
          if devs.any (8192 ≤ ·) || devs.eraseDups.length != devs.length || devs[rd p 4 2]? != some s.fab.devnum then (.bad 8, s)
          else s.stage m.port (.ring (rd p 0 1) (some (ringOf p devs))) }

/-- The bucket of a payload, over a ring of `n` members. -/
def bucketOf (p : List Byte) (n : Nat) : BucketDef :=
  let lg := if rd p 4 1 = 0 then 25 else rd p 4 1
  let fl := rd p 7 1
  { ring := rd p 3 1, n := n, log2sz := lg, gfmt := (Fmt.ofCode (rd p 5 1)).getD .fp32, dens := rd p 6 1, auto := fl.testBit 0,
    norm := fl.testBit 1, resid := fl.testBit 2, ew := rdS p 8 2, valid := if rd p 0xC 4 = 0 then 2 ^ lg else rd p 0xC 4,
    grad := rd p 0x10 8, residual := rd p 0x18 8, result := rd p 0x20 8, xreg := rd p 0x28 8, spans := BitVec.ofNat 64 (rd p 0x30 8),
    nspan := rd p 0x38 2, donef := BitVec.ofNat 32 (rd p 0x3C 4), bres := rd p 0x40 8 }

/-- The members of ring `r`, as staged by this partner or as committed. -/
def State.ringN (s : State) (p : Port) (r : Nat) : Option Nat :=
  match (s.box p).stage.findSome? fun x => match x with | .ring k d => if k = r then some d else none | _ => none with
  | some (some d) => some d.n
  | some none => none
  | none => (s.ring? r).map (·.n)

def bucketChecks (s : State) (p : List Byte) (d : BucketDef) : List (Nat × Bool) :=
  let es := d.gfmt.bytes
  let rs := d.dens != 0 || d.resid
  [(4, decide (22 ≤ d.log2sz) && decide (d.log2sz ≤ 28)), (5, [some Fmt.fp32, some Fmt.bf16].contains (Fmt.ofCode (rd p 5 1))),
   (6, d.dens == 0 || (decide (2 ≤ d.dens) && decide (d.dens ≤ 10))), (7, decide (rd p 7 1 < 8) && !(d.resid && d.dens != 0)),
   (8, decide (-256 ≤ d.ew) && decide (d.ew ≤ 127)), (0xA, rd p 0xA 2 == 0),
   (0xC, d.valid % es == 0 && decide (1 ≤ d.valid) && decide (d.valid ≤ 2 ^ d.log2sz)),
   (0x10, lpArea d.grad d.valid 4096), (0x18, if rs then lpArea d.residual (4 * d.elems) 64 else d.residual == 0),
   (0x20, lpArea d.result (4 * d.lmax) 64), (0x28, if d.dens = 0 then d.xreg == 0 else lpArea d.xreg (48 * d.lmax + 8 * d.n) 64),
   (0x30, !d.norm || gvalid d.spans.toNat),
   (0x38, if d.norm then decide (1 ≤ d.nspan) && decide (d.nspan ≤ 64) else d.nspan == 0), (0x3A, rd p 0x3A 2 == 0),
   (0x3C, !bitOf d.donef 31 || (fld d.donef 30 24 == 0 && s.inMap (fld d.donef 23 12))),
   (0x40, d.bres == 0 || lpArea d.bres 16 16)]

def tsBucket : Cmd :=
  { op := 0x0601, boxes := tsBoxes, len := 0x48, launch := false, trim := fun _ => false,
    check := fun m => [(0, decide (rd (pay m) 0 2 < 256)), (2, decide (rd (pay m) 2 1 < 2))],
    run := fun m s =>
      let p := pay m
      let b := rd p 0 2
      if rd p 2 1 = 0 then s.stage m.port (.bucket b none) else
      match s.ringN m.port (rd p 3 1) with
      | none => (.bad 3, s)
      | some n =>
        let d := bucketOf p n
        match (bucketChecks s p d).find? fun c => !c.2 with
        | some c => (.bad c.1, s)
        | none => s.stage m.port (.bucket b (some d)) }

def normsOf (p : List Byte) : NormCfg :=
  { ring := rd p 1 1, ng := rd p 2 2, home := rd p 4 2, en := rdS p 6 2, loc := rd p 8 8, homereg := rd p 0x10 8,
    maxn := rd p 0x18 8, clip := rd p 0x20 8 }

/-- [DEDUCED, log 116] -/
def tsNorms : Cmd :=
  { op := 0x0602, boxes := tsBoxes, len := 0x28, launch := false, trim := fun _ => false,
    check := fun m =>
      let p := pay m
      [(0, decide (rd p 0 1 < 2))] ++ if rd p 0 1 = 0 then [] else
      [(1, decide (rd p 1 1 < 16)), (2, decide (1 ≤ rd p 2 2) && decide (rd p 2 2 ≤ 1024)), (4, decide (rd p 4 2 < 8192)),
       (6, decide (-256 ≤ rdS p 6 2) && decide (rdS p 6 2 ≤ 127))],
    run := fun m s =>
      let p := pay m
      if rd p 0 1 = 0 then s.stage m.port (.norms none) else
      let c := normsOf p
      let home := c.home == s.fab.devnum
      if (s.ringN m.port c.ring).isNone then (.bad 1, s)
      else if !home && c.homereg != 0 then (.bad 0x10, s)
      else if (home && s.site c.maxn (4 * c.ng) = .no) || (!home && c.maxn != 0) then (.bad 0x18, s)
      else if s.site c.clip (64 + 4 * c.ng) = .no then (.bad 0x20, s)
      else s.stage m.port (.norms (some c)) }

/-- A phase entry (R409). -/
def phaseOf (e : List Byte) : PhaseDef :=
  { kind := rd e 0 1, role := rd e 1 1, phid := rd e 2 1, tree := rd e 3 1, dep := BitVec.ofNat 16 (rd e 4 2),
    pdep := BitVec.ofNat 16 (rd e 6 2), handle := rd e 8 2, gkind := rd e 0xA 1, stream := rd e 0xC 4, list := rd e 0x10 8,
    count := rd e 0x18 4, tmo := rd e 0x1C 4 }

/-- An entry keeps its rules. -/
def phaseOk (s : State) (port : Port) (i nph : Nat) (e : List Byte) : Bool :=
  let d := phaseOf e
  decide (d.kind < 3) && decide (d.role < 9) && rd e 0xB 1 == 0 && decide (d.dep.toNat < 2 ^ i) && decide (d.pdep.toNat < 2 ^ nph) &&
  match d.kind with
  | 0 => match s.prog d.handle with | some p => [2, 5, 6, 7].contains p.st | none => false
  | 1 => decide (1 ≤ d.count) && decide (d.count ≤ 65536) && gvalid (d.list + 64 * d.count) &&
      match s.stream? d.stream with | some y => y.owner == Owner.partner port && y.long.isNone | none => false
  | _ => decide (d.tree < 8) && (d.gkind == 0 || d.gkind == 2)

/-- [DEDUCED, log 114] -/
def tsStep : Cmd :=
  { op := 0x0603, boxes := tsBoxes, len := 0x10, launch := false, trim := fun _ => false,
    check := fun m =>
      let p := pay m
      [(0, decide (rd p 0 1 < 4)), (1, decide (rd p 1 1 < 2))] ++
      (if rd p 1 1 = 1 then [(2, decide (1 ≤ rd p 2 1) && decide (rd p 2 1 ≤ 16))] else []) ++ [zeroAt m 3 5] ++
      if rd p 1 1 = 1 then [(8, gvalid (rd p 8 8))] else [],
    run := fun m s =>
      let p := pay m
      let sp := rd p 0 1
      let busy := match s.stepProg sp with | some x => x.run.isSome | none => false
      if busy then (.refuse St.badState, s)
      else if rd p 1 1 = 0 then (.ok, { s with tr := { s.tr with steps := SMap.del s.tr.steps sp } })
      else s.withMbxData m.port [(rd p 8 8, 32 * rd p 2 1)] fun s e bs =>
        if e != St.ok then (.refuse e, s)
        else if bs.any (·.2) then (.refuse St.poisoned, s)
        else
          let es := chunks 32 (rd p 2 1) (bs.map (·.1))
          if es.zipIdx.all fun e => phaseOk s m.port e.2 (rd p 2 1) e.1 then (.ok, s.setStep sp ⟨es.map phaseOf, none⟩)
          else (.bad 8, s) }

def tsStepRun : Cmd :=
  { op := 0x0604, boxes := tsBoxes, len := 0x18, launch := true, trim := fun _ => true,
    check := fun m =>
      let p := pay m
      [(0, decide (rd p 0 1 < 4)), zeroAt m 1 3, (0x10, resultOk (rd p 0x10 8))],
    run := fun m s =>
      let p := pay m
      let sp := rd p 0 1; let n := rd p 4 4; let first := rd p 8 8
      match s.stepProg sp with
      | none => (.refuse St.badState, s)
      | some x =>
        let placed := x.phases.all fun d => d.kind != 0 || match s.prog d.handle with | some q => s.placeStands q | none => false
        if x.run.isSome || !placed then (.refuse St.badState, s) else
        let go (st : Nat) : StepRun :=
          { st := st, port := m.port, first := first, bound := if n = 0 then none else some (first + n)
            phases := x.phases.map (fun _ => ⟨first, false, 0, none, none⟩), fail := none }
        match s.beginLong m 0x0604 (rd p 0x10 8) (.stepRun sp) with
        | some (st, s) => (.accepted st, s.setStep sp { x with run := some (go st) })
        | none => (.refuse St.badState, s) }

def tsStepStop : Cmd :=
  { op := 0x0605, boxes := tsFmBoxes, len := 2, launch := false, trim := fun _ => false,
    check := fun m => [(0, decide (rd (pay m) 0 1 < 4)), (1, decide (rd (pay m) 1 1 < 2))],
    run := fun m s =>
      let sp := rd (pay m) 0 1
      match (s.stepProg sp).bind (·.run) with
      | none => (.refuse St.badState, s)
      | some _ => (.ok, if rd (pay m) 1 1 = 0 then s.stepStop sp else s.stepAbort sp) }

def tsPhase : Cmd :=
  { op := 0x0606, boxes := tsFmBoxes, len := 0x10, launch := false, trim := fun _ => false,
    check := fun m =>
      let p := pay m
      [(0, decide (rd p 0 1 < 2)), zeroAt m 1 1] ++
      if rd p 0 1 = 0 then
        [(2, decide (rd p 2 2 < 256)), (4, decide (1 ≤ rd p 4 2) && decide (rd p 4 2 ≤ 3073))]
      else [zeroAt m 2 6, (8, rd p 8 8 % 4096 == 0 && decide (rd p 8 8 + 32 * 2 ^ rd p 0x10 1 ≤ lpEnd)),
            (0x10, decide (6 ≤ rd p 0x10 1) && decide (rd p 0x10 1 ≤ 20))],
    run := fun m s =>
      let p := pay m
      if rd p 0 1 = 0 then s.stage m.port (.phase (rd p 2 2) (rd p 4 2) (BitVec.ofNat 64 (rd p 8 8)))
      else s.stage m.port (.phlog (rd p 8 8) (rd p 0x10 1)) }

def tsPhlog : Cmd :=
  { op := 0x0607, boxes := tsFmBoxes, len := 0, launch := false, trim := fun _ => false, check := fun _ => [],
    run := fun _ s =>
      let t := s.tr
      let n := min 6 (State.logCount t)
      let recs := (List.range n).flatMap fun i => s.read (t.logBase + 32 * ((t.logTail + i) % 2 ^ t.log2n)) 32
      (.ok (le 1 n ++ le 1 ((if t.evtStrag then 1 else 0) + if t.evtFull then 2 else 0) ++ zeros 6 ++ recs),
       { s with tr := { t with logTail := (t.logTail + n) % 2 ^ t.log2n, evtStrag := false, evtFull := false } }) }

/-- STATE of CMD_TS_STATUS. [DEDUCED, log 117] -/
def bucketState (b : Bucket) : Nat :=
  if b.run.isSome then 4 else if b.go.isSome then 3 else if b.full || b.fill != 0 then 2 else 1

def tsStatus : Cmd :=
  { op := 0x0608, boxes := allPorts, len := 2, launch := false, trim := fun _ => false,
    check := fun m => [(0, decide (rd (pay m) 0 2 < 256))],
    run := fun m s =>
      match s.bucket? (rd (pay m) 0 2) with
      | none => (.ok (zeros 0x18), s)
      | some b =>
        (.ok (le 1 (bucketState b) ++ le 1 b.lastPath ++ le 2 b.lastStatus ++ le 4 (State.Bucket.completed b) ++ le 4 b.fill ++
          le 4 b.lastSide ++ le 8 b.lastSent.toNat), s) }

def execCmdTsRing (m : MbxCmd) (s : State) : Host.Outcome State Fault Refusal := .next (s.issueCmd tsRing m)
def execCmdTsBucket (m : MbxCmd) (s : State) : Host.Outcome State Fault Refusal := .next (s.issueCmd tsBucket m)
def execCmdTsNorms (m : MbxCmd) (s : State) : Host.Outcome State Fault Refusal := .next (s.issueCmd tsNorms m)
def execCmdTsStep (m : MbxCmd) (s : State) : Host.Outcome State Fault Refusal := .next (s.issueCmd tsStep m)
def execCmdTsStepRun (m : MbxCmd) (s : State) : Host.Outcome State Fault Refusal := .next (s.issueCmd tsStepRun m)
def execCmdTsStepStop (m : MbxCmd) (s : State) : Host.Outcome State Fault Refusal := .next (s.issueCmd tsStepStop m)
def execCmdTsPhase (m : MbxCmd) (s : State) : Host.Outcome State Fault Refusal := .next (s.issueCmd tsPhase m)
def execCmdTsPhlog (m : MbxCmd) (s : State) : Host.Outcome State Fault Refusal := .next (s.issueCmd tsPhlog m)
def execCmdTsStatus (m : MbxCmd) (s : State) : Host.Outcome State Fault Refusal := .next (s.issueCmd tsStatus m)

end Sys2Proof.Machine
end

