-- ==== Sys2Proof/Machine/Windows.lean ====
section
/-! DEFINITION. Sys2Proof/Machine/Windows.lean: what the host does through BAR2 and BAR4, and how each access ends (R422 to R436). -/

namespace Sys2Proof.Machine

/-- Sizes of BAR0, BAR2 and BAR4 (R421), and the flush page (R431). -/
def bar0Size : Nat := 2 ^ 26
def bar2Size : Nat := 2 ^ 28
def bar4Size : Nat := 2 ^ 42
def flushPage : Nat := 0x3FFFFFF0000

namespace State

/-! ## Ends of accesses (R424) -/

/-- A host access reaches the port: the device is not idle (R469). -/
def touch (s : State) : State := { s with pw := { s.pw with idleFrom := s.now } }

/-- A read that answers no data: 1 Unsupported Request, 4 Completer Abort. -/
def cplBad (s : State) (id code : Nat) (addr : W64) (status : Nat) : State :=
  let h := s.hp
  let h := if code = 1 then { h with ur := h.ur + 1, err := h.err ||| 1 } else { h with ca := h.ca + 1, err := h.err ||| 2 }
  (({ s with hp := h }).logErr 0x70 7 addr status).emit (.cpl id code [] false)

/-- A read that answers its data. -/
def cplData (s : State) (id : Nat) (bs : List Byte) (pois : Bool) : State :=
  let h := s.hp
  let h := if pois then { h with pois := h.pois + 1, err := h.err ||| 8 } else h
  ({ s with hp := h }).emit (.cpl id 0 bs pois)

/-- A posted write that is discarded. -/
def wrDisc (s : State) : State :=
  { s with hp := { s.hp with disc := s.hp.disc + 1, err := s.hp.err ||| 4 } }

/-- A violation of BAR4: bit 0 NOREG, 1 PERM. -/
def violate (s : State) (bit off : Nat) (rid : BitVec 16) : State :=
  { s with hp := { s.hp with viol := s.hp.viol ||| BitVec.ofNat 3 (2 ^ bit), vaddr := BitVec.ofNat 64 off, vrid := rid } }

/-- `PZ_ERR.FAIL` or `RG_VIOL.FAIL`, by window. -/
def winFail (s : State) (w : Win) : State :=
  match w with
  | .plaza => { s with hp := { s.hp with pzFail := true } }
  | .region _ => { s with hp := { s.hp with viol := s.hp.viol ||| 4 } }

/-! ## Posted writes on their way (R431 to R433) -/

def posts (s : State) (w : Win) : Posts :=
  match w with | .plaza => s.hp.pz | .region n => SMap.getD s.hp.rgPosts n Posts.none

def setPosts (s : State) (w : Win) (p : Posts) : State :=
  match w with
  | .plaza => { s with hp := { s.hp with pz := p } }
  | .region n => { s with hp := { s.hp with rgPosts := SMap.setD s.hp.rgPosts n Posts.none p } }

/-- A posted write `id` has failed: the flush reads that wait for it say so, or the next one. [DEDUCED, log 120] -/
def postFailed (s : State) (w : Win) (id : Nat) : State :=
  let waited := s.hp.reqs.any fun r => match r with | .flush _ _ _ ws _ => ws.contains id | _ => false
  let s : State := { s with hp := { s.hp with reqs := s.hp.reqs.map fun r => match r with
    | .flush i w v ws f => .flush i w v ws (f || ws.contains id)
    | r => r } }
  if waited then s else s.setPosts w { s.posts w with fail := true }

/-- A flush read ends. [DEDUCED, log 120] -/
def flushEnd (s : State) (id : Nat) (w : Win) (v : List Byte) (fail : Bool) : State :=
  if fail then (s.winFail w).cplBad id 4 0 0 else s.cplData id v false

/-- A posted write `id` has ended: a flush read that waited for nothing else completes. -/
def postDone (s : State) (w : Win) (id : Nat) : State :=
  let p := s.posts w
  let s := s.setPosts w { p with live := p.live.filter (· != id) }
  let reqs : List HostReq := s.hp.reqs.map fun r => match r with
    | .flush i w v ws f => .flush i w v (ws.filter (· != id)) f
    | r => r
  let ended := fun (r : HostReq) => match r with | .flush _ _ _ [] _ => true | _ => false
  let s : State := { s with hp := { s.hp with reqs := reqs.filter fun r => !ended r } }
  (reqs.filter ended).foldl (fun s r => match r with | .flush i w v _ f => s.flushEnd i w v f | _ => s) s

/-- A flush read of a window. [DEDUCED, log 122] -/
def hostFlush (s : State) (w : Win) (v : List Byte) : State :=
  let (id, s) := s.uid
  let p := s.posts w
  let s := s.setPosts w { p with fail := false }
  let fail := p.fail || s.hp.reqs.any fun r => match r with | .wr _ w' _ bad => w' == w && bad | _ => false
  if p.live.isEmpty then s.flushEnd id w v fail
  else { s with hp := { s.hp with reqs := s.hp.reqs ++ [.flush id w v p.live fail] } }

/-! ## Service (R28, R424) -/

/-- Is some byte of a range of this device's own space unmapped for a requester (R25)? [DEDUCED, log 121] -/
def unmappedHere (s : State) (g n : Nat) : Bool :=
  gdev g == s.fab.devnum && (pieces (gloc g) n).any fun p => s.site p.1 p.2 == .no

/-- The local address an access names, for the error log; zero on another device. [DEDUCED, log 123] -/
def logAddr (s : State) (g : Nat) : W64 := if gdev g = s.fab.devnum then BitVec.ofNat 64 (gloc g) else 0

/-- A read of `n` bytes at global address `g`. -/
def hostRead (s : State) (w : Win) (g n : Nat) : State :=
  let (id, s) := s.uid
  if s.unmappedHere g n then
    (match w with | .plaza => s.winFail w | .region _ => s).cplBad id 1 (s.logAddr g) 0
  else
    let r := (pieces g n).foldl (fun (a : (SMap Byte × Bool) × (Nat × Nat) × State) p =>
      let (sent, s) := a.2.2.gReadPiece p.1 p.2 3 none (.host id)
      match sent with
      | .data bs => (((bs.zipIdx).foldl (fun m (x : (Byte × Bool) × Nat) => SMap.put m (p.1 + x.2) x.1.1) a.1.1,
                      a.1.2 || bs.any (·.2)), a.2.1, s)
      | .done e => (a.1, (a.2.1.1, if a.2.1.2 = St.ok then stOf e else a.2.1.2), s)
      | .out => (a.1, (a.2.1.1 + 1, a.2.1.2), s)) (([], false), (0, St.ok), s)
    let ((got, pois), (missing, status), s) := r
    if missing = 0 then
      if status = St.ok then s.cplData id (got.map (·.2)) pois
      else (match w with | .plaza => s.winFail w | .region _ => s).cplBad id 4 (s.logAddr g) status
    else { s with hp := { s.hp with reqs := s.hp.reqs ++ [.rd id w n got pois missing status] } }

/-- A posted write `id` fails: it is discarded, `PZ_ERR.FAIL` says so at once, and its flush read will.
[DEDUCED, log 120, 123] -/
def wrFail (s : State) (w : Win) (id : Nat) : State :=
  ((match w with | .plaza => s.winFail w | .region _ => s).wrDisc).postFailed w id

/-- A posted write at global address `g`, which the port accepts. [DEDUCED, log 121] -/
def hostWrite (s : State) (w : Win) (g : Nat) (bs : List Byte) : State :=
  let (id, s) := s.uid
  let (status, missing, s) := s.gWrite g (bs.map fun b => (b, false)) 3 none (.host id)
  let s := if status = St.ok then s else s.wrFail w id
  if missing = 0 then s else
    let p := s.posts w
    let s := s.setPosts w { p with live := p.live ++ [id] }
    { s with hp := { s.hp with reqs := s.hp.reqs ++ [.wr id w missing (status != St.ok)] } }

/-- Does the port take an access of `n` bytes at `off` of a BAR: the link is up, and the size is one PCIe can have (R421)?
[DESIGN CHOICE, log 124] -/
def portTakes (s : State) (off n top most : Nat) : Bool := s.hp.link == 2 && decide (off + n ≤ top) && decide (n ≤ most) && n != 0

/-! ## The Plaza window (R426) -/

def plazaRead (s : State) (off n : Nat) : State :=
  if !s.portTakes off n bar2Size 4096 then s else s.touch.hostRead .plaza (s.hp.pzBase.toNat + off) n

def plazaWrite (s : State) (off : Nat) (bs : List Byte) : State :=
  if !s.portTakes off bs.length bar2Size 512 then s else
  let s := s.touch
  let g := s.hp.pzBase.toNat + off
  if s.unmappedHere g bs.length then
    let (id, s) := s.uid
    s.wrFail .plaza id
  else
    let p := s.posts .plaza
    (s.setPosts .plaza { p with bytes := p.bytes + BitVec.ofNat 64 bs.length }).hostWrite .plaza g bs

/-! ## `PZ_BASE` (R426, R427) -/

def baseOk (v : W64) : Bool := v.toNat % 2 ^ 21 == 0 && decide (v.toNat < 2 ^ 61) && decide (gloc v.toNat ≤ 0xFFFFF0000000)

/-- A base is applied, or ignored. -/
def setBase (s : State) (v : W64) : State :=
  if baseOk v then { s with hp := { s.hp with pzBase := v } } else { s with hp := { s.hp with badbase := true } }

/-- A write of bytes 0 to 3 (`half` 0), of bytes 4 to 7 (1), or of all eight. -/
def writeBase (s : State) (half : Nat) (v : W64) : State :=
  match half with
  | 0 => { s with hp := { s.hp with pzPend := some (v.setWidth 32) } }
  | 1 =>
    let low := match s.hp.pzPend with | some l => l.toNat | none => s.hp.pzBase.toNat % 2 ^ 32
    ({ s with hp := { s.hp with pzPend := none } }).setBase (BitVec.ofNat 64 (v.toNat % 2 ^ 32 * 2 ^ 32 + low))
  | _ => ({ s with hp := { s.hp with pzPend := none } }).setBase v

/-- A flush read of `PZ_FLUSH` (R433). -/
def pzFlush (s : State) (at' n : Nat) : State :=
  s.hostFlush .plaza (((le 8 s.hp.pz.bytes.toNat).drop at').take n)

/-! ## The placement aperture (R430) -/

/-- The enabled region an offset lies in. -/
def rgAt (s : State) (off : Nat) : Option (Nat × Rg) :=
  s.hp.regions.find? fun r => decide (r.2.aper ≤ off) && decide (off < r.2.aper + r.2.size)

/-- The region that serves a whole access. -/
def rgFor (s : State) (off n : Nat) : Option (Nat × Rg) :=
  match s.rgAt off with
  | some r => if off + n ≤ r.2.aper + r.2.size && off + n ≤ flushPage then some r else none
  | none => none

/-- May requester `rid` do it: right 0 READ, 1 WRITE? -/
def Rg.grants (r : Rg) (rid : BitVec 16) (right : Nat) : Bool :=
  rid &&& r.ridmask == r.rid &&& r.ridmask && r.perm.getLsbD right

/-- [DEDUCED, log 120] -/
def noRg (s : State) (rid : BitVec 16) (off : Nat) (isRead : Bool) : State :=
  let s := s.violate 0 off rid
  if isRead then
    let (id, s) := s.uid
    s.cplBad id 1 0 0
  else s.wrDisc

/-- A read of the flush address of region `n` (R431, R432). [DEDUCED, log 122] -/
def flushRegion (s : State) (rid : BitVec 16) (n : Nat) : State :=
  match SMap.get? s.hp.regions n with
  | some _ => s.hostFlush (.region n) (le 8 (s.posts (.region n)).bytes.toNat)
  | none =>
    let (id, s) := (s.violate 0 (flushPage + 16 * n) rid).uid
    s.cplBad id 1 0 0

def apertureRead (s : State) (rid : BitVec 16) (off n : Nat) : State :=
  if !s.portTakes off n bar4Size 4096 then s else
  let s := s.touch
  if flushPage ≤ off && n = 8 && off % 16 = 0 then s.flushRegion rid ((off - flushPage) / 16) else
  match s.rgFor off n with
  | none => s.noRg rid off true
  | some (k, r) =>
    let g := r.target.toNat + (off - r.aper)
    if Rg.grants r rid 0 then s.hostRead (.region k) g n
    else
      let (id, s) := (s.violate 1 off rid).uid
      s.cplBad id 4 (s.logAddr g) 0

/-- [DEDUCED, log 121] -/
def apertureWrite (s : State) (rid : BitVec 16) (off : Nat) (bs : List Byte) : State :=
  if !s.portTakes off bs.length bar4Size 512 then s else
  let s := s.touch
  match s.rgFor off bs.length with
  | none => s.noRg rid off false
  | some (k, r) =>
    let (id, t) := s.uid
    let g := r.target.toNat + (off - r.aper)
    if !Rg.grants r rid 1 then ((t.violate 1 off rid).wrDisc).postFailed (.region k) id
    else
      let p := s.posts (.region k)
      let s := s.setPosts (.region k) { p with bytes := p.bytes + BitVec.ofNat 64 bs.length }
      if s.unmappedHere g bs.length then (((s.uid.2).violate 0 off rid).wrDisc).postFailed (.region k) id
      else s.hostWrite (.region k) g bs

/-! ## Answers from other devices (R425) -/

/-- A part of a host access has ended: a read's data from address `g`, or a status. -/
def hostAnswer (s : State) (id g status : Nat) (bs : List (Byte × Bool)) : State :=
  match s.hp.reqs.find? (fun r => match r with | .rd i .. => i == id | .wr i .. => i == id | _ => false) with
  | some (.rd i w n got pois missing st) =>
    let got := if status = St.ok then bs.zipIdx.foldl (fun m (x : (Byte × Bool) × Nat) => SMap.put m (g + x.2) x.1.1) got else got
    let pois := pois || (status = St.ok && bs.any (·.2))
    let st := if st = St.ok then status else st
    let rest := s.hp.reqs.filter fun r => match r with | .rd j .. => j != id | _ => true
    if missing ≤ 1 then
      let s : State := { s with hp := { s.hp with reqs := rest } }
      if st = St.ok then s.cplData i (got.map (·.2)) pois
      else (match w with | .plaza => s.winFail w | .region _ => s).cplBad i 4 0 st
    else { s with hp := { s.hp with reqs := rest ++ [.rd i w n got pois (missing - 1) st] } }
  | some (.wr i w missing bad) =>
    let s := if status != St.ok && !bad then s.wrFail w i else s
    let rest := s.hp.reqs.filter fun r => match r with | .wr j .. => j != id | _ => true
    if missing ≤ 1 then ({ s with hp := { s.hp with reqs := rest } }).postDone w i
    else { s with hp := { s.hp with reqs := rest ++ [.wr i w (missing - 1) (bad || status != St.ok)] } }
  | _ => s

/-- A BAR0 access that R423 does not allow. -/
def bar0Bad (s : State) (isWrite : Bool) (off n : Nat) : State :=
  if !s.portTakes off n bar0Size 4096 || ((n = 4 || n = 8) && off % n = 0) then s else
  let s := s.touch
  if isWrite then s.wrDisc
  else
    let (id, s) := s.uid
    s.cplBad id 1 (BitVec.ofNat 64 (regBase + off)) 0

end State

/-! ## The commands -/

def execBar0AccessInvalid (isWrite : Bool) (off n : Nat) (s : State) : Host.Outcome State Fault Refusal :=
  .next (s.bar0Bad isWrite off n)
def execPlazaRead (off n : Nat) (s : State) : Host.Outcome State Fault Refusal := .next (s.plazaRead off n)
def execPlazaWrite (off : Nat) (bs : List Byte) (s : State) : Host.Outcome State Fault Refusal := .next (s.plazaWrite off bs)
def execPzBaseWrite (half : Nat) (v : W64) (s : State) : Host.Outcome State Fault Refusal :=
  .next (if s.hp.link = 2 then s.touch.writeBase half v else s)
def execPzFlushRead (at' n : Nat) (s : State) : Host.Outcome State Fault Refusal :=
  .next (if s.hp.link = 2 && ((n = 8 && at' = 0) || (n = 4 && (at' = 0 || at' = 4))) then s.touch.pzFlush at' n else s)
def execApertureRead (rid : BitVec 16) (off n : Nat) (s : State) : Host.Outcome State Fault Refusal :=
  .next (s.apertureRead rid off n)
def execApertureWrite (rid : BitVec 16) (off : Nat) (bs : List Byte) (s : State) : Host.Outcome State Fault Refusal :=
  .next (s.apertureWrite rid off bs)
/-- An 8-byte read of a region's flush address (R431). -/
def execFlushAddressRead (rid : BitVec 16) (n : Nat) (s : State) : Host.Outcome State Fault Refusal :=
  .next (if s.hp.link = 2 && n < 4096 then s.touch.flushRegion rid n else s)

end Sys2Proof.Machine
end

