-- ==== Sys2Proof/Machine/Answers.lean ====
section
/-! DEFINITION. Sys2Proof/Machine/Answers.lean: how a request of this device completes (R187, R195, R355 to R359, R366, R379), and flag
signals that arrive (R182, R186). -/

namespace Sys2Proof.Machine

namespace State

/-- A write or add of the NORM step has been answered. -/
def normAnswer (s : State) (status : Nat) : State :=
  { s with tr := { s.tr with normRun := s.tr.normRun.map fun r => { r with
      adds := r.adds - 1, status := if r.status = St.ok then status else r.status } } }

/-- A remote write of a running descriptor has been answered. -/
def pieceAnswer (s : State) (st status : Nat) : State :=
  let s := s.modRun st fun r => { r with wait := r.wait - 1 }
  if status = St.ok then s else s.finish st status

/-- The write of a descriptor's result has been answered (R320). -/
def resultAnswer (s : State) (st status : Nat) : State :=
  s.modRun st fun r => { r with res := 2, status := if status = St.ok then r.status else status }

/-- A part of a fetch has been answered: data at offset `off`, the end of a write, or a failure. -/
def fetchAnswer (s : State) (k : FetchKey) (off status : Nat) (bs : List (Byte × Bool)) : State :=
  match s.fetch? k with
  | some f =>
    let f := { f with missing := f.missing - 1 }
    s.setFetch (if status = St.ok then f.got off bs else f.failed status)
  | none => s

/-- A request of a core ends badly: the remote-access fault (R187, R195). -/
def remoteEnd (s : State) (c h pc : Nat) (f : Frame) (unit : Nat) (addr : W64) (status : Nat) : State :=
  if status = St.ok then s else s.progFault c h pc f (remoteFault unit addr status)

/-- Request `r` completes with `status` and, for a READ or ATOMIC, the data of its response. -/
def complete (s : State) (r : Req) (status : Nat) (bs : List (Byte × Bool)) : State :=
  let ok := status = St.ok
  let v := leNat (bs.map (·.1))
  match r.cont with
  | .drop => s
  | .load c h u pc f addr reg size sext =>
    if !ok then s.remoteEnd c h pc f 6 addr status
    else if bs.any (·.2) then s.progFault c h pc f (faultOf 5 6 addr.toNat)
    else s.writePend h c u reg (sldValue v size sext)
  | .store c h _ pc f addr => s.remoteEnd c h pc f 6 addr status
  | .atom c h u pc f addr dst =>
    if !ok then s.remoteEnd c h pc f 5 addr status
    else match dst with | some d => s.writePend h c u d (BitVec.ofNat 64 v) | none => s
  | .signal _ src =>
    match src with
    | .core c h pc f => s.remoteEnd c h pc f 0 r.pkt.addr status
    | .dev => s
  | .halo c h _ pc f addr => s.remoteEnd c h pc f 0 addr status
  | .fetch k off => s.fetchAnswer k off status (if r.pkt.op = 1 then bs else [])
  | .piece st => s.pieceAnswer st status
  | .elem st => s.elemDone st status (ok && fld r.pkt.aop 3 0 == 0 && v == 1)
  | .result st => s.resultAnswer st status
  | .host id => s.hostAnswer id r.pkt.addr.toNat status bs
  | .ring k => s.ringAnswer k status
  | .bucket b => s.bucketAnswer b status
  | .norm => s.normAnswer status
  | .clip e t => s.clipAnswer e t status
  | .note u => s.clipNoted u

/-- Take a request off the table of outstanding ones. -/
def untag (s : State) (tag : Nat) : State := { s with fab := { s.fab with outst := SMap.del s.fab.outst tag } }

/-- The data of a READ response as its requester asked for it (R364); a poison-free frozen block of this epoch fills a line (R366). -/
def answerData (s : State) (r : Req) (p : Packet) : List (Byte × Bool) × State :=
  let bs := withNibble (fit p.len p.data) p.poison
  let g := r.pkt.addr.toNat
  if r.pkt.op = 1 && p.flags.getLsbD 1 && p.len = 256 then
    let s := if bs.any (·.2) || r.epoch != s.fab.epoch then s else s.cacheFill g (bs.map (·.1))
    ((bs.drop (g % 256)).take r.pkt.len, s)
  else (bs, s)

/-- FABRIC_RESPONSE (R359, R379). [DEDUCED, log 96] -/
def onResponse (s : State) (p : Packet) : State :=
  if !pktResp p then s else
  let tag := p.tag.toNat
  match SMap.get? s.fab.outst tag with
  | none => { s with fab := { s.fab with late := s.fab.late + 1 } }
  | some r =>
    if r.deadline ≤ s.now || r.pkt.dst != p.src || r.pkt.op != p.op || p.dst.toNat != s.fab.devnum then
      { s with fab := { s.fab with late := s.fab.late + 1 } }
    else
      let (bs, s) := if p.status.toNat = St.ok then s.answerData r p else ([], s)
      (s.untag tag).complete r p.status.toNat bs

/-- REQUEST_TIMEOUT (R379). -/
def requestTimeout (s : State) (tag : Nat) : State :=
  match SMap.get? s.fab.outst tag with
  | some r =>
    if s.now < r.deadline then s else
    (({ s with fab := { s.fab with tmo := s.fab.tmo + 1 } }).untag tag).complete r St.timeout []
  | none => s

/-! ## Flag signals that arrive (R182, R183, R186) -/

/-- The FLAG request of a signal to another device. -/
def flagPkt (dev core flag : Nat) (set : Bool) (v : W32) : Packet :=
  { pktBlank with
    op := 4, dst := BitVec.ofNat 16 dev, addr := BitVec.ofNat 64 (dev * 2 ^ 48 + core * 4096 + flag)
    aop := if set then 1 else 0, val := v }

/-- FLAG_SIGNAL_APPLY: the `ix`-th signal under way. -/
def signalApply (s : State) (ix : Nat) : State :=
  match s.sigs[ix]? with
  | none => s
  | some g =>
    if g.after.any s.alive || s.now < g.due then s else
    let s : State := { s with sigs := s.sigs.filter fun x => x.uid != g.uid }
    match g.dst with
    | .here c n => s.modFlag c n (signalFn g.set g.val)
    | .far dev c n =>
      let prog := match g.src with | .core _ h _ _ => some h | .dev => none
      let p := flagPkt dev c n g.set g.val
      match s.request p 0 prog (.signal g.uid g.src) with
      | .ok s => s
      | .error e =>
        match g.src with
        | .core k h pc f => s.remoteEnd k h pc f 0 p.addr e
        | .dev => s

/-- FWAIT_TIMEOUT: an FWAIT whose TMO has elapsed gives up (R184). -/
def fwaitExpire (s : State) (c : Nat) : State :=
  let x := s.ctx c
  match x.hold with
  | some h =>
    if (s.core c).st = 1 && h.frame.toNat % 256 = 0x11 && bitOf h.frame 48 && decide (fld h.frame 127 96 ≤ h.waited) then
      runFwait c h.frame s
    else s
  | none => s

end State

def execFabricResponse (_ : Nat) (p : Packet) (s : State) : Host.Outcome State Fault Refusal := .next (s.onResponse p)
def execRequestTimeout (tag : Nat) (s : State) : Host.Outcome State Fault Refusal := .next (s.requestTimeout tag)
def execFlagSignalApply (ix : Nat) (s : State) : Host.Outcome State Fault Refusal := .next (s.signalApply ix)
def execFwaitTimeout (c : Nat) (s : State) : Host.Outcome State Fault Refusal := .next (s.fwaitExpire c)

end Sys2Proof.Machine
end

