-- ==== Sys2Proof/Machine/KvCmd.lean ====
section
/-! DEFINITION. Sys2Proof/Machine/KvCmd.lean: the KV commands (R236, R237). -/

namespace Sys2Proof.Machine

def kvBoxes : List Port := [.host, .svc]

/-- The formats of a pool (R199). -/
def kvFmt (c : Nat) : Option Fmt :=
  match Fmt.ofCode c with
  | some .bf16 => some .bf16 | some .fp16 => some .fp16 | some .e4m3 => some .e4m3 | some .e5m2 => some .e5m2 | _ => none

/-- The leases of a CMD_KV_POOL payload. -/
def kvLeases (p : List Byte) : List Lease :=
  (List.range 4).map fun k => ⟨rd p (0x38 + 16 * k) 2, rd p (0x3C + 16 * k) 4, rd p (0x40 + 16 * k) 8⟩

/-- The pool a create makes, in phase 1. -/
def kvPoolOf (p : List Byte) (f : Fmt) : KvPool :=
  { phase := 1, fmt := f, heads := rd p 3 1, hdim := rd p 4 2, pfd := rd p 6 1, lwm := if rd p 7 1 = 0 then 16 else rd p 7 1,
    deckBase := rd p 8 8, deckFrames := rd p 0x10 4, lpBase := rd p 0x18 8, lpFrames := rd p 0x14 4, tblBase := rd p 0x20 8,
    maxSeq := rd p 0x28 4, maxPages := rd p 0x2C 4, idleUs := if rd p 0x30 4 = 0 then 1000 else rd p 0x30 4,
    leases := kvLeases p, frames := [], spillDeck := 0, spillLp := 0, lowDeck := false, lowLp := false }

/-- The fields of a create in payload order (R237). -/
def kvCreateChecks (p : List Byte) : List (Nat × Bool) :=
  let f := kvFmt (rd p 2 1)
  let q := kvPoolOf p (f.getD .bf16)
  let deckTop := deckBase + nCores * deckSize
  [(2, f.isSome), (3, decide (1 ≤ q.heads) && decide (q.heads ≤ 64)),
   (4, q.hdim % 16 == 0 && decide (16 ≤ q.hdim) && decide (q.hdim ≤ 192)), (6, decide (q.pfd ≤ 32)), (7, decide (q.lwm ≤ 127)),
   (8, q.deckBase % 4096 == 0 && decide (deckBase ≤ q.deckBase) && decide (q.deckBase + q.deckFrames * q.psz ≤ deckTop)),
   (0x10, decide (1 ≤ q.deckFrames) && decide (q.deckFrames ≤ 2 ^ 30)), (0x14, decide (q.lpFrames ≤ 2 ^ 30)),
   (0x18, q.lpBase % 4096 == 0 && decide (q.lpBase + q.lpFrames * q.psz ≤ lpEnd)),
   (0x20, q.tblBase % 4096 == 0 && decide (q.tblBase + q.maxSeq * q.maxPages * 4 ≤ lpEnd)),
   (0x28, decide (1 ≤ q.maxSeq) && decide (q.maxSeq ≤ 1048576)),
   (0x2C, decide (1 ≤ q.maxPages) && decide (q.maxPages ≤ 65536)),
   (0x30, decide (100 ≤ q.idleUs) && decide (q.idleUs ≤ 100000))] ++
  (q.leases.zipIdx.flatMap fun l =>
    [(0x38 + 16 * l.2, l.1.frames == 0 || decide (l.1.dev < 8192)), (0x3A + 16 * l.2, rd p (0x3A + 16 * l.2) 2 == 0),
     (0x3C + 16 * l.2, decide (l.1.frames ≤ 131072)),
     (0x40 + 16 * l.2, l.1.frames == 0 || (l.1.base % 4096 == 0 && decide (l.1.base < 2 ^ 48)))])

/-- No two leases name one device, and none this one. -/
def leasesOk (devnum : Nat) (ls : List Lease) : Bool :=
  let used := (ls.filter fun l => l.frames != 0).map (·.dev)
  !used.contains devnum && used.length == used.eraseDups.length

namespace State

/-- The sum of MAXSEQ over the pools. -/
def allSeqs (s : State) : Nat := s.kv.pools.foldl (fun n q => n + q.2.maxSeq) 0

/-- Is an edit held under R209? [DEDUCED, log 85] -/
def editHeld (s : State) (e : Edit) : Bool :=
  s.editReady e && s.latched e.seq &&
  match s.kvSeq e.seq with
  | some r =>
    ((decide (16 ≤ r.log.length) && [5, 7, 8].contains e.op) || (e.op == 3 && r.log.any (·.trunc))) &&
      (s.applyEdit e).kv.edits.any (fun x => x.uid == e.uid)
  | none => false

/-- A pool's table area has been written: it takes edits and walks. -/
def kvCreated (s : State) (pool : Nat) : State :=
  match s.kvPool pool with
  | some q =>
    (s.devWrite q.tblBase ((List.range (q.maxSeq * q.maxPages)).flatMap fun _ => le 4 noFrame)).2.setPool pool { q with phase := 2 }
  | none => s

/-- A pool is gone, with its sequences and frames. -/
def kvDestroyed (s : State) (pool : Nat) : State :=
  let other (ref : Nat) : Bool := ref / 2 ^ 28 != pool
  { s with kv := { s.kv with
      pools := SMap.del s.kv.pools pool, seqs := s.kv.seqs.filter fun r => other r.1,
      spills := s.kv.spills.filter (fun x => x.pool != pool), releases := s.kv.releases.filter fun x => x.pool != pool } }

end State

/-- [DEDUCED, log 84] -/
def kvPool : Cmd :=
  { op := 0x0340, boxes := kvBoxes, len := 0x80, launch := false, trim := fun _ => false,
    check := fun m =>
      let p := pay m
      [(0, decide (rd p 0 1 < 2)), (1, decide (rd p 1 1 < 16))] ++ (if rd p 0 1 = 0 then kvCreateChecks p else []) ++
      [zeroAt m 0x34 4, (0x78, resultOk (rd p 0x78 8))],
    run := fun m s =>
      let p := pay m
      let n := rd p 1 1
      if rd p 0 1 = 0 then
        match kvFmt (rd p 2 1) with
        | none => (.bad 2, s)
        | some f =>
          let q := kvPoolOf p f
          if !leasesOk s.fab.devnum q.leases then (.bad 0x38, s)
          else if 1048576 < s.allSeqs + q.maxSeq then (.bad 0x28, s)
          else if (s.kvPool n).isSome then (.refuse St.badState, s)
          else
            match s.beginLong m 0x0340 (rd p 0x78 8) (.kvCreate n) with
            | some (st, s) => (.accepted st, s.setPool n q)
            | none => (.refuse St.badState, s)
      else
        match s.kvPool n with
        | none => (.bad 1, s)
        | some q =>
          let inPool (ref : Nat) : Bool := ref / 2 ^ 28 == n
          if q.phase != 2 || s.kv.latches.any (fun l => inPool l.seq) || s.kv.edits.any (fun e => inPool e.seq && s.editHeld e) then
            (.refuse St.badState, s)
          else
            match s.beginLong m 0x0340 (rd p 0x78 8) (.kvDestroy n) with
            | some (st, s) => (.accepted st, s.setPool n { q with phase := 3 })
            | none => (.refuse St.badState, s) }

/-- [DEDUCED, log 84] -/
def kvEdit : Cmd :=
  { op := 0x0341, boxes := kvBoxes, len := 0x18, launch := false, trim := fun _ => false,
    check := fun m => [zeroAt m 1 3, (0x10, resultOk (rd (pay m) 0x10 8))],
    run := fun m s =>
      let p := pay m
      let (u, s') := s.uid
      match s'.beginLong m 0x0341 (rd p 0x10 8) (.kvEdit u) with
      | some (st, s) =>
        (.accepted st, { s with kv := { s.kv with edits := s.kv.edits ++
          [⟨u, .cmd st (rd p 0x10 8), [], rd p 0 1, rd p 4 4, rd p 8 4, rd p 0xC 4 != 0, u + 1⟩] } })
      | none => (.refuse St.badState, s) }

/-- [DEDUCED, log 85] -/
def kvStatus : Cmd :=
  { op := 0x0342, boxes := kvBoxes, len := 1, launch := false, trim := fun _ => false, check := fun _ => [],
    run := fun m s =>
      let n := rd (pay m) 0 1
      match s.kvPool n with
      | none => (.bad 0, s)
      | some q =>
        let mine (ref : Nat) : Bool := ref / 2 ^ 28 == n
        (.ok (le 4 q.freeDeck ++ le 4 q.freeLp ++ le 4 q.freeRemote ++ le 4 (s.kv.seqs.filter fun r => mine r.1).length ++
          le 4 (s.kv.seqs.filter fun r => mine r.1 && r.2.resident).length ++
          le 4 (s.kv.latches.filter fun l => mine l.seq).length ++
          le 4 (s.kv.edits.filter fun e => mine e.seq && s.editHeld e).length ++
          le 4 (q.frames.filter fun f => f.2.refs == 0 && !(s.kv.spills.any fun x => x.pool == n && x.dst == f.1)).length ++ le 8 q.spillDeck ++ le 8 q.spillLp), s) }

def execCmdKvPool (m : MbxCmd) (s : State) : Host.Outcome State Fault Refusal := .next (s.issueCmd kvPool m)
def execCmdKvEdit (m : MbxCmd) (s : State) : Host.Outcome State Fault Refusal := .next (s.issueCmd kvEdit m)
def execCmdKvStatus (m : MbxCmd) (s : State) : Host.Outcome State Fault Refusal := .next (s.issueCmd kvStatus m)

end Sys2Proof.Machine
end

