-- ==== Sys2Proof/Machine/BvCmd.lean ====
section
/-! DEFINITION. Sys2Proof/Machine/BvCmd.lean: the fabric commands (R342, R350, R376, R377, R383, R384). -/

namespace Sys2Proof.Machine

def bvBoxes : List Port := [.fm, .svc]
def bvHostBoxes : List Port := [.host, .fm, .svc]

namespace State

/-- A commanded retrain: the link leaves route selection and waits until its replay buffer is empty (R342). A link that is
down trains again. [DEDUCED, log 146] -/
def drainLink (s : State) (l : Nat) : State :=
  let k := s.link l
  if k.state = 0 then s.linkTrain l
  else if k.state != 2 then s
  else if k.replay.isEmpty && k.txq.isEmpty then s.retrain l
  else s.setLink l { k with state := 4, since := s.now }

/-- A stretch of memory that an exposure entry may cover (R350): LPDDR5X, the deck, or the scratchpads. -/
def exposeArea (base size : Nat) (frozen : Bool) : Bool :=
  decide (base + size ≤ lpEnd) ||
  (decide (deckBase ≤ base) && decide (base + size ≤ deckBase + nCores * deckSize)) ||
  (!frozen && decide (spadBase ≤ base) && decide (base + size ≤ spadBase + nCores * spadSize))

end State

def bvPortCmd : Cmd :=
  { op := 0x0500, boxes := bvBoxes, len := 8, launch := false, trim := fun m => rd (pay m) 1 1 == 0,
    check := fun m =>
      let p := pay m
      [(0, decide (rd p 0 1 < 18)), (1, decide (rd p 1 1 < 2)), (2, decide (rd p 2 1 < 3)),
       (3, decide (rd p 3 1 < 3) && (rd p 1 1 != 0 || rd p 3 1 == 0)), (4, decide (rd p 4 1 < 3)), zeroAt m 5 3],
    run := fun m s =>
      let p := pay m
      let n := rd p 0 1
      if rd p 1 1 = 0 then s.stage m.port (.port n (rd p 2 1) (rd p 4 1))
      else if (s.bvPort n).mode = 1 && rd p 3 1 != 0 then (.bad 3, s)
      else if (s.bvPort n).mode = 0 then (.refuse St.badState, s)
      else (.ok, (s.linksOf n (rd p 3 1)).foldl State.drainLink s) }

def bvRoute : Cmd :=
  { op := 0x0501, boxes := bvBoxes, len := 0x10, launch := false, trim := fun _ => false,
    check := fun m =>
      let p := pay m
      [(0, decide (rd p 0 2 ≤ rd p 2 2)), (2, decide (rd p 2 2 < 8192)), zeroAt m 4 4, (8, decide (rd p 8 8 < 2 ^ 36))],
    run := fun m s =>
      let p := pay m
      s.stage m.port (.route (rd p 0 2) (rd p 2 2) (BitVec.ofNat 36 (rd p 8 8))) }

/-- The exposure entry of a payload. -/
def exposeOf (p : List Byte) : Option Expose :=
  if rd p 2 1 = 0 then none else
  some ⟨rd p 2 1, BitVec.ofNat 8 (rd p 3 1), rd p 4 2, rd p 6 2, rd p 8 8, rd p 0x10 8⟩

def bvExpose : Cmd :=
  { op := 0x0502, boxes := bvHostBoxes, len := 0x20, launch := false, trim := fun _ => false,
    check := fun m =>
      let p := pay m
      let kind := rd p 2 1; let perm := rd p 3 1; let base := rd p 8 8; let size := rd p 0x10 8
      let frozen := perm.testBit 3
      [(0, decide (rd p 0 2 < 1024)), (2, decide (kind < 3)),
       (3, decide (perm < 32) && (kind != 1 || (decide (perm < 16) && (!frozen || perm / 2 % 4 == 0))) &&
         (kind != 2 || perm % 16 == 0)),
       (4, decide (rd p 4 2 ≤ rd p 6 2)), (6, decide (rd p 6 2 < 8192)),
       (8, kind != 1 || base % 4096 == 0),
       (0x10, match kind with
         | 1 => size % 4096 == 0 && decide (4096 ≤ size) && State.exposeArea base size frozen
         | 2 => decide (1 ≤ size) && decide (base + size ≤ nCores)
         | _ => true),
       zeroAt m 0x18 8],
    run := fun m s => s.stage m.port (.expose (rd (pay m) 0 2) (exposeOf (pay m))) }

def bvMembers : Cmd :=
  { op := 0x0503, boxes := bvBoxes, len := 8, launch := false, trim := fun _ => false,
    check := fun m =>
      let p := pay m
      [(0, decide (rd p 0 1 < 2)), zeroAt m 1 1, (2, decide (rd p 2 2 ≤ rd p 4 2)), (4, decide (rd p 4 2 < 8192)), zeroAt m 6 2],
    run := fun m s =>
      let p := pay m
      s.stage m.port (.members (rd p 2 2) (rd p 4 2) (rd p 0 1 == 1)) }

def bvTree : Cmd :=
  { op := 0x0504, boxes := bvBoxes, len := 0x28, launch := false, trim := fun _ => false,
    check := fun m =>
      let p := pay m
      let n := rd p 2 1
      [(0, decide (rd p 0 1 < 8)), (1, decide (rd p 1 1 < 2)), (2, decide (n ≤ 16)), zeroAt m 3 1,
       (4, rd p 4 2 == 0xFFFF || decide (rd p 4 2 < 8192)), zeroAt m 6 2] ++
      (List.range 16).map fun k => (8 + 2 * k, if k < n then decide (rd p (8 + 2 * k) 2 < 8192) else rd p (8 + 2 * k) 2 == 0),
    run := fun m s =>
      let p := pay m
      s.stage m.port (.tree (rd p 0 1)
        (if rd p 1 1 = 0 then none else some (rd p 4 2, (List.range (rd p 2 1)).map fun k => rd p (8 + 2 * k) 2))) }

/-- The checks of R376 on the device's state. -/
def State.mayJoin (s : State) : Bool :=
  !(s.fab.devState == 1 || s.fab.devState == 2) && !s.progs.any (fun p => p.2.active) &&
  s.streams.all (fun t => State.Stream.code t.2 == 0) && s.regions.isEmpty &&
  !s.kv.pools.any fun q => q.2.leases.any fun l => l.frames != 0

def bvJoin : Cmd :=
  { op := 0x0505, boxes := bvBoxes, len := 0x18, launch := false, trim := fun _ => false,
    check := fun m =>
      let p := pay m
      [(0, decide (rd p 0 2 < 8192)), zeroAt m 2 6, (0x10, resultOk (rd p 0x10 8))],
    run := fun m s =>
      let p := pay m
      if !s.mayJoin then (.refuse St.badState, s)
      else s.acceptLong m 0x0505 (rd p 0x10 8) (.join (rd p 0 2) (rd p 8 8)) }

/-- The fabric state changes: it is reported (R447). -/
def State.setFabric (s : State) (st : Nat) : State :=
  ({ s with fab := { s.fab with devState := st } }).fabricEvent

def bvLeave : Cmd :=
  { op := 0x0506, boxes := bvBoxes, len := 8, launch := false, trim := fun _ => false,
    check := fun m => [(0, resultOk (rd (pay m) 0 8))],
    run := fun m s =>
      if s.fab.devState != 1 then (.refuse St.badState, s) else
      match s.beginLong m 0x0506 (rd (pay m) 0 8) .leave with
      | some (n, s) =>
        (.accepted n, ({ s with fab := { s.fab with lastReq := s.now, leaving := none } }).setFabric 2)
      | none => (.refuse St.badState, s) }

def bvGlobal : Cmd :=
  { op := 0x0507, boxes := bvHostBoxes, len := 0x58, launch := false, trim := fun _ => false,
    check := fun m =>
      let p := pay m
      [(0, decide (rd p 0 1 < 8)), (1, decide (rd p 1 1 < 4)), zeroAt m 2 2, (8, resultOk (rd p 8 8)),
       (0x50, rd p 0x50 8 % 64 == 0 && gvalid (rd p 0x50 8))],
    run := fun m s =>
      let p := pay m
      let t := rd p 0 1; let kind := rd p 1 1
      let root := match s.tree? t with | some x => x.parent == rootParent | none => false
      if kind = 3 && (m.port != .fm || !root) then (.refuse St.notAuthorised, s)
      else if !s.gopFree t then (.refuse St.badState, s)
      else if kind = 3 then
        match s.tree? t with
        | some x => (.silent, (s.toChildren t x 1 3 false []).takeReset 8)
        | none => (.refuse St.badState, s)
      else
        match s.beginLong m 0x0507 (rd p 8 8) (.global t) with
        | some (n, s) =>
          (.accepted n, s.gopStart t kind (rd p 4 4) (some n) ((p.drop 0x10).take 64) (BitVec.ofNat 64 (rd p 0x50 8)))
        | none => (.refuse St.badState, s) }

def bvFrozen : Cmd :=
  { op := 0x0508, boxes := bvHostBoxes, len := 4, launch := false, trim := fun _ => false,
    check := fun m =>
      let p := pay m
      [(0, decide (rd p 0 1 < 2)), (1, decide (rd p 1 1 ≤ 16)), zeroAt m 2 2],
    run := fun m s =>
      if rd (pay m) 0 1 = 0 then s.stage m.port (.frozen (rd (pay m) 1 1)) else (.ok, s.flushFrozen) }

def bvConfigCmd : Cmd :=
  { op := 0x0509, boxes := bvBoxes, len := 8, launch := false, trim := fun _ => false,
    check := fun m =>
      let p := pay m
      [(0, usOk (rd p 0 4)), (4, decide (rd p 4 2 ≤ rd p 6 2)), (6, decide (rd p 6 2 < 8192))],
    run := fun m s =>
      let p := pay m
      s.stage m.port (.bvConfig (if rd p 0 4 = 0 then 2000 else rd p 0 4) (rd p 4 2) (rd p 6 2)) }

namespace State

/-- Requests that await a response: READs, and the others. -/
def outReads (s : State) : Nat := (s.fab.outst.filter fun r => r.1 < 0x8000).length
def outWrites (s : State) : Nat := (s.fab.outst.filter fun r => 0x8000 ≤ r.1).length

/-- Bit per link that is up. -/
def upMask (s : State) : Nat := iterate 36 0 fun i n => if (s.link i).state = 2 then n + 2 ^ i else n

end State

def bvStatus : Cmd :=
  { op := 0x050A, boxes := allPorts, len := 0, launch := false, trim := fun _ => false, check := fun _ => [],
    run := fun _ s =>
      (.ok (le 1 s.fab.devState ++ le 1 (if s.fab.time.sync then 1 else 0) ++ le 2 s.fab.devnum ++
        le 2 (s.fab.members.filter (·.2)).length ++ le 2 s.fab.expose.length ++ le 8 s.upMask ++ le 8 s.ftime.toNat ++
        le 4 s.outReads ++ le 4 s.outWrites), s) }

def execCmdBvPort (m : MbxCmd) (s : State) : Host.Outcome State Fault Refusal := .next (s.issueCmd bvPortCmd m)
def execCmdBvRoute (m : MbxCmd) (s : State) : Host.Outcome State Fault Refusal := .next (s.issueCmd bvRoute m)
def execCmdBvExpose (m : MbxCmd) (s : State) : Host.Outcome State Fault Refusal := .next (s.issueCmd bvExpose m)
def execCmdBvMembers (m : MbxCmd) (s : State) : Host.Outcome State Fault Refusal := .next (s.issueCmd bvMembers m)
def execCmdBvTree (m : MbxCmd) (s : State) : Host.Outcome State Fault Refusal := .next (s.issueCmd bvTree m)
def execCmdBvJoin (m : MbxCmd) (s : State) : Host.Outcome State Fault Refusal := .next (s.issueCmd bvJoin m)
def execCmdBvLeave (m : MbxCmd) (s : State) : Host.Outcome State Fault Refusal := .next (s.issueCmd bvLeave m)
def execCmdBvGlobal (m : MbxCmd) (s : State) : Host.Outcome State Fault Refusal := .next (s.issueCmd bvGlobal m)
def execCmdBvFrozen (m : MbxCmd) (s : State) : Host.Outcome State Fault Refusal := .next (s.issueCmd bvFrozen m)
def execCmdBvConfig (m : MbxCmd) (s : State) : Host.Outcome State Fault Refusal := .next (s.issueCmd bvConfigCmd m)
def execCmdBvStatus (m : MbxCmd) (s : State) : Host.Outcome State Fault Refusal := .next (s.issueCmd bvStatus m)

end Sys2Proof.Machine
end

