-- ==== Sys2Proof/Machine/Commit.lean ====
section
/-! DEFINITION. Sys2Proof/Machine/Commit.lean: the commit of staged configuration (R449 to R452, R459) with the checks and effects that the
chapters give each item. -/

namespace Sys2Proof.Machine

namespace State

/-! ## What a commit leaves in force -/

/-- Mode of port `n` once the items of a stage apply (R348). -/
def modeAfter (s : State) (all : List Item) (n : Nat) : Nat :=
  all.foldl (fun m x => match x with | .port k mode _ => if k = n then mode else m | _ => m) (s.bvPort n).mode

/-- Store one link mask for a range of device numbers. -/
def routeRange (m : SMap (BitVec 36)) (lo hi : Nat) (mask : BitVec 36) : SMap (BitVec 36) :=
  (List.range (hi + 1 - lo)).foldl (fun m i => SMap.setD m (lo + i) 0 mask) m

def routesAfter (s : State) (all : List Item) : SMap (BitVec 36) :=
  all.foldl (fun m x => match x with | .route lo hi mask => routeRange m lo hi mask | _ => m) s.fab.routes

/-- Does a link mask break R348 under the modes of the ports? -/
def maskBad (mode : Nat → Nat) (m : BitVec 36) : Bool :=
  let wide := (List.range 18).any fun n => mode n == 1 && m.getLsbD (2 * n)
  let half := (List.range 18).any fun n => mode n == 2 && (m.getLsbD (2 * n) || m.getLsbD (2 * n + 1))
  ((List.range 18).any fun n => mode n == 1 && m.getLsbD (2 * n + 1)) || (wide && half)

/-- The BAR4 ranges that a stage leaves enabled (R429). -/
def rgAfter (s : State) (all : List Item) : SMap Rg :=
  all.foldl (fun m x => match x with
    | .region n (some r) => SMap.put m n r
    | .region n none => SMap.del m n
    | _ => m) s.hp.regions

/-- Does a range of global addresses keep R429 as a target? -/
def targetOk (s : State) (g n : Nat) : Bool :=
  gvalid g && decide (gloc g + n ≤ 2 ^ 48) &&
  (gdev g != s.fab.devnum ||
    decide (gloc g + n ≤ lpEnd) ||
    (decide (deckBase ≤ gloc g) && decide (gloc g + n ≤ deckBase + nCores * deckSize)) ||
    (decide (spadBase ≤ gloc g) && decide (gloc g + n ≤ spadBase + nCores * spadSize)))

/-- Is a bucket filling or reducing (R387)? -/
def bucketBusy (b : Bucket) : Bool := b.fill != 0 || b.full || b.go.isSome || b.run.isSome

/-- The exact regions of a norm configuration: base, elements (R404). -/
def normRegions (s : State) (c : NormCfg) : List Nat := c.loc :: if c.home = s.fab.devnum then [c.homereg] else []

/-- The regions of a norm configuration close, and keep what they hold. [DEDUCED, log 51] -/
def normClose (s : State) : State :=
  match s.tr.norms with
  | some c => (s.normRegions c).foldl (fun (s : State) b => (s.closeRegion b).2.2) s
  | none => s

/-- Open an internal region of a service with every element at 0, so that what its next close gives is the sum of the
adds alone (R401, R406). [DEDUCED, log 51] -/
def openZero (s : State) (base count : Nat) (eb : Int) : State :=
  ((s.zeroAt base (16 * count)).beginOpen base (base + 16 * count) count eb).finishOpen base

/-- [DEDUCED, log 51, 116, 164] -/
def normOpen (s : State) (c : NormCfg) : State :=
  (s.normRegions c).foldl (fun (s : State) b => s.openZero b c.ng c.en) s

/-- The two regions of a sparse bucket (R394). -/
def bucketRegions (d : BucketDef) : List Nat := if d.dens = 0 then [] else [d.sparse 0, d.sparse 1]

/-- The regions of a bucket's definition close, and keep what they hold. [DEDUCED, log 51] -/
def bucketClose (s : State) (b : Nat) : State :=
  match s.bucket? b with
  | some x => (bucketRegions x.df).foldl (fun (s : State) a => (s.closeRegion a).2.2) s
  | none => s

/-- [DEDUCED, log 51] -/
def bucketOpen (s : State) (d : BucketDef) : State :=
  (bucketRegions d).foldl (fun (s : State) a => s.openZero a d.lmax d.ew) s

/-! ## Checks at commit -/

/-- Status of an item's own commit check, on the state that the earlier items of the stage leave.
[DEDUCED, log 53, 125] -/
def itemCheck (s : State) (all : List Item) (x : Item) : Nat :=
  let ok (b : Bool) (e : Nat) : Nat := if b then St.ok else e
  match x with
  | .region n (some r) =>
    ok (s.targetOk r.target.toNat r.size &&
      !(s.rgAfter all).any fun y => y.1 != n && decide (y.2.aper < r.aper + r.size) && decide (r.aper < y.2.aper + y.2.size)) St.badField
  | .memPart nb => ok (nb == s.nb || (s.progs.isEmpty && s.streams.isEmpty && s.kv.pools.isEmpty)) St.badState
  | .port n _ _ =>
    ok (!(s.routesAfter all).any fun e =>
      (e.2.getLsbD (2 * n) || e.2.getLsbD (2 * n + 1)) && maskBad (s.modeAfter all) e.2) St.badField
  | .route _ _ mask => ok (!maskBad (s.modeAfter all) mask) St.badField
  | .frozen fcu => ok (fcu == s.fab.fcu || (s.progs.isEmpty && s.kv.pools.isEmpty && s.regions.isEmpty)) St.badState
  | .ring r _ => ok (!s.tr.buckets.any fun b => b.2.df.ring == r) St.badState
  | .bucket b d =>
    let busy := match s.bucket? b with | some x => bucketBusy x | none => false
    let ringOk := match d with
      | some d => (match s.ring? d.ring with | some g => g.n == d.n | none => false)
      | none => true
    if busy || !ringOk then St.badState else
    match d with
    | some d =>
      let t := s.bucketClose b
      ok ((bucketRegions d).all (fun a => (t.regionBad a (a + 16 * d.lmax) d.lmax d.ew).isNone) &&
        decide (t.regions.length + (bucketRegions d).length ≤ 4096)) St.badField
    | none => St.ok
  | .norms d =>
    if s.tr.normRun.isSome || s.tr.buckets.any (fun b => b.2.df.norm && b.2.run.isSome) then St.badState else
    match d with
    | some c =>
      let t := s.normClose
      ok ((t.normRegions c).all (fun b => (t.regionBad b (b + 16 * c.ng) c.ng c.en).isNone) &&
        decide (t.regions.length + (t.normRegions c).length ≤ 4096)) St.badField
    | none => St.ok
  | _ => St.ok

/-! ## Effects at the commit point -/

/-- A link that is not down any more goes down without a retrain; the fabric event says which (R342, R447).
[DEDUCED, log 97, 146] -/
def linkOff (s : State) (l : Nat) : State :=
  if (s.link l).state = 0 then s else
  (s.setLink l Link.down).fabricEvent

/-- Port `n` takes a mode and an attachment. [DEDUCED, log 127] -/
def setMode (s : State) (n mode media : Nat) : State :=
  let p := s.bvPort n
  if p.mode = mode && p.media = media then s else
  let s := (s.linkOff (2 * n)).linkOff (2 * n + 1)
  let s := s.setPort n { p with mode := mode, media := media }
  (s.linksOf n 0).foldl (fun s l => s.linkTrain l) s

/-- A region's definition is enabled, changed or disabled: a change counts its bytes from zero (R431).
[DEDUCED, log 126, 128] -/
def setRegion (s : State) (n : Nat) (r : Option Rg) : State :=
  if SMap.get? s.hp.regions n = r then s else
  let s := s.setPosts (.region n) { s.posts (.region n) with bytes := 0 }
  { s with hp := { s.hp with regions := match r with | some r => SMap.put s.hp.regions n r | none => SMap.del s.hp.regions n } }

/-- Member bits are set or cleared; what depends on a device that goes ends with `ST_DEPARTED` (R372, R402). -/
def setMembers (s : State) (lo hi : Nat) (set : Bool) : State :=
  let was := fun (d : Nat) => decide (lo ≤ d) && decide (d ≤ hi) && SMap.getD s.fab.members d false
  let m := (List.range (hi + 1 - lo)).foldl (fun m i => SMap.setD m (lo + i) false set) s.fab.members
  let gone := fun (d : Nat) => !set && was d && d != s.fab.devnum
  let rings := s.tr.rings.filter fun g => g.2.devs.any gone
  let s : State := { s with fab := { s.fab with members := m } }
  let s := s.fab.trees.foldl (fun (s : State) t =>
    ((t.2.parent :: t.2.children).filter gone).foldl (fun (s : State) d => s.gopDeparted t.1 d) s) s
  s.tr.buckets.foldl (fun (s : State) b =>
    if b.2.run.isSome && rings.any (fun g => g.1 == b.2.df.ring) then s.stepFail b.1 St.departed else s) s

/-- A tree's place is defined again or deleted: its operation ends here. [DEDUCED, log 101] -/
def setPlace (s : State) (t : Nat) (d : Option (Nat × List Nat)) : State :=
  let s := match s.tree? t with
    | some x => (match x.run with | some r => s.tellStream r.st St.departed 0 | none => s)
    | none => s
  match d with
  | some (p, cs) => s.setTree t ⟨p, cs, 0, [], none⟩
  | none => { s with fab := { s.fab with trees := SMap.del s.fab.trees t } }

/-- The frozen cache takes another size: its lines go, and what it held of the deck slices is not defined (R365).
[DEDUCED, log 127] -/
def setFrozen (s : State) (fcu : Nat) : State :=
  if fcu = s.fab.fcu then s else
  let top := max fcu s.fab.fcu * 0x10000
  let s := iterate nCores s fun c (s : State) => s.forget (deckOf c + (deckSize - top)) (deckOf c + deckSize)
  { s with fab := { s.fab with fcu := fcu, cache := [], epoch := s.fab.epoch + 1 } }

/-- A bucket that has taken nothing yet. [DEDUCED, log 164] -/
def newBucket (d : BucketDef) : Bucket :=
  { df := d, fill := 0, full := false, go := none, steps := 0, run := none, lastPath := 0, lastStatus := 0, lastSide := 0,
    lastSent := 0 }

/-- What an item changes. [DEDUCED, log 126, 129] -/
def itemApply (s : State) (x : Item) : State :=
  match x with
  | .pslice us => { s with dc := { s.dc with pslice := us } }
  | .region n r => s.setRegion n r
  | .memPart nb => if nb = s.nb then s else ({ s with nb := nb }).forget 0 lpEnd
  | .streamSlice us => { s with slice := us }
  | .ingest en tmo => { s with ig := { s.ig with enable := en, defTmo := tmo } }
  | .port n mode media => s.setMode n mode media
  | .route lo hi mask => { s with fab := { s.fab with routes := routeRange s.fab.routes lo hi mask } }
  | .expose n e =>
    { s with fab := { s.fab with expose := match e with | some e => SMap.put s.fab.expose n e | none => SMap.del s.fab.expose n } }
  | .members lo hi set => s.setMembers lo hi set
  | .tree t d => s.setPlace t d
  | .frozen fcu => s.setFrozen fcu
  | .bvConfig tmo lo hi => { s with fab := { s.fab with tmoUs := tmo, fmLo := lo, fmHi := hi } }
  | .ring r d =>
    { s with tr := { s.tr with rings := match d with | some g => SMap.put s.tr.rings r g | none => SMap.del s.tr.rings r } }
  | .bucket b d =>
    let s := s.bucketClose b
    let s : State := { s with tr := { s.tr with
        buckets := match d with | some d => SMap.put s.tr.buckets b (newBucket d) | none => SMap.del s.tr.buckets b } }
    match d with | some d => s.bucketOpen d | none => s
  | .norms d =>
    let s := s.normClose
    let s : State := { s with tr := { s.tr with norms := d, normStep := 0 } }
    match d with | some c => s.normOpen c | none => s
  | .phase n expect thr => s.setPhId n { s.phId n with expect := expect, thr := thr }
  | .phlog base log2n => { s with tr := { s.tr with logBase := base, log2n := log2n, logHead := 0, logTail := 0 } }
  | .power cap warn rst alert wdt =>
    let old := s.pw.cap
    let s := s.modPw fun p => { p with
      cap := cap, warnv := BitVec.ofNat 8 warn, rstv := BitVec.ofNat 8 rst, alertc := alert, wdtMs := wdt }
    if cap = old then s else s.powerEvent 7
  | .svcNet p mode addr mask gw srv =>
    let s : State := { s with tru := { s.tru with net := SMap.put s.tru.net p ⟨mode, addr, mask, gw, srv⟩ } }
    if s.pw.pulse.isNone then s.modPw fun p => { p with pulse := some 9 } else s

/-! ## CMD_COMMIT (R450) -/

/-- The items of a stage pass their checks and apply, or the first that fails is named: its index and status.
[DEDUCED, log 125] -/
def commitItems (all : List Item) : Nat → List Item → State → Except (Nat × Nat) State
  | _, [], s => .ok s
  | i, x :: xs, s =>
    match s.itemCheck all x with
    | 0 => commitItems all (i + 1) xs (s.itemApply x)
    | e => .error (i, e)

/-- The calibration tables that a pending activation of KIND 1 names apply (R498). -/
def takeTables (s : State) : State :=
  let k := BootHdr.act s.tru.hdr 1
  match s.tru.img 1 k with
  | some i => { s with tru := { s.tru with calslot := k, calHdr := i.hdr } }
  | none => s

def commitBytes (gen : W32) (items fail : Nat) : List Byte := le 4 gen.toNat ++ le 2 items ++ le 2 fail

/-- The next generation. -/
def nextGen (g : W32) : W32 := if g + 1 = 0xFFFFFFFF then 0 else g + 1

/-- One commit, of partner `p`, based on generation `base`. -/
def commitOne (s : State) (p : Port) (tag base : W32) : State :=
  let l := (s.box p).stage
  let g := s.dc.gen
  if base != 0xFFFFFFFF && base != g then s.respond p tag St.conflict (commitBytes g 0 0xFFFF) 0 0
  else if l.isEmpty then s.respond p tag St.ok (commitBytes g 0 0xFFFF) 0 0
  else
    match commitItems l 0 l s with
    | .error (i, e) => s.respond p tag e (commitBytes g 0 i) 0 0
    | .ok t =>
      let t := t.takeTables
      let g := nextGen g
      let t : State := { t with dc := { t.dc with gen := g, lastPort := portNo p, lastTime := t.ftime } }
      let t := t.setBox p { t.box p with stage := [] }
      (t.event 8 0 (g.setWidth 64) (BitVec.ofNat 64 (portNo p))).respond p tag St.ok (commitBytes g l.length 0xFFFF) 0 0

/-- COMMIT_POINT: a tick boundary at which the commits that wait are handled, in port order (R451, R452).
[DEDUCED, log 125] -/
def commitPoint (s : State) : State :=
  let cs := s.dc.commits
  let s : State := { s with dc := { s.dc with commits := [] } }
  allPorts.foldl (fun (s : State) p =>
    match cs.find? (fun c => c.1 == p) with
    | some (_, tag, base) => s.commitOne p tag base
    | none => s) s

end State

def cmdCommit : Cmd :=
  { op := 0x0100, boxes := allPorts, len := 4, launch := false, trim := fun _ => false, check := fun _ => [],
    run := fun m s =>
      (.later, { s with dc := { s.dc with commits := s.dc.commits ++ [(m.port, m.tag, BitVec.ofNat 32 (rd (pay m) 0 4))] } }) }

def cmdDiscard : Cmd :=
  { op := 0x0101, boxes := allPorts, len := 0, launch := false, trim := fun _ => false, check := fun _ => [],
    run := fun m s => (.ok, s.setBox m.port { s.box m.port with stage := [] }) }

def cmdConfigDevice : Cmd :=
  { op := 0x0102, boxes := [.host, .svc], len := 4, launch := false, trim := fun _ => false,
    check := fun m => [(0, usOk (rd (pay m) 0 4))],
    run := fun m s => s.stage m.port (.pslice (orDefault (rd (pay m) 0 4) 1000)) }

/-- The region of a payload (R429). -/
def rgOf (p : List Byte) : Rg :=
  ⟨BitVec.ofNat 8 (rd p 3 1), BitVec.ofNat 16 (rd p 4 2), BitVec.ofNat 16 (rd p 6 2), rd p 8 8, rd p 0x10 8, BitVec.ofNat 64 (rd p 0x18 8)⟩

def cmdRgSet : Cmd :=
  { op := 0x0310, boxes := [.host, .svc], len := 0x20, launch := false, trim := fun _ => false,
    check := fun m =>
      let p := pay m
      [(0, decide (rd p 0 2 < 4096)), (2, decide (rd p 2 1 < 2)), (3, decide (rd p 3 1 < 4))] ++
      if rd p 2 1 = 0 then [] else
      [(8, rd p 8 8 % 0x10000 == 0),
       (0x10, rd p 0x10 8 % 0x10000 == 0 && decide (0x10000 ≤ rd p 0x10 8) && decide (rd p 8 8 + rd p 0x10 8 ≤ flushPage)),
       (0x18, rd p 0x18 8 % 0x10000 == 0)],
    run := fun m s =>
      let p := pay m
      if rd p 2 1 = 0 then s.stage m.port (.region (rd p 0 2) none)
      else if !s.targetOk (rd p 0x18 8) (rd p 0x10 8) then (.bad 0x18, s)
      else s.stage m.port (.region (rd p 0 2) (some (rgOf p))) }

def execCmdCommit (m : MbxCmd) (s : State) : Host.Outcome State Fault Refusal := .next (s.issueCmd cmdCommit m)
def execCommitPoint (s : State) : Host.Outcome State Fault Refusal := .next s.commitPoint
def execCmdStageDiscard (m : MbxCmd) (s : State) : Host.Outcome State Fault Refusal := .next (s.issueCmd cmdDiscard m)
def execCmdConfigDevice (m : MbxCmd) (s : State) : Host.Outcome State Fault Refusal := .next (s.issueCmd cmdConfigDevice m)
def execCmdRgSet (m : MbxCmd) (s : State) : Host.Outcome State Fault Refusal := .next (s.issueCmd cmdRgSet m)

end Sys2Proof.Machine
end

