-- ==== Sys2Proof/Machine/General.lean ====
section
/-! DEFINITION. Sys2Proof/Machine/General.lean: the general commands (R454, R455), the abort guarantee (R456 to R458), and resets by
command (R480, R381). -/

namespace Sys2Proof.Machine

/-! ## Information (R454) -/

/-- The 128 bytes of exclusion codes of a page of 256 cores. -/
def exclBytes (s : State) (page : Nat) : List Byte :=
  let code (i : Nat) : Nat := (s.core (256 * page + i)).excl % 16
  (List.range 128).map fun k => BitVec.ofNat 8 (code (2 * k) + 16 * code (2 * k + 1))

def infoDevice : Cmd :=
  { op := 0x0000, boxes := allPorts, len := 0, launch := false, trim := fun _ => false, check := fun _ => [],
    run := fun _ s =>
      (.ok (le 2 7 ++ [Config.rev] ++ le 1 (if Config.gradeS then 0x53 else 0x45) ++ le 1 (if Config.gradeC then 0x43 else 0x57) ++
        zeros 1 ++ le 2 Config.hostDie.toNat ++ le 8 Config.serial.toNat ++ le 8 (rd s.tru.runHdr 8 8) ++ le 4 Config.romVer.toNat ++
        le 2 s.fab.devnum ++ le 2 s.mapSize ++ le 2 1440 ++ zeros 14), s) }

def infoInventory : Cmd :=
  { op := 0x0001, boxes := allPorts, len := 1, launch := false, trim := fun _ => false,
    check := fun m => [(0, decide (rd (pay m) 0 1 < 12))],
    run := fun m s =>
      let page := rd (pay m) 0 1
      let n := ((List.range 256).filter fun i => s.inMap (256 * page + i)).length
      (.ok (le 1 page ++ zeros 1 ++ le 2 n ++ zeros 12 ++ exclBytes s page), s) }

def infoConfig : Cmd :=
  { op := 0x0002, boxes := allPorts, len := 0, launch := false, trim := fun _ => false, check := fun _ => [],
    run := fun m s =>
      (.ok (le 4 s.dc.gen.toNat ++ le 2 (s.box m.port).stage.length ++ le 1 s.dc.lastPort ++ zeros 1 ++ le 8 s.dc.lastTime.toNat), s) }

namespace State

/-- Error-log entries beyond the host's cursor (R516). -/
def errNew (s : State) : Nat :=
  let c := SMap.getD s.tru.cursors 0 0
  min 0xFFFF (s.tru.log.filter fun e => decide ((e.seq - c).toNat < 2 ^ 31)).length

/-! ## The snapshot (R455) -/

/-- [DESIGN CHOICE, log 130] -/
def snapBytes (s : State) : List Byte :=
  let n (q : Prog → Bool) : Nat := (s.progs.filter fun p => q p.2).length
  let p := s.pw
  let thr := (if p.plevel = 0 then 0 else 1) + (if p.tlevel = 0 then 0 else 2) + (if p.stretch.isEmpty && p.stops.isEmpty then 0 else 4)
  le 4 s.dc.snapSeq.toNat ++ le 4 s.dc.gen.toNat ++ le 8 s.ftime.toNat ++ le 1 s.dc.dstate ++ le 1 s.fab.devState ++ le 2 s.mapSize ++
  le 2 s.progs.length ++ le 2 (n fun q => q.st == 3) ++ le 2 (n fun q => q.st == 4) ++ le 2 (n fun q => q.st == 6 || q.st == 7) ++
  le 4 s.streams.length ++ le 2 s.hp.regions.length ++ le 2 s.fab.expose.length ++ le 2 s.dc.unread ++ le 2 s.errNew ++
  le 4 p.mean ++ le16s p.tjmax ++ le 1 thr ++ zeros 1 ++ allPorts.flatMap (fun q => le 2 (s.box q).stage.length) ++ zeros 6

/-- Take a snapshot: its number goes up. [DESIGN CHOICE, log 130] -/
def takeSnap (s : State) : List Byte × State := (s.snapBytes, { s with dc := { s.dc with snapSeq := s.dc.snapSeq + 1 } })

/-- A write of `DC_SNAP`: with REQ set, the snapshot stands in BAR0 (the model's snapshot takes no time, so BUSY reads 0).
[DESIGN CHOICE, log 130] -/
def dcSnap (s : State) (v : W32) : State :=
  if v.getLsbD 31 then
    let (bs, s) := s.takeSnap
    { s with dc := { s.dc with snap := bs } }
  else s

/-! ## Aborts (R456 to R458) -/

/-- The status of an abort by its target's state at arrival (R457), and the programs it stops. [DEDUCED, log 131] -/
def abortTarget (s : State) (kind h : Nat) : Nat × List Nat :=
  match kind with
  | 0 =>
    match s.prog h with
    | some p => if 1023 < h then (St.badField, []) else if p.active then (St.ok, [h]) else (St.badState, [])
    | none => (St.badField, [])
  | 1 | 2 => (St.ok, (s.progs.filter fun p => p.2.active).map (·.1))
  | _ => (St.badField, [])

/-- Streams of partners are cancelled with the long commands they serve. -/
def cancelPartners (s : State) : State :=
  (s.streams.filter fun x => match x.2.owner with | .partner _ => true | .prog _ => false).foldl
    (fun (s : State) x =>
      let s := s.cancelAny x.1
      if x.2.long.isSome then { s with streams := SMap.del s.streams x.1 } else s) s

/-- Device firmware stops the targets of an abort. -/
def abortFw (s : State) (j : AbortJob) : State :=
  if j.status != St.ok then s else
  let s := j.targets.foldl (fun (s : State) h => s.stopProgram h 7) s
  if j.kind = 2 then s.cancelPartners else s

/-- The hardware path: cores halted, running descriptors cancelled, targets recorded in the kill mask.
[DEDUCED, log 131] -/
def abortHw (s : State) (j : AbortJob) : State :=
  if j.status != St.ok then s else
  let s := j.targets.foldl (fun (s : State) h =>
    let s := match s.prog h with
      | some p => if p.st = 3 then p.cores.foldl (fun (s : State) c => s.haltCore c h 5) s else s
      | none => s
    (s.streams.filter fun x => decide (x.2.owner = .prog h)).foldl (fun (s : State) x => s.cancelStream x.1) s) s
  let s : State := { s with dc := { s.dc with kill := s.dc.kill ++ j.targets.filter fun h => !s.dc.kill.contains h } }
  if j.kind = 2 then s.cancelPartners else s

def abortBytes (j : AbortJob) (hw : Bool) : List Byte := le 2 j.targets.length ++ le 1 (if hw then 1 else 0)

/-- An abort completes: the event, and the register's completion with MSI-X vector 2 or the mailbox's response.
[DEDUCED, log 131] -/
def abortDone (s : State) (hw : Bool) (j : AbortJob) : State :=
  let s := s.event 10 j.status (BitVec.ofNat 64 (if j.kind = 0 then j.handle else 0xFFFF)) (if hw then 1 else 0)
  if j.viaReg then
    ({ s with dc := { s.dc with abortGo := false, abStatus := j.status, abHw := hw, abDone := true } }).emit (.msix 2)
  else s.respond j.port j.tag j.status (abortBytes j hw) 0 (if j.status = St.badField then 2 else 0)

def sameAbort (a b : AbortJob) : Bool := a.kind == b.kind && a.handle == b.handle

/-- An abort arrives: it joins one of the same target that is in progress, is done by firmware, or waits for its watchdog.
[DEDUCED, log 131] -/
def abortArrive (s : State) (j : AbortJob) (prompt : Bool) : State :=
  match s.dc.aborts.find? (sameAbort j) with
  | some k => { s with dc := { s.dc with aborts := s.dc.aborts ++ [{ j with status := k.status, targets := k.targets }] } }
  | none =>
    let (e, ts) := s.abortTarget j.kind j.handle
    let j := { j with status := e, targets := ts }
    if prompt then (s.abortFw j).abortDone false j
    else { s with dc := { s.dc with aborts := s.dc.aborts ++ [j] } }

/-- ABORT_WATCHDOG: 40 µs have passed (R458). -/
def abortWatch (s : State) (ix : Nat) : State :=
  match s.dc.aborts[ix]? with
  | none => s
  | some j =>
    if s.now < j.arrived + 96000 then s else
    let js := s.dc.aborts.filter (sameAbort j)
    let s := ({ s with dc := { s.dc with aborts := s.dc.aborts.filter fun k => !sameAbort j k } }).abortHw j
    js.foldl (fun (s : State) k => s.abortDone true k) s

/-- A 32-bit write of `DC_ABORT`. [DESIGN CHOICE, log 132] -/
def dcAbort (s : State) (v : W32) (prompt : Bool) : State :=
  if v.getLsbD 31 && s.dc.abortGo then { s with dc := { s.dc with abOvr := true } } else
  let kind := fld v 17 16; let h := fld v 9 0
  let s : State := { s with dc := { s.dc with abKind := kind, abHandle := h } }
  if !v.getLsbD 31 then s else
  ({ s with dc := { s.dc with abortGo := true } }).abortArrive ⟨true, .host, 0, kind, h, 0, [], s.now⟩ prompt

end State

/-- CMD_ABORT; `prompt` when firmware completes it within 40 µs. -/
def cmdAbort (prompt : Bool) : Cmd :=
  { op := 0x0F00, boxes := allPorts, len := 4, launch := false, trim := fun _ => false,
    check := fun m => [(0, decide (rd (pay m) 0 1 < 3)), zeroAt m 1 1],
    run := fun m s =>
      let kind := rd (pay m) 0 1; let h := rd (pay m) 2 2
      let j : AbortJob := ⟨false, m.port, m.tag, kind, h, 0, [], s.now⟩
      if prompt && !s.dc.aborts.any (State.sameAbort j) then
        let (e, ts) := s.abortTarget kind h
        let j := { j with status := e, targets := ts }
        let s := (s.abortFw j).event 10 e (BitVec.ofNat 64 (if kind = 0 then h else 0xFFFF)) 0
        (.now e (State.abortBytes j false) 0 (if e = St.badField then 2 else 0), s)
      else (.later, s.abortArrive j false) }

/-! ## Block resets (R480, R381) -/

/-- The numbers of R454 that name a block. -/
def blockNo (b : Nat) : Bool :=
  decide (b ≤ 0x0B) || (decide (0x10 ≤ b) && decide (b ≤ 0x21)) || (decide (0x30 ≤ b) && decide (b ≤ 0x37)) ||
  (decide (0x40 ≤ b) && decide (b ≤ 0x5F))

namespace State

/-- Streams of a slice with a descriptor running. -/
def sliceRuns (s : State) (t : Nat) : List Nat :=
  (s.streams.filter fun x => x.1 % 16 == t && (match x.2.run with | some r => !r.fin | none => false)).map (·.1)

/-- The idle condition of a block. -/
def blockIdle (s : State) (b : Nat) : Bool :=
  if b ≤ 0x0B then !s.atoms.any fun a => State.atomUnit a.op.addr == b
  else if b ≤ 0x21 then (s.link (2 * (b - 0x10))).replay.isEmpty && (s.link (2 * (b - 0x10) + 1)).replay.isEmpty
  else if b ≤ 0x37 then (s.igEngine (b - 0x30)).run.isNone
  else if b ≤ 0x4F then (s.sliceRuns (b - 0x40)).isEmpty
  else (s.stem (b - 0x50)).run.isNone

/-- One request of a block ends with `ST_BLOCK_RESET`. [DEDUCED, log 133] -/
def countOne (s : State) (b : Nat) : State := s.countDown b

/-- Descriptor running on stream `st` ends with `ST_BLOCK_RESET` and stops its stream (R332). [DEDUCED, log 133] -/
def resetRun (s : State) (b st : Nat) : State :=
  let s := s.tr.buckets.foldl (fun (s : State) k =>
    match k.2.run with
    | some r => if r.st = some st then s.stepFail k.1 St.blockReset else s
    | none => s) s
  let s := (s.dropConts (Cont.ofStream st)).modRun st fun r => { r with
    wait := 0, struck := true }
  (s.finish st St.blockReset).countOne b

/-- Step 3: the block's logic and registers are reset, and what is in flight to it ends. [DEDUCED, log 133] -/
def blockFall (s : State) (b : Nat) : State :=
  if b ≤ 0x0B then
    let s := (s.atoms.filter fun a => State.atomUnit a.op.addr == b).foldl (fun (s : State) a =>
      (({ s with atoms := s.atoms.filter fun x => x.uid != a.uid }).atomDone a St.blockReset 0).countOne b) s
    s.setMc b { s.mc b with trained := 0, ueAddr := 0 }
  else if b ≤ 0x21 then
    let n := b - 0x10
    let s := s.setPort n { s.bvPort n with erra := 0, errb := 0 }
    let s := (s.setLink (2 * n) Link.down).setLink (2 * n + 1) Link.down
    let s := (s.linksOf n 0).foldl (fun (s : State) l => s.linkTrain l) s
    (s.fab.outst.filter fun r => r.2.link / 2 == n).foldl (fun (s : State) r =>
      ((s.untag r.1).complete r.2 St.blockReset []).countOne b) s
  else if b ≤ 0x37 then
    if (s.igEngine (b - 0x30)).run.isSome then (s.stopClip (b - 0x30) St.blockReset).countOne b else s
  else if b ≤ 0x4F then (s.sliceRuns (b - 0x40)).foldl (fun (s : State) st => s.resetRun b st) s
  else
    let e := b - 0x50
    (State.stemJobs (s.stem e)).foldl (fun (s : State) j =>
      (s.progFault j.core j.handle j.pc j.frame ⟨8, 7, 0, St.blockReset, e⟩).countOne b) s

/-- The Lamplighter resets a block that is marked, `idle` when it became idle in time. -/
def blockReset (s : State) (b : Nat) (idle : Bool) : State :=
  match SMap.get? s.blocks b with
  | some k =>
    if k.phase != 1 then s
    else ({ s with blocks := SMap.put s.blocks b { k with phase := 2, idle := idle } }).blockFall b
  | none => s

def blockIdleEvent (s : State) (b : Nat) : State := if s.blockIdle b then s.blockReset b true else s

def blockTmo (s : State) (b : Nat) : State :=
  match SMap.get? s.blocks b with
  | some k => if k.since + k.tmo * 2400 ≤ s.now && !s.blockIdle b then s.blockReset b false else s
  | none => s

/-- Step 5: the block is available again, and the result is written. [DEDUCED, log 133] -/
def blockBack (s : State) (b : Nat) : State :=
  match SMap.get? s.blocks b with
  | some k =>
    if k.phase != 2 then s else
    let s : State := { s with blocks := SMap.del s.blocks b }
    let s := if b ≤ 0x0B then s.setMc b { s.mc b with trained := 0xFF } else s
    s.endLong k.st St.ok ((if k.idle then 1 else 0) + k.count * 2 ^ 32) true
  | none => s

end State

/-- CMD_RESET: its mailboxes follow its KIND. -/
def cmdReset (m : MbxCmd) : Cmd :=
  { op := 0x0F01, boxes := if rd (pay m) 0 1 = 1 then [.host, .fm, .svc] else [.host, .bmc, .fm, .svc], len := 0x10, launch := false,
    trim := fun _ => false,
    check := fun m =>
      let p := pay m
      [(0, decide (rd p 0 1 < 2))] ++ (if rd p 0 1 = 1 then [(1, blockNo (rd p 1 1))] else []) ++ [zeroAt m 2 2] ++
      if rd p 0 1 = 1 then [(4, rd p 4 4 == 0 || (decide (10 ≤ rd p 4 4) && decide (rd p 4 4 ≤ 100000))), (8, resultOk (rd p 8 8))]
      else [],
    run := fun m s =>
      let p := pay m
      let b := rd p 1 1
      if rd p 0 1 = 0 then (.silent, s.takeReset 7)
      else if s.blockDown b || (b ≤ 0x0B && s.regions.any fun r => decide (r.2.base < lpEnd)) then (.refuse St.badState, s)
      else
        match s.beginLong m 0x0F01 (rd p 8 8) (.blockReset b) with
        | some (n, s) =>
          (.accepted n, { s with blocks := SMap.put s.blocks b ⟨1, n, s.now, orDefault (rd p 4 4) 1000, false, 0⟩ })
        | none => (.refuse St.badState, s) }

def cmdSnapshot : Cmd :=
  { op := 0x0F02, boxes := allPorts, len := 0, launch := false, trim := fun _ => false, check := fun _ => [],
    run := fun _ s =>
      let (bs, s) := s.takeSnap
      (.ok bs, s) }

def execCmdInfoDevice (m : MbxCmd) (s : State) : Host.Outcome State Fault Refusal := .next (s.issueCmd infoDevice m)
def execCmdInfoInventory (m : MbxCmd) (s : State) : Host.Outcome State Fault Refusal := .next (s.issueCmd infoInventory m)
def execCmdInfoConfig (m : MbxCmd) (s : State) : Host.Outcome State Fault Refusal := .next (s.issueCmd infoConfig m)
def execCmdAbort (m : MbxCmd) (prompt : Bool) (s : State) : Host.Outcome State Fault Refusal := .next (s.issueCmd (cmdAbort prompt) m)
def execAbortWatchdog (ix : Nat) (s : State) : Host.Outcome State Fault Refusal := .next (s.abortWatch ix)
def execDcAbort (v : W32) (prompt : Bool) (s : State) : Host.Outcome State Fault Refusal :=
  .next (if s.hp.link = 2 then s.touch.dcAbort v prompt else s)
def execDcSnapReq (v : W32) (s : State) : Host.Outcome State Fault Refusal := .next (if s.hp.link = 2 then s.touch.dcSnap v else s)
def execCmdReset (m : MbxCmd) (s : State) : Host.Outcome State Fault Refusal := .next (s.issueCmd (cmdReset m) m)
def execCmdSnapshot (m : MbxCmd) (s : State) : Host.Outcome State Fault Refusal := .next (s.issueCmd cmdSnapshot m)
def execBlockResetIdle (b : Nat) (s : State) : Host.Outcome State Fault Refusal := .next (s.blockIdleEvent b)
def execBlockResetTmo (b : Nat) (s : State) : Host.Outcome State Fault Refusal := .next (s.blockTmo b)
def execBlockReinitialised (b : Nat) (s : State) : Host.Outcome State Fault Refusal := .next (s.blockBack b)

end Sys2Proof.Machine
end

