-- ==== Sys2Proof/Machine/Trust.lean ====
section
/-! DEFINITION. Sys2Proof/Machine/Trust.lean: the security commands (R501 to R507), updates (R495 to R500), the error log's reader (R516),
the service Ethernet ports (R508 to R510), the management port (R512) and debug locks (R505). -/

namespace Sys2Proof.Machine

def secBoxes : List Port := [.host, .bmc, .svc]

namespace State

/-! ## The SEC registers' values -/

def bit (b : Bool) (i : Nat) : Nat := if b then 2 ^ i else 0

/-- `SEC_STATE`. -/
def secState (s : State) : Nat :=
  let t := s.tru
  let src := if strapMode s.pw.code = 2 then 2 else if strapEth s.pw.code then 1 else 0
  src + bit (t.fwslot = 1) 2 + bit (BootHdr.pend t.hdr 0) 3 + bit (t.calslot = 1) 4 + bit (BootHdr.pend t.hdr 1) 5 +
  bit t.session.isSome 8 + bit t.owner.isSome 9 + t.debug % 4 * 2 ^ 10 + min 15 t.ownchg * 2 ^ 16

/-- `SEC_SVN`. -/
def secSvn (s : State) : Nat := s.tru.fwsvn + s.tru.calsvn * 2 ^ 8 + rd s.tru.runHdr 0x10 4 % 256 * 2 ^ 16

/-- The sources of measurements 2 to 4 (R507), and the owner chain. -/
def measured (s : State) : List Byte :=
  s.tru.runHdr.take 0x180 ++ s.tru.calHdr.take 0x180 ++ le 4 s.secState ++ le 4 s.secSvn ++ le 4 s.tru.keyrev.toNat ++
  le 48 (match s.tru.owner with | some o => o.toNat | none => 0) ++ zeros 4 ++ s.tru.chain.getD []

/-! ## SPDM (R506) -/

/-- Answer an SPDM message of connection `k`; GET_VERSION starts its transcript anew. A signed request for every measurement
over a mailbox gets ERROR InvalidRequest (R507). -/
def spdm (s : State) (k : Nat) (boxed : Bool) (msg : List Byte) : List Byte × State :=
  let old := if rd msg 1 1 = 0x84 then [] else SMap.getD s.tru.spdm k []
  let ans := if boxed && rd msg 1 1 = 0xE0 && rd msg 2 1 % 2 = 1 && rd msg 3 1 = 0xFF then [0x12, 0x7F, 0x01, 0x00]
    else Config.spdmAnswer old s.measured msg
  (ans, { s with tru := { s.tru with spdm := SMap.put s.tru.spdm k (old ++ [msg]) } })

/-! ## Security records (R502, R503) -/

/-- Bytes of a record that its command and OP leave zero. -/
def secZero (r : List Byte) (owner dbg sess : Bool) (op : Nat) : Bool :=
  let z (b : Bool) (off n : Nat) : Bool := b || (sub r off n).all (· == 0)
  rd r 0x2A 2 == 0 && rd r 0x3C 4 == 0 && z false 0x70 16 && z dbg 0x29 1 && z sess 0x2C 4 &&
  z (owner && op == 3) 0x30 8 && z (owner && op == 3) 0x38 4 && z (owner && op == 3) 0x40 48 &&
  z ((owner && op < 2) || dbg || sess) 0x80 96 && z (owner && op != 0) 0xE0 96 && z (owner && op < 2) 0x140 96 &&
  z (!(owner && op == 0)) 0x1A0 96

/-- Fields of a record that have a range. -/
def secRange (s : State) (r : List Byte) (owner dbg sess : Bool) (op : Nat) : Bool :=
  (if owner then decide (op < 4) else op == 1) &&
  (!dbg || rd r 0x29 1 == 1 || rd r 0x29 1 == 2) &&
  (!sess || (decide (60 ≤ rd r 0x2C 4) && decide (rd r 0x2C 4 ≤ 86400))) &&
  (!(owner && op == 3) || (decide (1 ≤ rd r 0x38 4) && decide (rd r 0x38 4 ≤ 16384) && gvalid (rd r 0x30 8) &&
    gdev (rd r 0x30 8) == s.fab.devnum))

/-- Does the signature at `off` of a record verify under `key`? -/
def signed (r key : List Byte) (off : Nat) : Bool := Config.ecdsaOk key (sub r off 96) (Config.sha384 (r.take 0x140))

/-- Is a key the owner's, or the service authority's where there is no owner? -/
def ownerKey (t : Trust) (key : List Byte) : Bool :=
  match t.owner with | some o => Config.sha384 key == o | none => Config.sha384 key == Config.svcHash

/-- What a security command answers: a refusal is logged (R514, code 0x10). [DEDUCED, log 134] -/
def secAnswer (s : State) (a : Ans) : Ans × State :=
  match a with
  | .now e _ _ _ => if e = St.ok then (a, s) else (a, s.logErr 0x82 0x10 0 e)
  | _ => (a, s)

/-- Read and check a record up to its nonce, its serial and the signatures that every command shares.
[DEDUCED, log 134] -/
def withRecord (s : State) (m : MbxCmd) (owner dbg sess : Bool) (k : State → List Byte → Nat → Ans × State) : Ans × State :=
  let g := rd (pay m) 0 8
  if !resultOk g || gdev g != s.fab.devnum then s.secAnswer (.bad 0) else
  let (e, bs) := s.extRead (gloc g) 512
  if e != St.ok then s.secAnswer (if e = St.unmapped then .bad 0 else .refuse e)
  else if bs.any (·.2) then s.secAnswer (.refuse St.poisoned)
  else
    let r := bs.map (·.1)
    let op := rd r 0x28 1
    if !secRange s r owner dbg sess op || !secZero r owner dbg sess op then s.secAnswer (.bad 0) else
    match SMap.get? s.tru.nonces (portNo m.port) with
    | some (n, till) =>
      if rd r 0 32 != n.toNat || till ≤ s.now then s.secAnswer (.refuse St.notAuthorised) else
      let s : State := { s with tru := { s.tru with nonces := SMap.del s.tru.nonces (portNo m.port) } }
      if rd r 0x20 8 != Config.serial.toNat then s.secAnswer (.refuse St.notAuthorised) else k s r op
    | none => s.secAnswer (.refuse St.notAuthorised)

/-- The owner hash changes (R504). -/
def setOwner (s : State) (o : Option (BitVec 384)) (keepChain : Bool) : State :=
  { s with
    tru := { s.tru with owner := o, ownchg := s.tru.ownchg + 1, chain := if keepChain then s.tru.chain else none }
    pw := { s.pw with pulse := match s.pw.pulse with | some p => some p | none => some 6 } }

/-- [DEDUCED, log 134] -/
def ownerRun (m : MbxCmd) (s : State) : Ans × State :=
  s.withRecord m true false false fun s r op =>
    let key := sub r 0x80 96; let cur := sub r 0xE0 96
    let no := s.secAnswer (.refuse St.notAuthorised)
    if (op = 0) != s.tru.owner.isNone then s.secAnswer (.refuse St.badState)
    else if op < 3 && 16 ≤ s.tru.ownchg then s.secAnswer (.refuse St.badState)
    else if op != 0 && !(match s.tru.owner with | some o => Config.sha384 cur == o | none => false) then no
    else if op < 2 && !signed r key 0x140 then no
    else if op != 0 && !signed r cur 0x1A0 then no
    else match op with
    | 0 => (.ok, s.setOwner (some (Config.sha384 key)) true)
    | 1 => (.ok, s.setOwner (some (Config.sha384 key)) false)
    | 2 => (.ok, s.setOwner none false)
    | _ =>
      let (e, bs) := s.extRead (gloc (rd r 0x30 8)) (rd r 0x38 4)
      if e != St.ok then s.secAnswer (if e = St.unmapped then .bad 0 else .refuse e)
      else if bs.any (·.2) then s.secAnswer (.refuse St.poisoned)
      else
        let c := bs.map (·.1)
        if !hashIs (sub r 0x40 48) (Config.sha384 c) then no
        else if !Config.chainOk c then s.secAnswer (.bad 0)
        else (.ok, { s with
          tru := { s.tru with chain := some c }
          pw := { s.pw with pulse := match s.pw.pulse with | some p => some p | none => some 9 } })

/-- [DEDUCED, log 134] -/
def debugRun (m : MbxCmd) (s : State) : Ans × State :=
  if s.tru.dbglock then s.secAnswer (.refuse St.notAuthorised) else
  s.withRecord m false true false fun s r _ =>
    let key := sub r 0x80 96
    if !ownerKey s.tru key || !signed r key 0x1A0 then s.secAnswer (.refuse St.notAuthorised)
    else (.ok, { s with tru := { s.tru with debug := rd r 0x29 1 } })

/-- OP 0 carries no record: a command without payload (R517). [DEDUCED, log 134, 135] -/
def sessionRun (m : MbxCmd) (s : State) : Ans × State :=
  if m.len = 0 then (.ok, { s with tru := { s.tru with session := none } }) else
  s.withRecord m false false true fun s r _ =>
    let key := sub r 0x80 96
    if !ownerKey s.tru key || !signed r key 0x1A0 then s.secAnswer (.refuse St.notAuthorised)
    else
      let n := if s.tru.sessNo + 1 = 0 then 1 else s.tru.sessNo + 1
      (.ok (le 4 n.toNat), { s with tru := { s.tru with
        sessNo := n, session := some ⟨n, s.now + rd r 0x2C 4 * 2400000000, s.tru.rspPort⟩ } })

end State

def secSpdm : Cmd :=
  { op := 0x0800, boxes := allPorts, len := 8, launch := false, trim := fun _ => false,
    check := fun m =>
      let n := rd (pay m) 0 2
      [(0, decide (4 ≤ n) && decide (n ≤ 232) && decide (8 + n ≤ m.len)), zeroAt m 2 6],
    run := fun m s =>
      let (ans, s) := s.spdm (portNo m.port) true (sub (pay m) 8 (rd (pay m) 0 2))
      let ans := ans.take 232
      (.ok (le 2 ans.length ++ zeros 6 ++ ans), s) }

def secNonce : Cmd :=
  { op := 0x0801, boxes := allPorts, len := 0, launch := false, trim := fun _ => false, check := fun _ => [],
    run := fun m s =>
      let n := Config.nonce s.tru.nonceNo
      (.ok (le 32 n.toNat), { s with tru := { s.tru with
        nonceNo := s.tru.nonceNo + 1, nonces := SMap.put s.tru.nonces (portNo m.port) (n, s.now + 60 * 2400000000) } }) }

def secOwner : Cmd :=
  { op := 0x0802, boxes := secBoxes, len := 8, launch := false, trim := fun _ => false, check := fun _ => [], run := State.ownerRun }

def secDebug : Cmd :=
  { op := 0x0803, boxes := [.svc, .jtag], len := 8, launch := false, trim := fun _ => false, check := fun _ => [],
    run := State.debugRun }

def secSession : Cmd :=
  { op := 0x0804, boxes := [.svc], len := 0, launch := false, trim := fun _ => false,
    check := fun m => [(0, m.len == 0 || decide (8 ≤ m.len))], run := State.sessionRun }

/-! ## Updates (R495 to R500) -/

namespace State

/-- A pulse of the store begins, unless one is under way. [DEDUCED, log 129] -/
def startPulse (s : State) (code : Nat) : State := if s.pw.pulse.isSome then s else s.modPw fun p => { p with pulse := some code }

/-- [DEDUCED, log 136] -/
def stageRun (m : MbxCmd) (s : State) : Ans × State :=
  let g := rd (pay m) 0 8; let n := rd (pay m) 8 4
  let (e, bs) := s.extRead (gloc g) 1024
  if s.tru.busy != 0 then (.refuse St.badState, s)
  else if e != St.ok then (if e = St.unmapped then .bad 0 else .refuse e, s)
  else if bs.any (·.2) then (.refuse St.poisoned, s)
  else
    let h := bs.map (·.1)
    let kind := rd h 6 1
    match hdrCheck s.tru h kind (n - 1024) with
    | 0 =>
      let slot := 1 - BootHdr.act s.tru.hdr kind
      match s.beginLong m 0x0810 (rd (pay m) 0x10 8) (.fwStage kind slot (gloc g) n) with
      | some (st, s) =>
        (.accepted st, ({ s with tru := { s.tru.setImg kind slot none with busy := 1 } }).startPulse (2 + 2 * (kind % 2) + slot))
      | none => (.refuse St.badState, s)
    | 1 | 6 => (.refuse St.corruptInput, s)
    | _ => (.refuse St.notAuthorised, s)

/-- The staged image is in its slot: it is checked, and its header written last. [DEDUCED, log 136] -/
def stageDone (s : State) (st kind slot src len : Nat) : State :=
  if s.pw.pulse.isSome then s else
  let (e, bs) := s.extRead src len
  let img : Img := ⟨(bs.map (·.1)).take 1024, (bs.map (·.1)).drop 1024⟩
  let status := if e != St.ok then stOf e else if bs.any (·.2) then St.poisoned else
    if imgCheck s.tru kind img = 0 then St.ok else St.corruptInput
  let t := { s.tru with busy := 0 }
  ({ s with tru := if status = St.ok then t.setImg kind slot (some img) else t }).endLong st status 0 true

/-- [DEDUCED, log 137] -/
def activateRun (m : MbxCmd) (s : State) : Ans × State :=
  let kind := rd (pay m) 0 1; let mode := rd (pay m) 1 1
  let slot := 1 - BootHdr.act s.tru.hdr kind
  let hand := match s.tru.img kind slot with | some i => rd i.hdr 0x18 2 == rd s.tru.runHdr 0x18 2 | none => false
  if s.tru.busy != 0 || slotCheck s.tru kind slot != 0 || BootHdr.pend s.tru.hdr kind || (mode = 0 && kind = 0 && !hand) then
    (.refuse St.badState, s)
  else
    match s.beginLong m 0x0811 (rd (pay m) 8 8) (.fwActivate (if mode = 0 && kind = 0 && s.dc.dstate != 3 then 0 else 1) slot) with
    | some (st, s) =>
      let next := s.tru.hdrNext
      let t := s.tru.writeHdr fun h => h.set kind slot true
      let now := mode = 0 && kind = 0 && s.dc.dstate != 3
      let t := { t with
        busy := 2, handover := if now then some slot else none,
        banks := if now then (match t.img 0 slot with | some i => t.banks.set (1 - t.bank) i.body | none => t.banks) else t.banks }
      (.accepted st, ({ s with tru := t }).startPulse next)
    | none => (.refuse St.badState, s)

/-- HAND_OVER_POINT: the header is written and the record stands; the new bank runs (R496 step 4). -/
def handOver (s : State) : State :=
  match s.tru.handover with
  | some slot =>
    if s.pw.pulse.isSome then s else
    let h := match s.tru.img 0 slot with | some i => i.hdr | none => s.tru.runHdr
    { s with
      tru := { s.tru with handover := none, handAt := some s.now, bank := 1 - s.tru.bank, fwslot := slot, runHdr := h }
      dc := { s.dc with fwok := false } }
  | none => s

/-- An activation has come to its end. [DEDUCED, log 137] -/
def activateDone (s : State) (st sel : Nat) : State :=
  if sel = 0 then
    if s.tru.handAt.isNone then s else
    let s : State := { s with tru := { s.tru with handAt := none, busy := 0 }, dc := { s.dc with fwok := true } }
    s.endLong st St.ok (rd s.tru.runHdr 8 8) true
  else if s.pw.pulse.isSome then s
  else ({ s with tru := { s.tru with busy := 0 } }).endLong st St.ok 0 true

/-- HANDOVER_HEARTBEAT_TIMEOUT: 10 ms without an answer (R497). -/
def handTimeout (s : State) : State :=
  match s.tru.handAt with
  | some t => if t + 10 * msCycles ≤ s.now then s.takeReset 5 else s
  | none => s

def confirmRun (m : MbxCmd) (s : State) : Ans × State :=
  let kind := rd (pay m) 0 1
  if !BootHdr.pend s.tru.hdr kind then (.refuse St.badState, s) else
  let next := s.tru.hdrNext
  let svn := rd (if kind = 0 then s.tru.runHdr else s.tru.calHdr) 0x10 4
  let t := s.tru.writeHdr fun h => h.set kind (BootHdr.act h kind) false
  (.later, ({ s with tru := { t with confirm := some ⟨kind, svn, m.port, m.tag⟩ } }).startPulse next)

/-- Version and SVN of a firmware slot, all ones when it holds no valid image. [DEDUCED, log 137] -/
def slotVer (s : State) (slot : Nat) : List Byte × List Byte :=
  match slotCheck s.tru 0 slot, s.tru.img 0 slot with
  | 0, some i => (sub i.hdr 8 8, sub i.hdr 0x10 4)
  | _, _ => (List.replicate 8 0xFF, List.replicate 4 0xFF)

end State

def fwStage : Cmd :=
  { op := 0x0810, boxes := secBoxes, len := 0x18, launch := false, trim := fun _ => false,
    check := fun m =>
      let p := pay m
      [(0, rd p 0 8 % 4096 == 0 && gvalid (rd p 0 8)), (8, decide (1024 ≤ rd p 8 4)), zeroAt m 0xC 4, (0x10, resultOk (rd p 0x10 8))],
    run := fun m s => if gdev (rd (pay m) 0 8) != s.fab.devnum then (.bad 0, s) else s.stageRun m }

def fwActivate : Cmd :=
  { op := 0x0811, boxes := secBoxes, len := 0x10, launch := false, trim := fun _ => false,
    check := fun m =>
      let p := pay m
      [(0, decide (rd p 0 1 < 2)), (1, decide (rd p 1 1 < 2)), zeroAt m 2 6, (8, resultOk (rd p 8 8))],
    run := State.activateRun }

def fwConfirm : Cmd :=
  { op := 0x0812, boxes := secBoxes, len := 8, launch := false, trim := fun _ => false,
    check := fun m => [(0, decide (rd (pay m) 0 1 < 2)), zeroAt m 1 7], run := State.confirmRun }

def fwStatus : Cmd :=
  { op := 0x0813, boxes := allPorts, len := 0, launch := false, trim := fun _ => false, check := fun _ => [],
    run := fun _ s =>
      let h := s.tru.hdr
      let a := s.slotVer 0; let b := s.slotVer 1
      (.ok ([h.fwact, h.fwpend, h.calact, h.calpend] ++ le 1 s.tru.busy ++ zeros 3 ++ a.1 ++ b.1 ++ a.2 ++ b.2), s) }

/-! ## The error log (R514, R516) -/

/-- The 64 bytes of an entry. -/
def ErrEntry.bytes (e : ErrEntry) : List Byte :=
  let b := le 4 e.seq.toNat ++ le 1 e.sev ++ le 1 e.source ++ le 2 e.code ++ le 8 e.time.toNat ++ le 4 e.boot.toNat ++
    le 4 e.count.toNat ++ le 8 e.addr.toNat ++ le 2 e.status ++ zeros 2 ++ fit 24 e.data
  b ++ le 4 (crc32 b)

/-- [DEDUCED, log 139] -/
def errlogRead : Cmd :=
  { op := 0x0900, boxes := allPorts, len := 8, launch := false, trim := fun _ => false,
    check := fun m =>
      let p := pay m
      [(0, decide (rd p 0 1 < 3)), (1, rd p 0 1 == 2 || (decide (1 ≤ rd p 1 1) && decide (rd p 1 1 ≤ 3))), zeroAt m 2 2],
    run := fun m s =>
      let p := pay m
      let seq := BitVec.ofNat 32 (rd p 4 4)
      let k := portNo m.port
      let move (s : State) (c : W32) : State := { s with tru := { s.tru with cursors := SMap.put s.tru.cursors k c } }
      if rd p 0 1 = 2 then (.ok (le 1 0 ++ zeros 3 ++ le 4 seq.toNat), move s seq) else
      let c := if rd p 0 1 = 0 then SMap.getD s.tru.cursors k 0 else seq
      let es := (s.tru.log.filter fun e => decide ((e.seq - c).toNat < 2 ^ 31)).take (rd p 1 1)
      let next := match es.getLast? with | some e => e.seq + 1 | none => c
      (.ok (le 1 es.length ++ zeros 3 ++ le 4 next.toNat ++ es.flatMap ErrEntry.bytes), if rd p 0 1 = 0 then move s next else s) }

/-! ## Service Ethernet (R508 to R510, R517) -/

def svcNetCmd : Cmd :=
  { op := 0x0901, boxes := secBoxes, len := 0x14, launch := false, trim := fun _ => false,
    check := fun m =>
      let p := pay m
      [(0, decide (rd p 0 1 < 2)), (1, decide (rd p 1 1 < 2)), zeroAt m 2 2],
    run := fun m s =>
      let p := pay m
      let w (off : Nat) : W32 := BitVec.ofNat 32 (rd p off 4)
      s.stage m.port (.svcNet (rd p 0 1) (rd p 1 1) (w 4) (w 8) (w 0xC) (w 0x10)) }

namespace State

/-- Are the service Ethernet ports trained: firmware or the recovery monitor has passed step 7, or the boot ROM fetches an image? -/
def svcUp (s : State) : Bool :=
  !s.inHold && decide (2 ≤ s.pw.pstate || s.pw.seq == some 4) && (s.pw.seq.isNone || s.pw.seq == some 4)

/-- ANNOUNCE answers DISCOVER. -/
def announce (s : State) (port : Nat) : State :=
  if !s.svcUp || 2 ≤ port then s else
  s.svcSend port 2 (le 8 Config.serial.toNat ++ le 8 (rd s.tru.runHdr 8 8) ++ le 1 s.dc.dstate ++ le 1 s.pw.code ++ le 1 port ++
    zeros 5 ++ le 6 (Config.mac port).toNat ++ zeros 2)

/-! ### The image fetch -/

/-- The image that a fetch has brought, when it is whole. [DEDUCED, log 140] -/
def fetched (f : ImgFetch) : Option (List Byte) :=
  match f.len with
  | some n =>
    if f.out.any (fun o => o.1 < n) then none
    else some (((f.bytes.filter fun b => b.1 < n).flatMap (·.2)).take n)
  | none => none

/-- A whole image is checked and started, or the device enters recovery (R491, R493). [DEDUCED, log 140] -/
def imgBoot (s : State) (bs : List Byte) : State :=
  let i : Img := ⟨bs.take 1024, bs.drop 1024⟩
  let c := imgCheck s.tru 0 i
  let k := BootHdr.act s.tru.hdr 1
  let s : State := { s with tru := { s.tru with fetch := none } }
  let s : State := match s.tru.img 1 k with | some j => { s with tru := { s.tru with calslot := k, calHdr := j.hdr } } | none => s
  if c = 0 then (s.runImage i).firmwareUp else (s.logErr 0x81 9 0 0 (le 24 c)).recover false

/-- IMG_DATA: a block, or with no bytes the end of the image. -/
def imgData (s : State) (off : Nat) (data : List Byte) : State :=
  match s.tru.fetch with
  | none => s
  | some f =>
    if s.pw.seq != some 4 || (SMap.get? f.out off).isNone || 1024 < data.length then s else
    let f := { f with out := SMap.del f.out off, lastRx := s.now }
    let f := if data.isEmpty then { f with len := some (match f.len with | some n => min n off | none => off) }
      else { f with bytes := SMap.put f.bytes off data }
    let s := imgPump 16 { s with tru := { s.tru with fetch := some f } }
    match s.tru.fetch.bind fetched with | some bs => s.imgBoot bs | none => s

def imgRetry (s : State) (off : Nat) : State :=
  match s.tru.fetch with
  | some f =>
    match SMap.get? f.out off with
    | some t => if s.pw.seq = some 4 && t + 200 * msCycles ≤ s.now then s.imgRequest off else s
    | none => s
  | none => s

/-- 30 s without a reply: recovery, and a log entry (the spec names no code for it; DATA names no check).
[DEDUCED, log 140] -/
def imgTimeout (s : State) : State :=
  match s.tru.fetch with
  | some f =>
    if s.pw.seq = some 4 && f.lastRx + 30000 * msCycles ≤ s.now then
      (({ s with tru := { s.tru with fetch := none } }).logErr 0x81 9 0 St.timeout).recover false
    else s
  | none => s

/-! ### ARP, echo, console text -/

/-- The address of a port: the static one, or the one DHCPv4 gave it. -/
def svcAddr (s : State) (port : Nat) : W32 :=
  let n := SMap.getD s.tru.net port SvcNet.dhcp
  if n.mode = 1 then n.addr else Config.dhcpAddr port

def arp (s : State) (port : Nat) (ip : W32) : State :=
  if s.svcUp && port < 2 && s.svcAddr port == ip then s.emit (.arp port ip) else s

def echo (s : State) (port : Nat) (data : List Byte) : State := if s.svcUp && port < 2 then s.emit (.icmp port data) else s

/-! ## The management port (R512) -/

def mctpSpdm (s : State) (msg : List Byte) : State :=
  if s.dc.dstate = 0 then s else
  let (ans, s) := s.spdm 5 false msg
  s.emit (.mctp (le 1 5 ++ ans))

def mctpControl (s : State) (msg : List Byte) : State :=
  let old := SMap.getD s.tru.spdm 6 []
  ({ s with tru := { s.tru with spdm := SMap.put s.tru.spdm 6 (old ++ [msg]) } }).emit (.mctp (le 1 0 ++ Config.mctpControl old msg))

/-! ## `SEC_DBGCTL` (R505) and expiries -/

/-- [DEDUCED, log 143] -/
def dbgctl (s : State) (v : W32) : State :=
  if v.getLsbD 0 then { s with tru := { s.tru with dbglock := true, debug := 0, wdtsusp := false } }
  else if s.tru.debug = 2 then { s with tru := { s.tru with wdtsusp := v.getLsbD 1 } } else s

def nonceExpiry (s : State) (p : Port) : State :=
  match SMap.get? s.tru.nonces (portNo p) with
  | some (_, till) => if till ≤ s.now then { s with tru := { s.tru with nonces := SMap.del s.tru.nonces (portNo p) } } else s
  | none => s

def sessionExpiry (s : State) : State :=
  match s.tru.session with
  | some x => if x.expiry ≤ s.now then { s with tru := { s.tru with session := none } } else s
  | none => s

end State

def execCmdSecSpdm (m : MbxCmd) (s : State) : Host.Outcome State Fault Refusal := .next (s.issueCmd secSpdm m)
def execCmdSecNonce (m : MbxCmd) (s : State) : Host.Outcome State Fault Refusal := .next (s.issueCmd secNonce m)
def execCmdSecOwner (m : MbxCmd) (s : State) : Host.Outcome State Fault Refusal := .next (s.issueCmd secOwner m)
def execCmdSecDebug (m : MbxCmd) (s : State) : Host.Outcome State Fault Refusal := .next (s.issueCmd secDebug m)
def execCmdSecSession (m : MbxCmd) (s : State) : Host.Outcome State Fault Refusal := .next (s.issueCmd secSession m)
def execNonceExpiry (p : Port) (s : State) : Host.Outcome State Fault Refusal := .next (s.nonceExpiry p)
def execSessionExpiry (s : State) : Host.Outcome State Fault Refusal := .next s.sessionExpiry
def execCmdFwStage (m : MbxCmd) (s : State) : Host.Outcome State Fault Refusal := .next (s.issueCmd fwStage m)
def execCmdFwActivate (m : MbxCmd) (s : State) : Host.Outcome State Fault Refusal := .next (s.issueCmd fwActivate m)
def execHandOverPoint (s : State) : Host.Outcome State Fault Refusal := .next s.handOver
def execHandoverHeartbeatTimeout (s : State) : Host.Outcome State Fault Refusal := .next s.handTimeout
def execCmdFwConfirm (m : MbxCmd) (s : State) : Host.Outcome State Fault Refusal := .next (s.issueCmd fwConfirm m)
def execCmdFwStatus (m : MbxCmd) (s : State) : Host.Outcome State Fault Refusal := .next (s.issueCmd fwStatus m)
def execCmdErrlogRead (m : MbxCmd) (s : State) : Host.Outcome State Fault Refusal := .next (s.issueCmd errlogRead m)
def execCmdSvcNet (m : MbxCmd) (s : State) : Host.Outcome State Fault Refusal := .next (s.issueCmd svcNetCmd m)
def execDiscover (h : SvcHdr) (s : State) : Host.Outcome State Fault Refusal := .next (s.announce h.port)
def execImgData (_ : SvcHdr) (off : Nat) (data : List Byte) (s : State) : Host.Outcome State Fault Refusal :=
  .next (s.imgData off data)
def execImgReqRetry (off : Nat) (s : State) : Host.Outcome State Fault Refusal := .next (s.imgRetry off)
def execImageFetchTimeout (s : State) : Host.Outcome State Fault Refusal := .next s.imgTimeout
/-- Console text goes to firmware's console, which is no state of the device (R508). [DESIGN CHOICE, log 141] -/
def execConIn (_ : SvcHdr) (_ : List Byte) (s : State) : Host.Outcome State Fault Refusal := .next s
def execMctpSpdm (msg : List Byte) (s : State) : Host.Outcome State Fault Refusal := .next (s.mctpSpdm msg)
def execMctpControl (msg : List Byte) (s : State) : Host.Outcome State Fault Refusal := .next (s.mctpControl msg)
def execArpRequest (port : Nat) (ip : W32) (s : State) : Host.Outcome State Fault Refusal := .next (s.arp port ip)
def execIcmpEchoRequest (port : Nat) (data : List Byte) (s : State) : Host.Outcome State Fault Refusal := .next (s.echo port data)
def execDbglock (v : W32) (s : State) : Host.Outcome State Fault Refusal := .next (if s.hp.link = 2 then s.touch.dbgctl v else s)
def execWdtsusp (v : W32) (s : State) : Host.Outcome State Fault Refusal := .next (if s.hp.link = 2 then s.touch.dbgctl v else s)

end Sys2Proof.Machine
end

