-- ==== Sys2Proof/Machine/Regs.lean ====
section
/-! DEFINITION. Sys2Proof/Machine/Regs.lean: the register map of BAR0 (R5, R9, R27, R29, R438): what each 32-bit word reads as,
and what a write of it does. -/

namespace Sys2Proof.Machine

/-- Word `i` (0 or 1) of a 64-bit value. -/
def word64 (v i : Nat) : Nat := v / 2 ^ (32 * i) % 2 ^ 32

/-- Does a strap code reverse the host port's lane order (R479)? -/
def strapLane (code : Nat) : Bool := [1, 3, 5, 7, 9].contains code

/-- Word at byte offset `off` of an area of bytes. -/
def areaWord (a : List Byte) (off : Nat) : Nat := rd a (off / 4 * 4) 4

namespace State

/-! ## Mailboxes (R439, R441) -/

/-- A word of mailbox `p`. The response area is not defined while GO reads 1. [DEDUCED, log 147] -/
def boxWord (s : State) (p : Port) (off : Nat) : Nat :=
  let b := s.box p
  if off = 0 then bit b.busy.isSome 0
  else if off = 4 then bit b.done 0 + bit b.ovr 1 + bit b.rst 2
  else if off = 8 then bit b.ie 0
  else if 0x100 ≤ off && off < 0x200 then areaWord (fit 256 b.cmd) (off - 0x100)
  else if 0x200 ≤ off && off < 0x300 then
    if b.busy.isSome then (Config.freeW64 s.fresh).toNat % 2 ^ 32 else areaWord (fit 256 b.resp) (off - 0x200)
  else 0

/-! ## What a word of each block reads as -/

def dcWord (s : State) (off : Nat) : Option Nat :=
  let d := s.dc
  if off < 0x1000 then some (s.boxWord .host off)
  else if off < 0x5000 then some 0
  else if 0xB100 ≤ off && off < 0xB140 then some (areaWord (fit 64 d.snap) (off - 0xB100))
  else if 0x10000 ≤ off && off < 0x12000 then
    some (match SMap.get? d.ring ((off - 0x10000) / 32) with | some e => areaWord e.bytes (off % 32) | none => 0)
  else match off with
  | 0x8000 => some (7 * 2 ^ 16 + Config.rev.toNat * 2 ^ 8 + 5)
  | 0x8004 => some (bit d.fwok 8 + d.dstate)
  | 0x8008 => some d.gen.toNat
  | 0x9000 => some (bit d.abortGo 31 + d.abKind * 2 ^ 16 + d.abHandle)
  | 0x9004 => some (d.abStatus * 2 ^ 16 + bit d.abOvr 2 + bit d.abHw 1 + bit d.abDone 0)
  | 0xA000 => some d.evHead.toNat
  | 0xA004 => some d.evTail.toNat
  | 0xA008 => some (bit d.evOvf 1 + bit d.evEn 0)
  | 0xA010 | 0xA014 => some (word64 d.evDrop.toNat (off / 4 % 2))
  | 0xA018 | 0xA01C => some (word64 d.evVec0.toNat (off / 4 % 2))
  | 0xA020 | 0xA024 => some (word64 d.evVec1.toNat (off / 4 % 2))
  | 0xB000 => some 0
  | _ => none

/-- The mirror of region `n` (R429). -/
def rgMirror (s : State) (n : Nat) : List Byte :=
  match SMap.get? s.hp.regions n with
  | some r => le 2 n ++ le 1 1 ++ le 1 r.perm.toNat ++ le 2 r.rid.toNat ++ le 2 r.ridmask.toNat ++ le 8 r.aper ++ le 8 r.size ++
      le 8 r.target.toNat
  | none => le 2 n ++ zeros 30

def hpWord (s : State) (off : Nat) : Option Nat :=
  let h := s.hp
  if 0x40000 ≤ off && off < 0x60000 then some (areaWord (s.rgMirror ((off - 0x40000) / 32)) (off % 32))
  else match off with
  | 0x0 => some (h.link + if h.link = 2 then 2 * 4 + 0x20 * 2 ^ 8 else 0)
  | 0x4 => some h.err.toNat
  | 0x8 | 0xC => some (word64 h.ur.toNat (off / 4 % 2))
  | 0x10 | 0x14 => some (word64 h.ca.toNat (off / 4 % 2))
  | 0x18 | 0x1C => some (word64 h.disc.toNat (off / 4 % 2))
  | 0x20 | 0x24 => some (word64 h.pois.toNat (off / 4 % 2))
  | 0x10000 | 0x10004 => some (word64 h.pzBase.toNat (off / 4 % 2))
  | 0x10008 | 0x1000C => some (word64 h.pz.bytes.toNat (off / 4 % 2))
  | 0x10010 => some (bit h.pzFail 1 + bit h.badbase 0)
  | 0x20000 => some h.regions.length
  | 0x20008 => some h.viol.toNat
  | 0x20010 | 0x20014 => some (word64 h.vaddr.toNat (off / 4 % 2))
  | 0x20018 => some h.vrid.toNat
  | _ => none

def llWord (s : State) (off : Nat) : Option Nat :=
  let p := s.pw
  match off with
  | 0x00 => some (0x60 * 2 ^ 16 + Config.llVer.toNat)
  | 0x04 => some (rstCause p).toNat
  | 0x08 => some (p.pstate * 2 ^ 8 + bit p.refok 3 + bit p.auxok 2 + bit p.pg48 1 + bit p.sagwarn 0)
  | 0x0C => some (p.rstv.toNat * 2 ^ 16 + p.warnv.toNat * 2 ^ 8)
  | 0x10 => some (p.cap * 2 ^ 16 + p.mean % 2 ^ 16)
  | 0x14 => some (bit (!p.stops.isEmpty) 12 + p.tlevel * 2 ^ 8 + p.plevel * 2 ^ 4 + elevel p)
  | 0x18 => some (p.sensor * 2 ^ 16 + leNat (le16s p.tjmax))
  | 0x1C => some p.alert.toNat
  | 0x20 => some p.alerten.toNat
  | 0x24 => some (bit p.idleen 7 + p.pllst)
  | 0x28 => some (p.code * 2 ^ 28 + strapMode p.code * 2 ^ 26 + bit (strapLane p.code) 25 + bit (strapEth p.code) 24 +
      bit p.straperr 23 + p.rmeas)
  | 0x2C => some (p.attempts % 256 * 2 ^ 8 + bit p.trimFault 3 + p.trimSrc * 2)
  | 0x30 => some (p.expired.toNat * 2 ^ 16 + p.wdtMs % 2 ^ 16)
  | 0x38 => some p.scratch.toNat
  | 0x40 | 0x44 => some (word64 p.droopTot.toNat (off / 4 % 2))
  | _ => none

def secWord (s : State) (off : Nat) : Option Nat :=
  match off with
  | 0x00 => some s.secState
  | 0x04 => some s.secSvn
  | 0x08 => some s.tru.keyrev.toNat
  | 0x0C => some (bit s.tru.wdtsusp 1 + bit s.tru.dbglock 0)
  | 0x10 => some s.errNew
  | 0x14 => some ((s.tru.errSeq - 1).toNat)
  | _ => none

/-- The state of a link as `BV_PSTAT` shows it. [DESIGN CHOICE, log 13] -/
def bvWord (s : State) (off : Nat) : Option Nat :=
  let n := off / 0x10000; let o := off % 0x10000
  let f := s.fab; let p := s.bvPort n
  if 18 ≤ n then none
  else if o < 0x8000 then
    match o with
    | 0x00 => some (p.media * 16 + p.mode)
    | 0x04 => some ((s.link (2 * n)).state * 2 ^ 8 + (s.link (if p.mode = 1 then 2 * n else 2 * n + 1)).state * 2 ^ 12)
    | 0x08 => some (p.erra.toNat + p.errb.toNat * 2 ^ 8)
    | 0x10 | 0x14 => some (word64 p.fecc.toNat (o / 4 % 2))
    | 0x18 | 0x1C => some (word64 p.fecu.toNat (o / 4 % 2))
    | 0x20 | 0x24 => some (word64 p.replay.toNat (o / 4 % 2))
    | 0x28 | 0x2C => some (word64 p.txf.toNat (o / 4 % 2))
    | 0x30 | 0x34 => some (word64 p.rxf.toNat (o / 4 % 2))
    | _ => none
  else if n != 0 then none
  else
    let rds := (f.outst.filter fun r => r.2.pkt.op == 1).length
    match o - 0x8000 with
    | 0x00 => some (f.devState * 2 ^ 16 + f.devnum)
    | 0x08 | 0x0C => some (word64 s.ftime.toNat (o / 4 % 2))
    | 0x10 => some (bit f.time.sync 31 + leNat (le16s f.time.offs))
    | 0x18 => some (rds + (f.outst.length - rds) * 2 ^ 16)
    | 0x20 | 0x24 => some (word64 f.tmo.toNat (o / 4 % 2))
    | 0x28 | 0x2C => some (word64 f.late.toNat (o / 4 % 2))
    | 0x30 | 0x34 => some (word64 f.refused.toNat (o / 4 % 2))
    | 0x38 | 0x3C => some (word64 f.fcHit.toNat (o / 4 % 2))
    | 0x40 | 0x44 => some (word64 f.fcMiss.toNat (o / 4 % 2))
    | 0x48 => some (f.fmHi * 2 ^ 16 + f.fmLo)
    | _ => none

def memWord (s : State) (off : Nat) : Option Nat :=
  let k := off / 0x10000; let m := s.mc k
  if 12 ≤ k then none else
  match off % 0x10000 with
  | 0x00 => some (m.trained.toNat * 2 ^ 8 + s.nb)
  | 0x08 | 0x0C => some (word64 m.ce.toNat (off / 4 % 2))
  | 0x10 | 0x14 => some (word64 m.ue.toNat (off / 4 % 2))
  | 0x18 | 0x1C => some (word64 m.ueAddr.toNat (off / 4 % 2))
  | 0x20 => some (m.longest.toNat * 2 ^ 16)
  | _ => none

/-- [DEDUCED, log 150] -/
def stWord (s : State) (off : Nat) : Option Nat :=
  match off with
  | 0x00 => some (0x10 * 2 ^ 8 + 5)
  | 0x08 => some (s.streams.filter fun x => State.Stream.code x.2 == 1).length
  | 0x0C => some s.streams.length
  | 0x10 => some s.sterr.toNat
  | _ => none

/-- [DEDUCED, log 151] -/
def igWord (s : State) (off : Nat) : Option Nat :=
  if 0x100 ≤ off && off < 0x300 then
    let e := (off - 0x100) / 0x40; let g := s.igEngine e
    match off % 0x40 with
    | 0x00 =>
      some (match g.run with
        | some r => (if r.fill then 2 else 1) + rd r.desc 0x18 1 * 2 ^ 8
        | none => if s.ig.enable.getLsbD e then 0 else 3)
    | 0x08 | 0x0C => some (word64 g.done.toNat (off / 4 % 2))
    | 0x10 | 0x14 => some (word64 g.skip.toNat (off / 4 % 2))
    | 0x18 | 0x1C => some (word64 g.pix.toNat (off / 4 % 2))
    | _ => none
  else match off with
  | 0x0 => some 8
  | 0x8 => some s.ig.hwerr.toNat
  | _ => none

def phWord (s : State) (off : Nat) : Option Nat :=
  let t := s.tr
  match off with
  | 0x00 => some 0x100
  | 0x08 => some t.logHead
  | 0x0C => some t.logTail
  | 0x10 => some (bit t.evtFull 1 + bit t.evtStrag 0)
  | 0x14 => some (t.lastStep.toNat * 2 ^ 8 + t.lastPhid.toNat)
  | 0x18 | 0x1C => some (word64 t.drop.toNat (off / 4 % 2))
  | 0x20 | 0x24 => some (word64 t.late.toNat (off / 4 % 2))
  | 0x28 | 0x2C => some (word64 t.side.toNat (off / 4 % 2))
  | 0x30 | 0x34 => some (word64 t.wideCnt.toNat (off / 4 % 2))
  | 0x38 | 0x3C => some (word64 t.floatCnt.toNat (off / 4 % 2))
  | 0x40 | 0x44 => some (word64 t.ringb.toNat (off / 4 % 2))
  | _ => none

def xaWord (s : State) (off : Nat) : Option Nat :=
  let k := off / 0x1000; let u := s.xunit k
  if 12 ≤ k then none else
  match off % 0x1000 with
  | 0x0 => some ((s.atoms.filter fun a => a.held && State.atomUnit a.op.addr == k).length * 2 ^ 16 + u.slots.length)
  | 0x8 | 0xC => some (word64 u.ops.toNat (off / 4 % 2))
  | _ => none

/-- The debug window of a core: its registers show its state while it is stopped in states 2 to 6. -/
def coWord (s : State) (off : Nat) : Option Nat :=
  let c := off / 0x1000; let o := off % 0x1000
  let k := s.core c; let x := k.ctx
  let st := if k.excl != 0 then 7 else k.st
  let shown (v : Nat) : Nat := if 2 ≤ st && st ≤ 6 then v else 0
  if 0x100 ≤ o && o < 0x180 then some (shown (word64 (x.getA ((o - 0x100) / 8)).toNat (o / 4 % 2)))
  else if 0x180 ≤ o && o < 0x1C0 then some (shown (word64 (x.getL ((o - 0x180) / 8)).toNat (o / 4 % 2)))
  else if 0x200 ≤ o && o < 0x240 then some (areaWord (fit 64 k.fault) (o - 0x200))
  else match o with
  | 0x00 => some (k.excl * 2 ^ 12 + c)
  | 0x04 => some (st + (if st = 0 || st = 7 then 0 else k.holder) * 2 ^ 16)
  | 0x08 | 0x0C => some (shown (word64 x.pc (o / 4 % 2)))
  | 0x10 => some x.astat.toNat
  | 0x18 | 0x1C => some (word64 x.cycles (o / 4 % 2))
  | 0x20 | 0x24 => some (word64 x.stalls (o / 4 % 2))
  | 0x40 => some (bit k.haltreq 0)
  | 0x1C0 => some (shown x.p.toNat)
  | _ => none

/-- The word at a 4-byte-aligned offset of BAR0; `none` where no block defines one (R27). [DESIGN CHOICE, log 13] -/
def regWord (s : State) (off : Nat) : Option Nat :=
  if off < 0x100000 then s.dcWord off
  else if off < 0x200000 then s.hpWord (off - 0x100000)
  else if off < 0x300000 then s.llWord (off - 0x200000)
  else if off < 0x400000 then s.secWord (off - 0x300000)
  else if off < 0x600000 then s.bvWord (off - 0x400000)
  else if off < 0x800000 then s.memWord (off - 0x600000)
  else if off < 0xA00000 then s.stWord (off - 0x800000)
  else if off < 0xB00000 then s.igWord (off - 0xA00000)
  else if off < 0xC00000 then s.phWord (off - 0xB00000)
  else if off < 0x1000000 then s.xaWord (off - 0xC00000)
  else if off < 0x1C00000 then s.coWord (off - 0x1000000)
  else none

/-! ## Writes by the access codes of R9 -/

/-- Bits of a W1C field of `w` bits after a write. -/
def w1c {w : Nat} (x : BitVec w) (v : W32) : BitVec w := x &&& ~~~(v.setWidth w)

/-- A flag of a W1C field after a write. -/
def w1cFlag (b : Bool) (v : W32) (i : Nat) : Bool := b && !v.getLsbD i

/-- Word `i` of the vector fields of `DC_EVVEC`: bits 6 and 7 of each byte are reserved. [DEDUCED, log 150] -/
def vecWord (x : W64) (i : Nat) (v : W32) : W64 :=
  BitVec.ofNat 64 (x.toNat - word64 x.toNat i * 2 ^ (32 * i) + (v &&& 0x3F3F3F3F).toNat * 2 ^ (32 * i))

/-- A write of one word of a register with no behaviour of its own. [DEDUCED, log 14, 150] -/
def plainWrite (s : State) (off : Nat) (v : W32) : State :=
  if 0x400000 ≤ off && off < 0x520000 && off % 0x10000 = 8 then
    let n := (off - 0x400000) / 0x10000
    let p := s.bvPort n
    s.setPort n { p with erra := w1c p.erra v, errb := w1c p.errb (v >>> 8) }
  else match off with
  | 0x9004 => { s with dc := { s.dc with abOvr := w1cFlag s.dc.abOvr v 2, abDone := w1cFlag s.dc.abDone v 0 } }
  | 0xA004 => { s with dc := { s.dc with evTail := v.setWidth 8 } }
  | 0xA008 => { s with dc := { s.dc with evOvf := w1cFlag s.dc.evOvf v 1, evEn := v.getLsbD 0 } }
  | 0xA018 => { s with dc := { s.dc with evVec0 := vecWord s.dc.evVec0 0 v } }
  | 0xA01C => { s with dc := { s.dc with evVec0 := vecWord s.dc.evVec0 1 v } }
  | 0xA020 => { s with dc := { s.dc with evVec1 := vecWord s.dc.evVec1 0 v } }
  | 0xA024 => { s with dc := { s.dc with evVec1 := vecWord s.dc.evVec1 1 v } }
  | 0x100004 => { s with hp := { s.hp with err := w1c s.hp.err v } }
  | 0x110010 => { s with hp := { s.hp with pzFail := w1cFlag s.hp.pzFail v 1, badbase := w1cFlag s.hp.badbase v 0 } }
  | 0x120008 => { s with hp := { s.hp with viol := w1c s.hp.viol v } }
  | 0x200004 => s.modPw fun p => { p with warmcnt := (v >>> 8).setWidth 16 }
  | 0x20001C => s.alertPin (w1c s.pw.alert v) s.pw.alerten
  | 0x200020 => s.alertPin s.pw.alert (v.setWidth 7)
  | 0x200024 => s.modPw fun p => { p with idleen := v.getLsbD 7 }
  | 0x200030 => s.modPw fun p => { p with expired := (v >>> 16).setWidth 16 }
  | 0x200038 => s.modPw fun p => { p with scratch := v }
  | 0x800010 => { s with sterr := w1c s.sterr v }
  | 0xA00008 => { s with ig := { s.ig with hwerr := w1c s.ig.hwerr v } }
  | 0xB0000C => { s with tr := { s.tr with logTail := v.toNat % 2 ^ s.tr.log2n } }
  | 0xB00010 => { s with tr := { s.tr with evtFull := w1cFlag s.tr.evtFull v 1, evtStrag := w1cFlag s.tr.evtStrag v 0 } }
  | _ => s

end State

end Sys2Proof.Machine
end

