-- ==== Sys2Proof/Machine/Boxes.lean ====
section
/-! DEFINITION. Sys2Proof/Machine/Boxes.lean: commands that reach a mailbox as words or messages (R349, R437 to R441, R509, R512, R513), register
writes (R9, R27, R438), and the completion of long commands (R443). -/

namespace Sys2Proof.Machine

/-- Every command of the opcode tables, for one command area. -/
def allCmds (prompt : Bool) (m : MbxCmd) : List Cmd :=
  [infoDevice, infoInventory, infoConfig, cmdCommit, cmdDiscard, cmdConfigDevice, cmdRgSet, cmdAbort prompt, cmdReset m, cmdSnapshot,
   memPartition, xwOpenCmd, xwCloseCmd, xwStatusCmd, kvPool, kvEdit, kvStatus] ++
  [progLoad, progPlace, progStart, progStatus, progFaults, progUnload, progFlag] ++
  [streamCreate, streamPost, streamStatus, streamCancel, streamDestroy, streamConfig] ++
  [bvPortCmd, bvRoute, bvExpose, bvMembers, bvTree, bvJoin, bvLeave, bvGlobal, bvFrozen, bvConfigCmd, bvStatus] ++
  [tsRing, tsBucket, tsNorms, tsStep, tsStepRun, tsStepStop, tsPhase, tsPhlog, tsStatus] ++
  [igSubmit, igStatus, igConfig, pwrConfig, pwrStatus] ++
  [secSpdm, secNonce, secOwner, secDebug, secSession, fwStage, fwActivate, fwConfirm, fwStatus, errlogRead, svcNetCmd]

/-- The command an opcode names (check 1 of R444). -/
def cmdOf (op : Nat) (prompt : Bool) (m : MbxCmd) : Option Cmd := (allCmds prompt m).find? fun k => k.op == op

namespace State

/-! ## GO of an area (R441, R444) -/

/-- DONE is cleared when needed (step 1 of R441). -/
def clearDone (s : State) (p : Port) : State :=
  let b := s.box p
  if b.busy.isNone && b.done then s.setBox p { b with done := false } else s

/-- GO of a mailbox whose area holds opcode `op` and `m`. When firmware is prompt with an abort is open.
[DEDUCED, log 55] [DESIGN CHOICE, log 132] -/
def goArea (s : State) (op : Nat) (m : MbxCmd) (session : Bool) : State :=
  let (u, s) := s.uid
  s.applyKills.go op m fun s =>
    match cmdOf op (Config.freeNat u % 2 == 1) m with
    | some k => s.runCmd k m session
    | none => (.refuse St.badOpcode, s)

/-- A command with an opcode that no chapter assigns. -/
def unassigned (s : State) (op : Nat) (m : MbxCmd) : State :=
  if (cmdOf op true m).isSome then s
  else (s.clearDone m.port).applyKills.go op m fun s => (.refuse St.badOpcode, s)

/-! ## Words of a mailbox -/

/-- A write of word `off` of mailbox `p`: GO, the W1C bits of `MB_STAT`, DONEIE, the command area. The response area is the device's. -/
def boxWrite (s : State) (p : Port) (off : Nat) (v : W32) : State :=
  let b := s.box p
  if off = 0 then
    if v.getLsbD 0 then
      let (op, m) := areaCmd p (fit 256 b.cmd)
      s.goArea op m s.session?
    else s
  else if off = 4 then
    s.setBox p { b with done := w1cFlag b.done v 0, ovr := w1cFlag b.ovr v 1, rst := w1cFlag b.rst v 2 }
  else if off = 8 then s.setBox p { b with ie := v.getLsbD 0 }
  else if 0x100 ≤ off && off < 0x200 then s.setBox p { b with cmd := patch (fit 256 b.cmd) (off - 0x100) (le 4 v.toNat) }
  else s

/-! ## MREAD and MWRITE (R345, R349) -/

/-- Answer a management request: a link-local one on the link it came by. -/
def mgmtReply (s : State) (link : Nat) (p : Packet) (status : Nat) (bs : List Byte) : State :=
  if p.dst.toNat != 0xFFFF then s.reply p status (bs.map fun b => (b, false)) else
  let s : State := if status = St.ok then s else { s with fab := { s.fab with refused := s.fab.refused + 1 } }
  s.sendPacket link p.vl { pktBlank with
    op := p.op, flags := 1, src := BitVec.ofNat 16 s.fab.devnum, dst := p.src, tag := p.tag, len := bs.length
    status := BitVec.ofNat 16 status, data := bs }

/-- A management request: `ok` are the checks of its data, `run` its effect on the word at its offset.
[DEDUCED, log 147] -/
def onMgmt (s : State) (link : Nat) (p : Packet) (ok : Bool) (run : Nat → State → List Byte × State) : State :=
  if pktResp p then s else
  let s : State := { s with fab := { s.fab with lastReq := s.now } }
  let src := p.src.toNat; let off := p.addr.toNat
  if p.dst.toNat != 0xFFFF && p.dst.toNat != s.fab.devnum then
    (s.logErrSev 0 (0x10 + link / 2) 0x11 (BitVec.ofNat 64 (link / 2)) 0 []).mgmtReply link p St.badField []
  else if !(pktClean p && p.len == 4 && ok) then s.mgmtReply link p St.badField []
  else if p.vl != 5 || src < s.fab.fmLo || s.fab.fmHi < src || 0xFFC < off then s.mgmtReply link p St.notAuthorised []
  else if off % 4 != 0 then s.mgmtReply link p St.badField []
  else
    let (bs, s) := run off s
    s.mgmtReply link p St.ok bs

/-- [DEDUCED, log 147] -/
def onMread (s : State) (link : Nat) (p : Packet) : State :=
  s.onMgmt link p true fun off s => (le 4 (s.boxWord .fm off), s)

/-- [DEDUCED, log 147] -/
def onMwrite (s : State) (link : Nat) (p : Packet) : State :=
  s.onMgmt link p (p.data.length == 4) fun off s => ([], s.boxWrite .fm off (BitVec.ofNat 32 (rd p.data 0 4)))

/-! ## The service console, the management port and JTAG -/

/-- MBX_CMD (R508, R509): run once, or answered again. [DEDUCED, log 148] -/
def svcCmd (s : State) (h : SvcHdr) (area : List Byte) : State :=
  if !s.svcUp || 2 ≤ h.port || area.length != 16 + rd area 2 2 || 256 < area.length then s
  else if s.tru.lastSeq = some h.seq then
    if s.tru.rspWait then s else s.svcSend h.port 0x11 s.tru.lastRsp
  else
    let (op, m) := areaCmd .svc (fit 256 area)
    let s := s.clearDone .svc
    if (s.box .svc).busy.isSome then s.setBox .svc { s.box .svc with ovr := true } else
    let session := match s.tru.session with | some x => x.num == h.session && x.port == h.port | none => false
    ({ s with tru := { s.tru with lastSeq := some h.seq, lastRsp := [], rspPort := h.port, rspWait := true } }).goArea op m session

/-- A type 0x7E message 0x10 (R512): a second command before the response is refused. [DEDUCED, log 142, 148] -/
def mctpCmd (s : State) (area : List Byte) : State :=
  let (op, m) := areaCmd .bmc (fit 256 area)
  if s.tru.mctpBusy || (s.box .bmc).busy.isSome then
    s.emit (.mctp (mctpReply (le 2 St.badState ++ zeros 2 ++ le 4 m.tag.toNat ++ zeros 8)))
  else
    ({ s.clearDone .bmc with tru := { s.tru with mctpBusy := true } }).goArea op m false

/-- An access through the MBX data register (R513): a write, or a read that shifts the word out. -/
def jtagMbx (s : State) (dr : BitVec 44) : State :=
  let s : State := { s with tru := { s.tru with jtagIr := 0x30 } }
  let off := 4 * fld dr 41 32
  if bitOf dr 43 then s.boxWrite .jtag off (BitVec.ofNat 32 (fld dr 31 0))
  else s.emit (.jtag (BitVec.ofNat 44 (fld dr 41 32 * 2 ^ 32 + s.boxWord .jtag off)))

/-! ## Register writes (R9, R27, R423, R438) -/

/-- A write of one word of BAR0. [DEDUCED, log 149] -/
def wordWrite (s : State) (off : Nat) (v : W32) : State :=
  if off < 0x1000 then s.boxWrite .host off v
  else if off < 0x5000 then s
  else if off = 0x9000 then
    let (u, s) := s.uid
    s.dcAbort v (Config.freeNat u % 2 == 1)
  else if off = 0xB000 then s.dcSnap v
  else if off = 0x110000 then s.writeBase 0 (v.setWidth 64)
  else if off = 0x110004 then s.writeBase 1 (v.setWidth 64)
  else if off = 0x30000C then s.dbgctl v
  else if 0x1000000 ≤ off && off < 0x1C00000 && off % 0x1000 = 0x40 then s.dbgWrite ((off - 0x1000000) / 0x1000) v
  else s.plainWrite off v

/-- REGISTER_WRITE: the host writes 4 or 8 bytes of BAR0. [DEDUCED, log 14, 149] -/
def regWrite (s : State) (off n : Nat) (v : W64) : State :=
  if !s.portTakes off n bar0Size 4096 then s
  else if !((n = 4 || n = 8) && off % n = 0) then s.bar0Bad true off n
  else
    let s := s.touch
    let offs := if n = 8 then [off, off + 4] else [off]
    let at' := BitVec.ofNat 64 (regBase + off)
    if 0x1000 ≤ off && off < 0x5000 then s.logErr 0x71 6 at'
    else
      let s := if offs.any fun o => (s.regWord o).isNone then s.logErr 0x71 5 at' else s
      if off = 0x110000 && n = 8 then s.writeBase 2 v
      else
        (offs.filter fun o => (s.regWord o).isSome).foldl (fun (s : State) o =>
          s.wordWrite o (BitVec.ofNat 32 (word64 v.toNat ((o - off) / 4)))) s

/-! ## LONG_COMMAND_COMPLETE (R443) -/

/-- The commands that waited for a hand-over run on the new firmware (R497). [DEDUCED, log 138] -/
def runDeferred (s : State) : State :=
  let ps := s.tru.deferred
  let s : State := { s with tru := { s.tru with deferred := [] } }
  ps.foldl (fun (s : State) n =>
    match portOf n with
    | none => s
    | some p =>
      match (s.box p).busy with
      | some (op, m) => (s.setBox p { s.box p with busy := none }).goArea op.toNat m s.session?
      | none => s) s

/-- The work of the long command of stream `st` ends, when it can: its result and event are written and its stream is destroyed.
[DEDUCED, log 152, 153] -/
def longComplete (s : State) (st : Nat) : State :=
  match s.stream? st with
  | none => s
  | some x =>
    match x.long with
    | none => s
    | some w =>
      let told (s : State) : State := if x.done = 1 then s.endLong st x.last x.bytes.toNat true x.rlog2 else s
      match w with
      | .xwOpen b =>
        let (e, s) := s.openRegion b
        s.endLong st e 0 true
      | .xwClose b =>
        let (e, v, s) := s.closeRegion b
        s.endLong st e v true
      | .kvCreate p => (s.kvCreated p).endLong st St.ok 0 true
      | .kvDestroy p => (s.kvDestroyed p).endLong st St.ok 0 true
      | .kvEdit u => if u = 0 then s.endLong st x.last 0 false else s
      | .join dev time =>
        let f := s.fab
        let s : State := { s with fab := { f with devnum := dev, time := { f.time with ft := time * 60000 } } }
        (s.setFabric 1).endLong st St.ok dev true
      | .leave =>
        if s.fab.devState = 2 && s.fab.leaving.isSome && s.fab.outst.isEmpty && s.fab.waiting.isEmpty then
          (s.setFabric 3).endLong st St.ok 0 true
        else s
      | .global _ => told s
      | .stepRun _ => told s
      | .blockReset _ => s
      | .igBatch _ =>
        let s := s.submitGo st
        let x := (s.stream? st).getD x
        if x.long != some (.igBatch noResult) then s
        else if x.last != St.ok then s.endLong st x.last 0 true x.rlog2
        else
          match s.batchEnd st with
          | (some bad, s) => s.endLong st St.ok bad true x.rlog2
          | (none, s) => s
      | .fwStage kind slot src len => s.stageDone st kind slot src len
      | .fwActivate sel _ =>
        let t := s.activateDone st sel
        if t.tru.handAt.isNone && s.tru.handAt.isSome then t.runDeferred else t

end State

def execUnassignedMailboxOpcode (op : BitVec 16) (m : MbxCmd) (s : State) : Host.Outcome State Fault Refusal :=
  .next (s.unassigned op.toNat m)
def execMread (link : Nat) (p : Packet) (s : State) : Host.Outcome State Fault Refusal := .next (s.onMread link { p with op := 0xA })
def execMwrite (link : Nat) (p : Packet) (s : State) : Host.Outcome State Fault Refusal := .next (s.onMwrite link { p with op := 0xB })
def execMbxCmd (h : SvcHdr) (area : List Byte) (s : State) : Host.Outcome State Fault Refusal := .next (s.svcCmd h area)
def execMctpMailboxCommand (area : List Byte) (s : State) : Host.Outcome State Fault Refusal := .next (s.mctpCmd area)
def execMbx (dr : BitVec 44) (s : State) : Host.Outcome State Fault Refusal := .next (s.jtagMbx dr)
def execRegisterWrite (off n : Nat) (v : W64) (s : State) : Host.Outcome State Fault Refusal := .next (s.regWrite off n v)
def execLongCommandComplete (st : Nat) (s : State) : Host.Outcome State Fault Refusal := .next (s.longComplete st)

end Sys2Proof.Machine
end

