-- ==== Sys2Proof/Machine/Links.lean ====
section
/-! DEFINITION. Sys2Proof/Machine/Links.lean: the link layer (R336 to R342): flits received, credits, retry, retraining, and the packets
that come out of them (R344, R345). -/

namespace Sys2Proof.Machine

/-! ## Flits (R336, R338) -/

/-- Bits `[hi:lo]` of the `n`-byte field at `off` of a flit. -/
def ff (f : List Byte) (off n hi lo : Nat) : Nat := nfld (rd f off n) hi lo

def flitKind (f : List Byte) : Nat := ff f 0 1 1 0

/-- A flit the receiver takes: CRC, KIND, reserved bits, and for a payload flit VL and FIRST. -/
def flitGood (f : List Byte) : Bool :=
  f.length == 256 && crc32c (f.take 252) == rd f 252 4 &&
  flitKind f != 3 && ff f 0 1 7 6 == 0 && ff f 2 2 15 12 == 0 && ff f 4 2 14 12 == 0 &&
  (flitKind f != 1 || (decide (ff f 0 1 4 2 < 6) && decide (rd f 1 1 ≤ 15)))

/-- The 240 bytes of payload. -/
def flitBody (f : List Byte) : List Byte := (f.drop 12).take 240

/-- Pair of a flit: its virtual lane and class. -/
def flitPair (f : List Byte) : Nat := 2 * ff f 0 1 4 2 + ff f 0 1 5 5

/-- The twelve counts of CREDIT_INIT for a link (R338, R339): half of each buffer at ×4. -/
def creditBody (half : Bool) : List Byte :=
  zeros 14 ++ (List.range 12).flatMap fun k => le 2 (Link.bufferOf k / (if half then 2 else 1))

/-! ## Packets in a run of units (R337, R344) -/

/-- Units that follow a packet's header. -/
def dataUnits (h : List Byte) : Nat :=
  let op := rd h 0 1
  if rd h 1 1 % 2 = 0 && (op = 1 || op = 0xA) then 0 else (rd h 0x10 2 + 15) / 16

/-- The packet of `bs`, whose data are the first LEN bytes after the header. -/
def pktOf (vl : Nat) (bs : List Byte) : Packet :=
  let n := rd bs 0x10 2
  { op := BitVec.ofNat 8 (rd bs 0 1), flags := BitVec.ofNat 8 (rd bs 1 1), src := BitVec.ofNat 16 (rd bs 2 2),
    dst := BitVec.ofNat 16 (rd bs 4 2), tag := BitVec.ofNat 16 (rd bs 6 2), addr := BitVec.ofNat 64 (rd bs 8 8), len := n,
    status := BitVec.ofNat 16 (rd bs 0x12 2), poison := BitVec.ofNat 8 (rd bs 0x14 1), rsv1 := BitVec.ofNat 8 (rd bs 0x15 1),
    aop := BitVec.ofNat 16 (rd bs 0x16 2), ea := BitVec.ofNat 16 (rd bs 0x18 2), rsv2 := BitVec.ofNat 16 (rd bs 0x1A 2),
    val := BitVec.ofNat 32 (rd bs 0x1C 4), data := if dataUnits bs = 0 then [] else (bs.drop 32).take n, vl := vl }

/-- Cut the run of a pair, which ends at the end of a flit, into packets; PAD fills the rest of the flit. -/
def cutRun (vl : Nat) : Nat → List Byte → List Packet × List Byte
  | 0, bs => ([], bs)
  | k + 1, bs =>
    if bs.isEmpty then ([], [])
    else if rd bs 0 1 = 0 then ([], [])
    else
      let n := 32 + 16 * dataUnits bs
      if bs.length < 32 || bs.length < n then ([], bs)
      else
        let r := cutRun vl k (bs.drop n)
        (pktOf vl bs :: r.1, r.2)

namespace State

/-! ## What a packet does -/

/-- A packet reaches the layer above. -/
def onPacket (s : State) (l : Nat) (p : Packet) : State :=
  if pktResp p then s.onResponse p else
  if p.op = 8 || p.op = 9 then s.unanswered l p (if p.op = 9 then fun s => s.onTime p else fun s =>
    match fld p.addr 7 4 with
    | 0 => s.onArrive p
    | 1 => s.onRelease p
    | 2 => s.onDrain p
    | 3 => s.onDrained p
    | 4 => s.onResume p
    | _ => s)
  else match p.op.toNat with
  | 1 => s.onRead l p
  | 2 => s.onWrite l p
  | 3 => s.onAtomic l p
  | 4 => s.onFlag l p
  | 0xA => s.onMread l p
  | 0xB => s.onMwrite l p
  | _ => s.onReserved l p

/-! ## Retry (R341, R342) -/

/-- Ask for the replay from the sequence number expected. -/
def askReplay (s : State) (l : Nat) : State :=
  let k := s.link l
  (((s.setLink l { k with nak := some s.now }).linkErr l 1).controlFlit l 2 (le 2 k.rxExp))

/-- A flit is discarded: the replay is asked for, and eight failures of one number retrain the link. [DEDUCED, log 146] -/
def discardFlit (s : State) (l : Nat) : State :=
  let k := s.link l
  let n := if k.failSeq = k.rxExp then k.fails + 1 else 1
  let s := ((s.setLink l { k with fails := n, failSeq := k.rxExp }).linkErr l 0).linkLog l 3
  if 8 ≤ n then s.retrain l else s.askReplay l

/-- The replay buffer without what the next number expected acknowledges. -/
def acked (k : Link) (next : Nat) : Link :=
  let left := (k.txSeq + 4096 - next) % 4096
  if k.replay.length < left then k else { k with replay := k.replay.drop (k.replay.length - left) }

/-- A link that drains for a commanded retrain retrains once nothing is left to send. -/
def drainEnd (s : State) (l : Nat) : State :=
  let k := s.link l
  if k.state = 4 && k.replay.isEmpty && k.txq.isEmpty then s.retrain l else s

/-- The acknowledgement and the credits that any good flit carries (R336, R340). -/
def takeHeader (s : State) (l : Nat) (f : List Byte) : State :=
  let k := s.link l
  let k := if ff f 4 2 15 15 = 1 then acked k (ff f 4 2 11 0) else k
  let pair := 2 * ff f 6 2 2 0 + ff f 6 2 3 3
  let k := if ff f 6 2 4 4 = 1 && decide (pair < 12) then
      { k with credits := SMap.setD k.credits pair 0 (SMap.getD k.credits pair 0 + ff f 6 2 15 5) } else k
  ((s.setLink l k).pumpLink l).drainEnd l

/-- Resend what the replay buffer holds from number `n` onward; what comes before is acknowledged. -/
def replayFrom (s : State) (l n : Nat) : State :=
  let k := acked (s.link l) n
  let p := s.bvPort (l / 2)
  ((s.setLink l k).flits l (k.replay.map (·.2))).setPort (l / 2) { p with replay := p.replay + BitVec.ofNat 64 k.replay.length }

/-- A flit arrives on a link that is up; `kind` is the one its row names. Then `go` for a good one. [DEDUCED, log 146] -/
def recv (s : State) (l : Nat) (f : List Byte) (kind : Nat) (go : State → State) : State :=
  let st := (s.link l).state
  if !(st = 2 || st = 4) then s
  else if !flitGood f then s.discardFlit l
  else if flitKind f != kind then s
  else go s

/-- A payload flit: in sequence it delivers its packets; a number already taken is dropped; any other is discarded, and the
replay asked for unless it is awaited. [DEDUCED, log 146] -/
def payloadFlit (s : State) (l : Nat) (f : List Byte) : State :=
  s.recv l f 1 fun s =>
    let k := s.link l
    let ahead := (ff f 2 2 11 0 + 4096 - k.rxExp) % 4096
    if ahead != 0 then
      if k.nak.isSome || 2048 ≤ ahead then s else s.askReplay l
    else
      let pair := flitPair f
      let body := flitBody f
      let part := SMap.getD k.parts pair []
      let run := if part.isEmpty then body.drop (16 * rd f 1 1) else part ++ body
      let (ps, rest) := cutRun (ff f 0 1 4 2) 16 run
      let k := { k with
        rxExp := (k.rxExp + 1) % 4096, nak := none, fails := 0, parts := SMap.setD k.parts pair [] rest
        owed := SMap.setD k.owed pair 0 (SMap.getD k.owed pair 0 + 1), unacked := k.unacked + 1
        ackDue := if k.unacked = 0 then s.now + 2400 else k.ackDue }
      let p := s.bvPort (l / 2)
      let s := ((s.setLink l k).setPort (l / 2) { p with rxf := p.rxf + 1 }).takeHeader l f
      let s := ps.foldl (fun (s : State) p => s.onPacket l p) s
      if 64 ≤ (s.link l).unacked then s.idleFlit l else s

def onIdle (s : State) (l : Nat) (f : List Byte) : State := s.recv l f 0 fun s => s.takeHeader l f

/-- A control flit with code `code` (R338): its header counts, then its content. -/
def control (s : State) (l : Nat) (f : List Byte) (code : Nat) (go : State → State) : State :=
  s.recv l f 2 fun s => if rd f 12 1 = code then go (s.takeHeader l f) else s.takeHeader l f

/-- CREDIT_INIT: the credits for the next hop. -/
def onCreditInit (s : State) (l : Nat) (f : List Byte) : State :=
  s.control l f 1 fun s =>
    let k := s.link l
    let cs := (List.range 12).foldl (fun m i => SMap.setD m i 0 (rd f (12 + 0x10 + 2 * i) 2)) ([] : SMap Nat)
    (s.setLink l { k with credits := cs }).pumpLink l

def onRetryReq (s : State) (l : Nat) (f : List Byte) : State :=
  s.control l f 2 fun s => (s.replayFrom l (ff f 14 2 11 0)).pumpLink l

def onResumeFlit (s : State) (l : Nat) (f : List Byte) : State :=
  s.control l f 3 fun s => (s.replayFrom l (ff f 14 2 11 0)).pumpLink l

/-- RETRY_REQ is repeated every 2 µs until the replay arrives. -/
def retryRepeat (s : State) (l : Nat) : State :=
  let k := s.link l
  match k.nak with
  | some t => if (k.state = 2 || k.state = 4) && decide (t + 4800 ≤ s.now) then s.askReplay l else s
  | none => s

/-- ACK_TIMER: a payload flit has waited 1 µs for its acknowledgement, or a freed buffer has credits that no flit has returned; a link with
nothing to send sends idle flits, which return them (R337, R340). [DEDUCED, log 161] -/
def ackTimer (s : State) (l : Nat) : State :=
  let k := s.link l
  if (k.state = 2 || k.state = 4) && (k.unacked != 0 || !k.owed.isEmpty) && decide (k.ackDue ≤ s.now) then s.idleFlit l else s

/-! ## Up and down (R340, R342) -/

/-- LINK_UP: a first training ends. [DESIGN CHOICE, log 173] -/
def linkUp (s : State) (l : Nat) : State :=
  let k := s.link l
  if k.state != 1 then s else
  (s.setLink l { k with state := 2, since := s.now }).controlFlit l 1 (creditBody ((s.bvPort (l / 2)).mode == 2))

/-- LINK_RETRAIN: signal or FEC lock is lost, or a number has failed eight times. -/
def linkRetrain (s : State) (l : Nat) : State :=
  let st := (s.link l).state
  if st = 2 || st = 4 then s.retrain l else s

/-- RETRAIN_COMPLETE: up again within the fabric timeout, each side says what it expects. -/
def retrained (s : State) (l : Nat) : State :=
  let k := s.link l
  if k.state != 3 || decide (k.since + s.fab.tmoUs * 2400 ≤ s.now) then s else
  (s.setLink l { k with state := 2, since := s.now, nak := none }).controlFlit l 3 (le 2 k.rxExp)

/-- LINK_DOWN: not up within the fabric timeout. What the link still had to send is lost. [DESIGN CHOICE, log 173] -/
def linkDown (s : State) (l : Nat) : State :=
  let k := s.link l
  if k.state != 3 || decide (s.now < k.since + s.fab.tmoUs * 2400) then s else
  (((s.setLink l { Link.down with since := s.now }).linkErr l 4).fabricEvent).linkLog l 4

end State

def execPayloadFlit (l : Nat) (f : List Byte) (s : State) : Host.Outcome State Fault Refusal := .next (s.payloadFlit l f)
def execIdleFlit (l : Nat) (f : List Byte) (s : State) : Host.Outcome State Fault Refusal := .next (s.onIdle l f)
def execCreditInit (l : Nat) (f : List Byte) (s : State) : Host.Outcome State Fault Refusal := .next (s.onCreditInit l f)
def execRetryReq (l : Nat) (f : List Byte) (s : State) : Host.Outcome State Fault Refusal := .next (s.onRetryReq l f)
def execResume (l : Nat) (f : List Byte) (s : State) : Host.Outcome State Fault Refusal := .next (s.onResumeFlit l f)
def execRetryReqRepeat (l : Nat) (s : State) : Host.Outcome State Fault Refusal := .next (s.retryRepeat l)
def execAckTimer (l : Nat) (s : State) : Host.Outcome State Fault Refusal := .next (s.ackTimer l)
def execLinkRetrain (l : Nat) (s : State) : Host.Outcome State Fault Refusal := .next (s.linkRetrain l)
def execRetrainComplete (l : Nat) (s : State) : Host.Outcome State Fault Refusal := .next (s.retrained l)
def execLinkDown (l : Nat) (s : State) : Host.Outcome State Fault Refusal := .next (s.linkDown l)
def execLinkUp (l : Nat) (s : State) : Host.Outcome State Fault Refusal := .next (s.linkUp l)

end Sys2Proof.Machine
end

