-- ==== Sys2Proof/Machine/Issue.lean ====
section
/-! DEFINITION. Sys2Proof/Machine/Issue.lean: what one cycle does when no command comes: clocks and counters, instructions that wait, and work
that goes on by itself (R28, R77, R179, R373, R462, R476). -/

namespace Sys2Proof.Machine

/-! ## An instruction by its opcode -/

/-- The meaning of the instruction in a frame. -/
def runAny (c : Nat) (f : Frame) : State → State :=
  match opcode f with
  | 0x00 => runNop c f | 0x01 => runHalt c f | 0x02 => runSeti c f | 0x03 => runSalu c f | 0x04 => runScmp c f
  | 0x05 => runPlog c f | 0x06 => runSld c f | 0x07 => runSst c f | 0x08 => runBr c f | 0x09 => runBri c f
  | 0x0B => runLend c f | 0x10 => runFsig c f | 0x11 => runFwait c f | 0x12 => runFrd c f | 0x14 => runBollard c f
  | 0x15 => runWaitu c f | 0x16 => runAstat c f | 0x17 => runTrap c f | 0x20 => runSpost c f | 0x21 => runAtom c f
  | 0x40 => runMma c f | 0x44 => runPload c f | 0x45 => runTload c f | 0x48 => runGwset c f | 0x49 => runGwait c f
  | 0x50 => runMmawg c f | 0x58 => runAccz c f | 0x59 => runAccst c f | 0x5A => runAccmv c f | 0x5B => runAccsv c f
  | 0x5C => runAccld c f | 0x60 => runVew c f | 0x61 => runVmp c f | 0x62 => runVld c f | 0x63 => runVst c f
  | 0x64 => runVred c f | 0x68 => runUpload c f | 0x6C => runPool c f | 0x6D => runPoolb c f | 0x80 => runNormf c f
  | 0x81 => runNormb c f | 0x84 => runSmaxf c f | 0x85 => runSmaxb c f | 0x88 => runRstat c f | 0x89 => runRfin c f
  | 0x8C => runSmst c f | 0x8D => runSmld c f | 0x90 => runAttf c f | 0x91 => runAttb c f | 0x94 => runKvop c f
  | 0xA0 => runConv c f
  | 0xA4 => match fld f 17 16 with | 1 => runHaloWait c f | 2 => runHaloRelease c f | _ => runHaloSend c f
  | 0xA8 => runSconv c f | 0xA9 => runSwgrad c f | 0xAA => runSpool c f | 0xAB => runSnorm c f
  | 0xB0 => runBfill c f | 0xB4 => runOptim c f | 0xC0 => runPhase c f | 0xC1 => runTime c f
  | _ => runNone c f

namespace State

/-! ## Instructions that wait -/

/-- The held instruction of a core tries to issue again. [DEDUCED, log 19] -/
def reissue (s : State) (c : Nat) : State :=
  match (s.ctx c).hold with
  | some h => if s.running c && !(s.core c).issued then runAny c h.frame s else s
  | none => s

/-- The meaning of an instruction that a unit takes from its queue. -/
def unitBody (f : Frame) : Ins → State → IRes :=
  match opcode f with
  | 0x06 => sldBody | 0x07 => sstBody | 0x20 => spostBody | 0x21 => atomBody | 0x60 => vewBody | 0x61 => vmpBody | 0x62 => vldBody
  | 0x63 => vstBody | 0x64 => vredBody | 0x68 => uploadBody | 0x6C => poolBody false | 0x6D => poolBody true
  | 0x80 => normBody false | 0x81 => normBody true | 0x84 => smaxBody false | 0x85 => smaxBody true | 0x88 => rstatBody
  | 0x89 => rfinBody | 0x8C => smBody false | 0x8D => smBody true | 0x90 => attBody false | 0x91 => attBody true
  | 0x94 => kvopBody | 0xB0 => bfillBody | 0xB4 => optimBody | _ => noneBody

/-- The scalar registers as they were when a queued instruction issued. -/
def oldRegs (q : Queued) (x : Ctx) : Ctx := { x with a := q.a, l := q.l }

/-- What a queued instruction leaves of the context: the scalar registers it has written, beside those of the present, and an entry of
its queue that is free. -/
def newRegs (q : Queued) (now y : Ctx) : Ctx :=
  { y with
    a := (y.a.zip (q.a.zip now.a)).map (fun v => if v.1 == v.2.1 then v.2.2 else v.1)
    l := (y.l.zip (q.l.zip now.l)).map (fun v => if v.1 == v.2.1 then v.2.2 else v.1)
    uq := y.uq.filter fun p => p.uid != q.uid
    pend := y.pend.eraseP fun p => p.2 == q.uid }

/-- A unit takes an instruction from its queue, if it can start now (R179). [DESIGN CHOICE, log 11] [DEDUCED, log 178] -/
def startQueued (s : State) (c : Nat) (q : Queued) : State :=
  let now := s.ctx c
  if !s.running c || !now.uq.any (fun p => p.uid == q.uid) then s else
  match unitBody q.frame ⟨c, (s.core c).holder, q.pc, q.frame, q.uid⟩ (s.modCtx c (oldRegs q)) with
  | .done t => t.modCtx c (newRegs q now)
  | .fault t i => (t.modCtx c (newRegs q now)).fault c q.pc q.frame i
  | _ => s

/-- The queues of the units other than the matrix unit, the oldest instruction first. [DEDUCED, log 178] -/
def startQueues (s : State) (c : Nat) : State := (s.ctx c).uq.foldl (fun s q => s.startQueued c q) s

/-! ## PANEL_ORDER_FAULT (R533) -/

/-- Panel loads that no pass has taken: the queue's, the oldest first. [DEDUCED, log 157] -/
def stuckLoads (m : Matrix) : List PanelLoad := (m.loads.drop 1).filter fun l => l.began.isNone

/-- Would the held instruction issue if the loads that cannot begin had ended? [DEDUCED, log 157] -/
def stuckOnLoads (s : State) (c : Nat) : Bool :=
  let t := s.modMx c fun m => { m with loads := m.loads.take 1 ++ (m.loads.drop 1).map fun l =>
    if l.began.isNone then { l with began := some s.now, ended := some s.now } else l }
  (s.ctx c).hold.isSome && ((t.reissue c).ctx c).hold.isNone

/-- The sequencer waits on a load that can never begin, or a PLOAD or TLOAD is stalled for ever. [DEDUCED, log 157] -/
def panelOrder (s : State) (c : Nat) : State :=
  let m := s.mx c
  match (s.ctx c).hold with
  | none => s
  | some h =>
    if !s.matrixOn c || m.queue.any (fun e => MKind.takes e.kind) then s
    else if (opcode h.frame = 0x44 || opcode h.frame = 0x45) && 4 ≤ m.queued.length then
      s.fault c (s.ctx c).pc h.frame (faultOf 0x46 1)
    else
      match stuckLoads m with
      | l :: _ => if s.stuckOnLoads c then s.fault c l.pc l.frame (faultOf 0x46 1) else s
      | [] => s

/-! ## Clocks -/

/-- Fabric time moves by one cycle, with at most 200 parts per million of what a correction still owes (R373, R374).
[DESIGN CHOICE, log 10] -/
def tickTime (t : FabTime) : FabTime :=
  let d : Int := max (-5) (min 5 t.slew)
  { t with ft := (t.ft + 25000 + d).toNat, slew := t.slew - d }

/-- A cycle of a core whose clock runs: its gather window, its cycles, and the cycles an instruction waits; a core that is
pre-empted spills. [DEDUCED, log 19, 155] -/
def tickCore (s : State) (c : Nat) (k : Core) : Core :=
  if !s.clocked c then k
  else if k.st = 2 then { k with spill := k.spill - 1 }
  else if k.st = 1 then
    { k with ctx := { k.ctx with
        mx := { k.ctx.mx with gather := k.ctx.mx.gather.map (gatherTick k.ctx) }
        cycles := k.ctx.cycles + 1
        stalls := k.ctx.stalls + if k.ctx.hold.isSome then 1 else 0
        hold := k.ctx.hold.map fun h => { h with waited := h.waited + 1 } } }
  else k

/-- A slice does not advance while a core of the program is halted by the debug probe (R194). -/
def tickProg (s : State) (p : Prog) : Prog :=
  if p.st = 3 && p.cores.any fun c => (s.core c).st == 6 then { p with still := p.still + 1 } else p

/-- One cycle of every clock. The idle time of R469 counts from the last cycle in which something was at work.
[DESIGN CHOICE, log 1, 10] -/
def clocks (s : State) : State :=
  { s with
    now := s.now + 1
    fab := { s.fab with time := tickTime s.fab.time }
    cores := s.cores.map fun k => (k.1, s.tickCore k.1 k.2)
    progs := s.progs.map fun p => (p.1, s.tickProg p.2)
    pw := if s.quiet then s.pw else { s.pw with idleFrom := s.now + 1 } }

/-! ## Work that goes on by itself -/

/-- A request that waits at its source: its target and route are looked at again, and it goes out when nothing holds it and a
tag is free (R355, R370, R377). [DEDUCED, log 156] -/
def resend (s : State) (r : Req) : State :=
  let d := r.pkt.dst.toNat
  if s.fab.devState != 1 || !SMap.getD s.fab.members d false then s.complete r St.departed [] else
  match s.pickLink d (routeKey r.pkt) with
  | none => s.complete r St.departed []
  | some l =>
    let keep : State := { s with fab := { s.fab with waiting := s.fab.waiting ++ [r] } }
    if s.snapHold && decide (1 ≤ r.vl) && decide (r.vl ≤ 4) then keep else
    match s.freeTag (r.pkt.op = 1) with
    | none => keep
    | some t => s.transmit t l r

/-- Every request that waits, in order. -/
def resendAll (s : State) : State :=
  s.fab.waiting.foldl (fun (s : State) r => s.resend r) { s with fab := { s.fab with waiting := [] } }

/-- A mailbox command that waits for data it reads (R442). [DEDUCED, log 167] -/
def boxGo (s : State) (p : Port) : State :=
  match s.fetch? (.mbx (portNo p)), (s.box p).busy with
  | some f, some (op, m) =>
    if f.missing != 0 then s else
    (match cmdOf op.toNat false m with
     | some k =>
       (match k.run m s with
        | (.now st py stream detail, s) => s.respond p m.tag st py stream detail
        | (_, s) => s)
     | none => s)
  | _, _ => s

/-- Batches submitted by command whose header has arrived. -/
def submitAll (s : State) : State :=
  s.streams.foldl (fun (s : State) x => match x.2.long with | some (.igBatch _) => s.submitGo x.1 | _ => s) s

/-- Stream phases go on. -/
def phasesGo (s : State) : State :=
  s.tr.steps.foldl (fun (s : State) x =>
    match x.2.run with
    | some _ => (List.range x.2.phases.length).foldl (fun (s : State) ph => s.phaseFeed x.1 ph) s
    | none => s) s

/-- The matrix queue and the held instruction of a core whose clock runs. -/
def coreGo (s : State) (c : Nat) : State :=
  let s := s.dbgGo c
  if !s.running c || !s.clocked c then s else
  let s := if s.matrixOn c then s.runMatrix 10 c else s
  (s.startQueues c).reissue c

/-- Edit requests with a reserved operation, for which the table has no row: they complete with `ST_BAD_FIELD` (R206).
[DEDUCED, log 33] -/
def reservedEdits (s : State) : State :=
  s.kv.edits.foldl (fun (s : State) e => if 9 < e.op then s.applyEdit e else s) s

/-- Everything that goes on without a command. [DESIGN CHOICE, log 1] -/
def background (s : State) : State :=
  let s := (((s.failGo).deliver s.sposts.length).resendAll).arriveEdits.reservedEdits
  let s := s.fab.links.foldl (fun (s : State) l => (s.pumpLink l.1).drainEnd l.1) s
  let s := s.tr.rings.foldl (fun (s : State) r => s.ringSent r.1) s
  let s := s.fab.trees.foldl (fun (s : State) t => match t.2.run with | some r => if r.draining then s.gopDrained t.1 false else s | none => s) s
  let s := (allPorts.foldl State.boxGo s.submitAll).phasesGo
  let s := s.progs.foldl (fun (s : State) p => s.switchGo p.1) s
  s.cores.foldl (fun (s : State) k => s.coreGo k.1) s

/-- One cycle without a command. [DESIGN CHOICE, log 1] -/
def tick (s : State) : State := s.clocks.bootGo.background

end State

def execPanelOrderFault (c : Nat) (s : State) : Host.Outcome State Fault Refusal := .next (s.panelOrder c)

end Sys2Proof.Machine
end

