-- ==== Sys2Proof/Machine/Dispatch.lean ====
section
/-! DEFINITION. Sys2Proof/Machine/Dispatch.lean: one arm per command. -/

namespace Sys2Proof.Machine

/-- The effect of a command on everything but the queue. [DESIGN CHOICE, log 2] -/
def exec (i : Instr) (s : State) : Host.Outcome State Fault Refusal :=
  match i with
  | .nop c f => Sys2Proof.Machine.execNop c f s
  | .halt c f => Sys2Proof.Machine.execHalt c f s
  | .seti c f => Sys2Proof.Machine.execSeti c f s
  | .salu c f => Sys2Proof.Machine.execSalu c f s
  | .scmp c f => Sys2Proof.Machine.execScmp c f s
  | .plog c f => Sys2Proof.Machine.execPlog c f s
  | .sld c f => Sys2Proof.Machine.execSld c f s
  | .sst c f => Sys2Proof.Machine.execSst c f s
  | .br c f => Sys2Proof.Machine.execBr c f s
  | .bri c f => Sys2Proof.Machine.execBri c f s
  | .lend c f => Sys2Proof.Machine.execLend c f s
  | .fsig c f => Sys2Proof.Machine.execFsig c f s
  | .fwait c f => Sys2Proof.Machine.execFwait c f s
  | .frd c f => Sys2Proof.Machine.execFrd c f s
  | .bollard c f => Sys2Proof.Machine.execBollard c f s
  | .waitu c f => Sys2Proof.Machine.execWaitu c f s
  | .astat c f => Sys2Proof.Machine.execAstat c f s
  | .trap c f => Sys2Proof.Machine.execTrap c f s
  | .phase c f => Sys2Proof.Machine.execPhase c f s
  | .time c f => Sys2Proof.Machine.execTime c f s
  | .illegalOpcode c f => Sys2Proof.Machine.execIllegalOpcode c f s
  | .flagSignalApply ix => Sys2Proof.Machine.execFlagSignalApply ix s
  | .fwaitTimeout c => Sys2Proof.Machine.execFwaitTimeout c s
  | .mma c f => Sys2Proof.Machine.execMma c f s
  | .pload c f => Sys2Proof.Machine.execPload c f s
  | .tload c f => Sys2Proof.Machine.execTload c f s
  | .gwset c f => Sys2Proof.Machine.execGwset c f s
  | .gwait c f => Sys2Proof.Machine.execGwait c f s
  | .mmawg c f => Sys2Proof.Machine.execMmawg c f s
  | .accz c f => Sys2Proof.Machine.execAccz c f s
  | .accst c f => Sys2Proof.Machine.execAccst c f s
  | .accmv c f => Sys2Proof.Machine.execAccmv c f s
  | .accsv c f => Sys2Proof.Machine.execAccsv c f s
  | .accld c f => Sys2Proof.Machine.execAccld c f s
  | .panelLoadBegin c => Sys2Proof.Machine.execPanelLoadBegin c s
  | .passStart c => Sys2Proof.Machine.execPassStart c s
  | .gatherWindowTimeout c => Sys2Proof.Machine.execGatherWindowTimeout c s
  | .panelOrderFault c => Sys2Proof.Machine.execPanelOrderFault c s
  | .vew c f => Sys2Proof.Machine.execVew c f s
  | .vmp c f => Sys2Proof.Machine.execVmp c f s
  | .vld c f => Sys2Proof.Machine.execVld c f s
  | .vst c f => Sys2Proof.Machine.execVst c f s
  | .vred c f => Sys2Proof.Machine.execVred c f s
  | .upload c f => Sys2Proof.Machine.execUpload c f s
  | .pool c f => Sys2Proof.Machine.execPool c f s
  | .poolb c f => Sys2Proof.Machine.execPoolb c f s
  | .normf c f => Sys2Proof.Machine.execNormf c f s
  | .normb c f => Sys2Proof.Machine.execNormb c f s
  | .smaxf c f => Sys2Proof.Machine.execSmaxf c f s
  | .smaxb c f => Sys2Proof.Machine.execSmaxb c f s
  | .rstat c f => Sys2Proof.Machine.execRstat c f s
  | .rfin c f => Sys2Proof.Machine.execRfin c f s
  | .smst c f => Sys2Proof.Machine.execSmst c f s
  | .smld c f => Sys2Proof.Machine.execSmld c f s
  | .attf c f => Sys2Proof.Machine.execAttf c f s
  | .attb c f => Sys2Proof.Machine.execAttb c f s
  | .kvop c f => Sys2Proof.Machine.execKvop c f s
  | .walkComplete c entry => Sys2Proof.Machine.execWalkComplete c entry s
  | .query ix => Sys2Proof.Machine.execQuery ix s
  | .create ix => Sys2Proof.Machine.execCreate ix s
  | .free ix => Sys2Proof.Machine.execFree ix s
  | .reserve ix => Sys2Proof.Machine.execReserve ix s
  | .extend ix => Sys2Proof.Machine.execExtend ix s
  | .truncate ix => Sys2Proof.Machine.execTruncate ix s
  | .stage ix => Sys2Proof.Machine.execStage ix s
  | .install ix => Sys2Proof.Machine.execInstall ix s
  | .promote ix => Sys2Proof.Machine.execPromote ix s
  | .fork ix => Sys2Proof.Machine.execFork ix s
  | .kvPageSpill pool => Sys2Proof.Machine.execKvPageSpill pool s
  | .spillCopyDone ix ok => Sys2Proof.Machine.execSpillCopyDone ix ok s
  | .recordEviction seq => Sys2Proof.Machine.execRecordEviction seq s
  | .editLogSlotFree seq => Sys2Proof.Machine.execEditLogSlotFree seq s
  | .frameRelease pool entry => Sys2Proof.Machine.execFrameRelease pool entry s
  | .conv c f => Sys2Proof.Machine.execConv c f s
  | .haloSend c f => Sys2Proof.Machine.execHaloSend c f s
  | .haloWait c f => Sys2Proof.Machine.execHaloWait c f s
  | .haloRelease c f => Sys2Proof.Machine.execHaloRelease c f s
  | .sconv c f => Sys2Proof.Machine.execSconv c f s
  | .swgrad c f => Sys2Proof.Machine.execSwgrad c f s
  | .spool c f => Sys2Proof.Machine.execSpool c f s
  | .snorm c f => Sys2Proof.Machine.execSnorm c f s
  | .stemReservation c => Sys2Proof.Machine.execStemReservation c s
  | .stemGrant e => Sys2Proof.Machine.execStemGrant e s
  | .stemJobStart e => Sys2Proof.Machine.execStemJobStart e s
  | .stemJobComplete e => Sys2Proof.Machine.execStemJobComplete e s
  | .cmdIgSubmit m => Sys2Proof.Machine.execCmdIgSubmit m s
  | .cmdIgStatus m => Sys2Proof.Machine.execCmdIgStatus m s
  | .cmdIgConfig m => Sys2Proof.Machine.execCmdIgConfig m s
  | .clipStart e => Sys2Proof.Machine.execClipStart e s
  | .clipComplete e => Sys2Proof.Machine.execClipComplete e s
  | .clipTimeout e => Sys2Proof.Machine.execClipTimeout e s
  | .atom c f => Sys2Proof.Machine.execAtom c f s
  | .atomicApply ix => Sys2Proof.Machine.execAtomicApply ix s
  | .spost c f => Sys2Proof.Machine.execSpost c f s
  | .copy st => Sys2Proof.Machine.execCopy st s
  | .fill st => Sys2Proof.Machine.execFill st s
  | .save st => Sys2Proof.Machine.execSave st s
  | .load st => Sys2Proof.Machine.execLoad st s
  | .kvfetch st => Sys2Proof.Machine.execKvfetch st s
  | .ingest st => Sys2Proof.Machine.execIngest st s
  | .redadd st => Sys2Proof.Machine.execRedadd st s
  | .xwopen st => Sys2Proof.Machine.execXwopen st s
  | .xwclose st => Sys2Proof.Machine.execXwclose st s
  | .waitflag st => Sys2Proof.Machine.execWaitflag st s
  | .waitflagTimeout st => Sys2Proof.Machine.execWaitflagTimeout st s
  | .gop st => Sys2Proof.Machine.execGop st s
  | .bucket st => Sys2Proof.Machine.execBucket st s
  | .norm st => Sys2Proof.Machine.execNorm st s
  | .fold st => Sys2Proof.Machine.execFold st s
  | .descriptorComplete st => Sys2Proof.Machine.execDescriptorComplete st s
  | .streamSliceExpiry st => Sys2Proof.Machine.execStreamSliceExpiry st s
  | .windowSlotSwitch unit => Sys2Proof.Machine.execWindowSlotSwitch unit s
  | .recalibrationPause ch temp => Sys2Proof.Machine.execRecalibrationPause ch temp s
  | .recalibrationPauseEnd ch => Sys2Proof.Machine.execRecalibrationPauseEnd ch s
  | .patrolScrub addr err => Sys2Proof.Machine.execPatrolScrub addr err s
  | .cmdMemPartition m => Sys2Proof.Machine.execCmdMemPartition m s
  | .cmdXwOpen m => Sys2Proof.Machine.execCmdXwOpen m s
  | .cmdXwClose m => Sys2Proof.Machine.execCmdXwClose m s
  | .cmdXwStatus m => Sys2Proof.Machine.execCmdXwStatus m s
  | .cmdStreamCreate m => Sys2Proof.Machine.execCmdStreamCreate m s
  | .cmdStreamPost m => Sys2Proof.Machine.execCmdStreamPost m s
  | .cmdStreamStatus m => Sys2Proof.Machine.execCmdStreamStatus m s
  | .cmdStreamCancel m => Sys2Proof.Machine.execCmdStreamCancel m s
  | .cmdStreamDestroy m => Sys2Proof.Machine.execCmdStreamDestroy m s
  | .cmdStreamConfig m => Sys2Proof.Machine.execCmdStreamConfig m s
  | .cmdProgLoad m => Sys2Proof.Machine.execCmdProgLoad m s
  | .cmdProgPlace m => Sys2Proof.Machine.execCmdProgPlace m s
  | .cmdProgStart m => Sys2Proof.Machine.execCmdProgStart m s
  | .cmdProgStatus m => Sys2Proof.Machine.execCmdProgStatus m s
  | .cmdProgFaults m => Sys2Proof.Machine.execCmdProgFaults m s
  | .cmdProgUnload m => Sys2Proof.Machine.execCmdProgUnload m s
  | .cmdProgFlag m => Sys2Proof.Machine.execCmdProgFlag m s
  | .programSliceExpiry h => Sys2Proof.Machine.execProgramSliceExpiry h s
  | .coreRetire c => Sys2Proof.Machine.execCoreRetire c s
  | .payloadFlit link flit => Sys2Proof.Machine.execPayloadFlit link flit s
  | .idleFlit link flit => Sys2Proof.Machine.execIdleFlit link flit s
  | .creditInit link flit => Sys2Proof.Machine.execCreditInit link flit s
  | .retryReq link flit => Sys2Proof.Machine.execRetryReq link flit s
  | .resume link flit => Sys2Proof.Machine.execResume link flit s
  | .retryReqRepeat link => Sys2Proof.Machine.execRetryReqRepeat link s
  | .ackTimer link => Sys2Proof.Machine.execAckTimer link s
  | .linkRetrain link => Sys2Proof.Machine.execLinkRetrain link s
  | .retrainComplete link => Sys2Proof.Machine.execRetrainComplete link s
  | .linkDown link => Sys2Proof.Machine.execLinkDown link s
  | .read link p => Sys2Proof.Machine.execRead link p s
  | .write link p => Sys2Proof.Machine.execWrite link p s
  | .atomic link p => Sys2Proof.Machine.execAtomic link p s
  | .flag link p => Sys2Proof.Machine.execFlag link p s
  | .mread link p => Sys2Proof.Machine.execMread link p s
  | .mwrite link p => Sys2Proof.Machine.execMwrite link p s
  | .fabricResponse link p => Sys2Proof.Machine.execFabricResponse link p s
  | .requestTimeout tag => Sys2Proof.Machine.execRequestTimeout tag s
  | .gopArrive link p => Sys2Proof.Machine.execGopArrive link p s
  | .gopRelease link p => Sys2Proof.Machine.execGopRelease link p s
  | .gopDrain link p => Sys2Proof.Machine.execGopDrain link p s
  | .gopDrained link p => Sys2Proof.Machine.execGopDrained link p s
  | .gopResume link p => Sys2Proof.Machine.execGopResume link p s
  | .snapshotDrainLimit tree => Sys2Proof.Machine.execSnapshotDrainLimit tree s
  | .globalOperationTimeout tree => Sys2Proof.Machine.execGlobalOperationTimeout tree s
  | .timePacket link p => Sys2Proof.Machine.execTimePacket link p s
  | .timeExchange => Sys2Proof.Machine.execTimeExchange s
  | .syncLoss => Sys2Proof.Machine.execSyncLoss s
  | .leavePoint => Sys2Proof.Machine.execLeavePoint s
  | .cmdBvPort m => Sys2Proof.Machine.execCmdBvPort m s
  | .cmdBvRoute m => Sys2Proof.Machine.execCmdBvRoute m s
  | .cmdBvExpose m => Sys2Proof.Machine.execCmdBvExpose m s
  | .cmdBvMembers m => Sys2Proof.Machine.execCmdBvMembers m s
  | .cmdBvTree m => Sys2Proof.Machine.execCmdBvTree m s
  | .cmdBvJoin m => Sys2Proof.Machine.execCmdBvJoin m s
  | .cmdBvLeave m => Sys2Proof.Machine.execCmdBvLeave m s
  | .cmdBvGlobal m => Sys2Proof.Machine.execCmdBvGlobal m s
  | .cmdBvFrozen m => Sys2Proof.Machine.execCmdBvFrozen m s
  | .cmdBvConfig m => Sys2Proof.Machine.execCmdBvConfig m s
  | .cmdBvStatus m => Sys2Proof.Machine.execCmdBvStatus m s
  | .bfill c f => Sys2Proof.Machine.execBfill c f s
  | .optim c f => Sys2Proof.Machine.execOptim c f s
  | .bucketStart b => Sys2Proof.Machine.execBucketStart b s
  | .segmentArrival ring => Sys2Proof.Machine.execSegmentArrival ring s
  | .sparseClose b => Sys2Proof.Machine.execSparseClose b s
  | .ringTimeout ring => Sys2Proof.Machine.execRingTimeout ring s
  | .bucketStepComplete b => Sys2Proof.Machine.execBucketStepComplete b s
  | .phaseStart sp ph => Sys2Proof.Machine.execPhaseStart sp ph s
  | .phaseComplete sp ph => Sys2Proof.Machine.execPhaseComplete sp ph s
  | .phaseTimeout sp ph => Sys2Proof.Machine.execPhaseTimeout sp ph s
  | .phaseStamp ix => Sys2Proof.Machine.execPhaseStamp ix s
  | .straggler phid => Sys2Proof.Machine.execStraggler phid s
  | .cmdTsRing m => Sys2Proof.Machine.execCmdTsRing m s
  | .cmdTsBucket m => Sys2Proof.Machine.execCmdTsBucket m s
  | .cmdTsNorms m => Sys2Proof.Machine.execCmdTsNorms m s
  | .cmdTsStep m => Sys2Proof.Machine.execCmdTsStep m s
  | .cmdTsStepRun m => Sys2Proof.Machine.execCmdTsStepRun m s
  | .cmdTsStepStop m => Sys2Proof.Machine.execCmdTsStepStop m s
  | .cmdTsPhase m => Sys2Proof.Machine.execCmdTsPhase m s
  | .cmdTsPhlog m => Sys2Proof.Machine.execCmdTsPhlog m s
  | .cmdTsStatus m => Sys2Proof.Machine.execCmdTsStatus m s
  | .bar0AccessInvalid isWrite off len => Sys2Proof.Machine.execBar0AccessInvalid isWrite off len s
  | .plazaRead off len => Sys2Proof.Machine.execPlazaRead off len s
  | .plazaWrite off data => Sys2Proof.Machine.execPlazaWrite off data s
  | .pzBaseWrite half v => Sys2Proof.Machine.execPzBaseWrite half v s
  | .pzFlushRead atx len => Sys2Proof.Machine.execPzFlushRead atx len s
  | .apertureRead rid off len => Sys2Proof.Machine.execApertureRead rid off len s
  | .apertureWrite rid off data => Sys2Proof.Machine.execApertureWrite rid off data s
  | .flushAddressRead rid region => Sys2Proof.Machine.execFlushAddressRead rid region s
  | .dcAbort v prompt => Sys2Proof.Machine.execDcAbort v prompt s
  | .dcSnapReq v => Sys2Proof.Machine.execDcSnapReq v s
  | .registerWrite off len v => Sys2Proof.Machine.execRegisterWrite off len v s
  | .cmdInfoDevice m => Sys2Proof.Machine.execCmdInfoDevice m s
  | .cmdInfoInventory m => Sys2Proof.Machine.execCmdInfoInventory m s
  | .cmdInfoConfig m => Sys2Proof.Machine.execCmdInfoConfig m s
  | .cmdCommit m => Sys2Proof.Machine.execCmdCommit m s
  | .commitPoint => Sys2Proof.Machine.execCommitPoint s
  | .cmdStageDiscard m => Sys2Proof.Machine.execCmdStageDiscard m s
  | .cmdConfigDevice m => Sys2Proof.Machine.execCmdConfigDevice m s
  | .cmdRgSet m => Sys2Proof.Machine.execCmdRgSet m s
  | .cmdAbort m prompt => Sys2Proof.Machine.execCmdAbort m prompt s
  | .abortWatchdog ix => Sys2Proof.Machine.execAbortWatchdog ix s
  | .cmdReset m => Sys2Proof.Machine.execCmdReset m s
  | .cmdSnapshot m => Sys2Proof.Machine.execCmdSnapshot m s
  | .longCommandComplete st => Sys2Proof.Machine.execLongCommandComplete st s
  | .blockResetIdle blk => Sys2Proof.Machine.execBlockResetIdle blk s
  | .blockResetTmo blk => Sys2Proof.Machine.execBlockResetTmo blk s
  | .powerOnReset => Sys2Proof.Machine.execPowerOnReset s
  | .standbyRailsValid => Sys2Proof.Machine.execStandbyRailsValid s
  | .sagWarning => Sys2Proof.Machine.execSagWarning s
  | .sagWarningRelease => Sys2Proof.Machine.execSagWarningRelease s
  | .sagReset => Sys2Proof.Machine.execSagReset s
  | .sagResetRelease => Sys2Proof.Machine.execSagResetRelease s
  | .powerSample r => Sys2Proof.Machine.execPowerSample r s
  | .throttleBoundary => Sys2Proof.Machine.execThrottleBoundary s
  | .throttleEnd thermal => Sys2Proof.Machine.execThrottleEnd thermal s
  | .standbyWaitExpiry => Sys2Proof.Machine.execStandbyWaitExpiry s
  | .droopStretch street => Sys2Proof.Machine.execDroopStretch street s
  | .droopStop street => Sys2Proof.Machine.execDroopStop street s
  | .droopRecovery street => Sys2Proof.Machine.execDroopRecovery street s
  | .referenceClockLost => Sys2Proof.Machine.execReferenceClockLost s
  | .referenceClockRegained => Sys2Proof.Machine.execReferenceClockRegained s
  | .chipWideIdleness => Sys2Proof.Machine.execChipWideIdleness s
  | .wake => Sys2Proof.Machine.execWake s
  | .pllRestartComplete => Sys2Proof.Machine.execPllRestartComplete s
  | .modResetNAssert => Sys2Proof.Machine.execModResetNAssert s
  | .modResetNRelease => Sys2Proof.Machine.execModResetNRelease s
  | .ucieLinkReset => Sys2Proof.Machine.execUcieLinkReset s
  | .watchdog => Sys2Proof.Machine.execWatchdog s
  | .writePulseEnd => Sys2Proof.Machine.execWritePulseEnd s
  | .cmdPwrConfig m => Sys2Proof.Machine.execCmdPwrConfig m s
  | .cmdPwrStatus m => Sys2Proof.Machine.execCmdPwrStatus m s
  | .cmdSecSpdm m => Sys2Proof.Machine.execCmdSecSpdm m s
  | .cmdSecNonce m => Sys2Proof.Machine.execCmdSecNonce m s
  | .cmdSecOwner m => Sys2Proof.Machine.execCmdSecOwner m s
  | .cmdSecDebug m => Sys2Proof.Machine.execCmdSecDebug m s
  | .cmdSecSession m => Sys2Proof.Machine.execCmdSecSession m s
  | .nonceExpiry p => Sys2Proof.Machine.execNonceExpiry p s
  | .sessionExpiry => Sys2Proof.Machine.execSessionExpiry s
  | .cmdFwStage m => Sys2Proof.Machine.execCmdFwStage m s
  | .cmdFwActivate m => Sys2Proof.Machine.execCmdFwActivate m s
  | .handOverPoint => Sys2Proof.Machine.execHandOverPoint s
  | .handoverHeartbeatTimeout => Sys2Proof.Machine.execHandoverHeartbeatTimeout s
  | .cmdFwConfirm m => Sys2Proof.Machine.execCmdFwConfirm m s
  | .cmdFwStatus m => Sys2Proof.Machine.execCmdFwStatus m s
  | .cmdErrlogRead m => Sys2Proof.Machine.execCmdErrlogRead m s
  | .cmdSvcNet m => Sys2Proof.Machine.execCmdSvcNet m s
  | .discover h => Sys2Proof.Machine.execDiscover h s
  | .mbxCmd h area => Sys2Proof.Machine.execMbxCmd h area s
  | .imgData h off data => Sys2Proof.Machine.execImgData h off data s
  | .imgReqRetry off => Sys2Proof.Machine.execImgReqRetry off s
  | .imageFetchTimeout => Sys2Proof.Machine.execImageFetchTimeout s
  | .conIn h text => Sys2Proof.Machine.execConIn h text s
  | .mctpMailboxCommand area => Sys2Proof.Machine.execMctpMailboxCommand area s
  | .mctpSpdm msg => Sys2Proof.Machine.execMctpSpdm msg s
  | .mbx dr => Sys2Proof.Machine.execMbx dr s
  | .dbglock v => Sys2Proof.Machine.execDbglock v s
  | .wdtsusp v => Sys2Proof.Machine.execWdtsusp v s
  | .coDbgctlHaltreq c v => Sys2Proof.Machine.execCoDbgctlHaltreq c v s
  | .coDbgctlStep c v => Sys2Proof.Machine.execCoDbgctlStep c v s
  | .coDbgctlResume c v => Sys2Proof.Machine.execCoDbgctlResume c v s
  | .cmdKvPool m => Sys2Proof.Machine.execCmdKvPool m s
  | .cmdKvEdit m => Sys2Proof.Machine.execCmdKvEdit m s
  | .cmdKvStatus m => Sys2Proof.Machine.execCmdKvStatus m s
  | .unassignedOpcode c f => Sys2Proof.Machine.execUnassignedOpcode c f s
  | .unassignedMailboxOpcode op m => Sys2Proof.Machine.execUnassignedMailboxOpcode op m s
  | .panelLoadEnd c => Sys2Proof.Machine.execPanelLoadEnd c s
  | .passEnd c => Sys2Proof.Machine.execPassEnd c s
  | .linkUp link => Sys2Proof.Machine.execLinkUp link s
  | .blockReinitialised blk => Sys2Proof.Machine.execBlockReinitialised blk s
  | .ucieLinkRetrain => Sys2Proof.Machine.execUcieLinkRetrain s
  | .mctpControl msg => Sys2Proof.Machine.execMctpControl msg s
  | .arpRequest port ip => Sys2Proof.Machine.execArpRequest port ip s
  | .icmpEchoRequest port data => Sys2Proof.Machine.execIcmpEchoRequest port data s
  | .trstNAssert => Sys2Proof.Machine.execTrstNAssert s

end Sys2Proof.Machine
end

