-- ==== Sys2Proof/WellFormed.lean ====
section
/-! DEFINITION. Sys2Proof/WellFormed.lean: which terms are commands of this device. A command that names a unit the device
does not have, or whose frame carries another row's opcode, is ill-formed; the numbers inside a frame or a payload are the
meaning's own to check, and `exec` is total on ill-formed terms too. -/

namespace Sys2Proof

/-- Unit number `i` of `n` units. -/
def wfUnit (n i : Nat) : Bool := decide (i < n)

/-- A core instruction: the core exists and the frame's opcode is the row's (R4, R13). -/
def wfCore (c : Nat) (f : Frame) (op : Nat) : Bool := wfUnit 3072 c && f.toNat % 256 == op

/-- A row of HALO: opcode 0xA4 with one of the row's modes in bits [17:16] (R254). -/
def wfHalo (c : Nat) (f : Frame) (modes : List Nat) : Bool := wfCore c f 0xA4 && modes.contains (f.toNat / 2 ^ 16 % 4)

/-- A mailbox command: the command area's payload is 240 bytes at most (R440). -/
def wfMbx (m : MbxCmd) : Bool := decide (m.payload.length ≤ 240)

/-- A fabric packet on one of the 36 links, with at most 256 bytes of payload, on one of six lanes (R343, R344, R348). -/
def wfPkt (link : Nat) (p : Packet) : Bool :=
  wfUnit 36 link && decide (p.data.length ≤ 256) && decide (p.vl < 6)

/-- A flit of 256 bytes on one of the 36 links (R336, R348). -/
def wfFlit (link : Nat) (flit : List Byte) : Bool := wfUnit 36 link && flit.length == 256

/-- A stream number (R311). -/
def wfStream (st : Nat) : Bool := decide (st < 2 ^ 24)

/-- A block that can be reset (R480): MC, BV, IG, ST or SE. -/
def wfBlock (b : Nat) : Bool :=
  decide (b < 12) || (decide (0x10 ≤ b) && decide (b < 0x22)) || (decide (0x30 ≤ b) && decide (b < 0x38)) ||
  (decide (0x40 ≤ b) && decide (b < 0x60))

/-- A datagram of one of the two service Ethernet ports (R508). -/
def wfSvc (h : SvcHdr) : Bool := wfUnit 2 h.port

/-- Is the term a command of this device? -/
def Instr.wf (i : Instr) : Bool :=
  match i with
  | .nop c f => wfCore c f 0x00
  | .halt c f => wfCore c f 0x01
  | .seti c f => wfCore c f 0x02
  | .salu c f => wfCore c f 0x03
  | .scmp c f => wfCore c f 0x04
  | .plog c f => wfCore c f 0x05
  | .sld c f => wfCore c f 0x06
  | .sst c f => wfCore c f 0x07
  | .br c f => wfCore c f 0x08
  | .bri c f => wfCore c f 0x09
  | .lend c f => wfCore c f 0x0B
  | .fsig c f => wfCore c f 0x10
  | .fwait c f => wfCore c f 0x11
  | .frd c f => wfCore c f 0x12
  | .bollard c f => wfCore c f 0x14
  | .waitu c f => wfCore c f 0x15
  | .astat c f => wfCore c f 0x16
  | .trap c f => wfCore c f 0x17
  | .phase c f => wfCore c f 0xC0
  | .time c f => wfCore c f 0xC1
  | .illegalOpcode c f => wfUnit 3072 c && decide (0xD0 ≤ f.toNat % 256)
  | .flagSignalApply _ => true
  | .fwaitTimeout c => wfUnit 3072 c
  | .mma c f => wfCore c f 0x40
  | .pload c f => wfCore c f 0x44
  | .tload c f => wfCore c f 0x45
  | .gwset c f => wfCore c f 0x48
  | .gwait c f => wfCore c f 0x49
  | .mmawg c f => wfCore c f 0x50
  | .accz c f => wfCore c f 0x58
  | .accst c f => wfCore c f 0x59
  | .accmv c f => wfCore c f 0x5A
  | .accsv c f => wfCore c f 0x5B
  | .accld c f => wfCore c f 0x5C
  | .panelLoadBegin c => wfUnit 3072 c
  | .passStart c => wfUnit 3072 c
  | .gatherWindowTimeout c => wfUnit 3072 c
  | .panelOrderFault c => wfUnit 3072 c
  | .vew c f => wfCore c f 0x60
  | .vmp c f => wfCore c f 0x61
  | .vld c f => wfCore c f 0x62
  | .vst c f => wfCore c f 0x63
  | .vred c f => wfCore c f 0x64
  | .upload c f => wfCore c f 0x68
  | .pool c f => wfCore c f 0x6C
  | .poolb c f => wfCore c f 0x6D
  | .normf c f => wfCore c f 0x80
  | .normb c f => wfCore c f 0x81
  | .smaxf c f => wfCore c f 0x84
  | .smaxb c f => wfCore c f 0x85
  | .rstat c f => wfCore c f 0x88
  | .rfin c f => wfCore c f 0x89
  | .smst c f => wfCore c f 0x8C
  | .smld c f => wfCore c f 0x8D
  | .attf c f => wfCore c f 0x90
  | .attb c f => wfCore c f 0x91
  | .kvop c f => wfCore c f 0x94
  | .walkComplete c entry => wfUnit 3072 c && wfUnit 1024 entry
  | .query _ => true
  | .create _ => true
  | .free _ => true
  | .reserve _ => true
  | .extend _ => true
  | .truncate _ => true
  | .stage _ => true
  | .install _ => true
  | .promote _ => true
  | .fork _ => true
  | .kvPageSpill pl => wfUnit 16 pl
  | .spillCopyDone _ _ => true
  | .recordEviction seq => decide (seq < 2 ^ 32) && decide (seq / 2 ^ 20 % 256 = 0)
  | .editLogSlotFree seq => decide (seq < 2 ^ 32) && decide (seq / 2 ^ 20 % 256 = 0)
  | .frameRelease pl _ => wfUnit 16 pl
  | .conv c f => wfCore c f 0xA0
  | .haloSend c f => wfHalo c f [0, 3]
  | .haloWait c f => wfHalo c f [1]
  | .haloRelease c f => wfHalo c f [2]
  | .sconv c f => wfCore c f 0xA8
  | .swgrad c f => wfCore c f 0xA9
  | .spool c f => wfCore c f 0xAA
  | .snorm c f => wfCore c f 0xAB
  | .stemReservation c => wfUnit 3072 c
  | .stemGrant e => wfUnit 16 e
  | .stemJobStart e => wfUnit 16 e
  | .stemJobComplete e => wfUnit 16 e
  | .cmdIgSubmit m => wfMbx m
  | .cmdIgStatus m => wfMbx m
  | .cmdIgConfig m => wfMbx m
  | .clipStart e => wfUnit 8 e
  | .clipComplete e => wfUnit 8 e
  | .clipTimeout e => wfUnit 8 e
  | .atom c f => wfCore c f 0x21
  | .atomicApply _ => true
  | .spost c f => wfCore c f 0x20
  | .copy st => wfStream st
  | .fill st => wfStream st
  | .save st => wfStream st
  | .load st => wfStream st
  | .kvfetch st => wfStream st
  | .ingest st => wfStream st
  | .redadd st => wfStream st
  | .xwopen st => wfStream st
  | .xwclose st => wfStream st
  | .waitflag st => wfStream st
  | .waitflagTimeout st => wfStream st
  | .gop st => wfStream st
  | .bucket st => wfStream st
  | .norm st => wfStream st
  | .fold st => wfStream st
  | .descriptorComplete st => wfStream st
  | .streamSliceExpiry st => wfStream st
  | .windowSlotSwitch unit => wfUnit 3084 unit
  | .recalibrationPause ch _ => wfUnit 96 ch
  | .recalibrationPauseEnd ch => wfUnit 96 ch
  | .patrolScrub addr err => decide (addr < 2 ^ 48) && wfUnit 3 err
  | .cmdMemPartition m => wfMbx m
  | .cmdXwOpen m => wfMbx m
  | .cmdXwClose m => wfMbx m
  | .cmdXwStatus m => wfMbx m
  | .cmdStreamCreate m => wfMbx m
  | .cmdStreamPost m => wfMbx m
  | .cmdStreamStatus m => wfMbx m
  | .cmdStreamCancel m => wfMbx m
  | .cmdStreamDestroy m => wfMbx m
  | .cmdStreamConfig m => wfMbx m
  | .cmdProgLoad m => wfMbx m
  | .cmdProgPlace m => wfMbx m
  | .cmdProgStart m => wfMbx m
  | .cmdProgStatus m => wfMbx m
  | .cmdProgFaults m => wfMbx m
  | .cmdProgUnload m => wfMbx m
  | .cmdProgFlag m => wfMbx m
  | .programSliceExpiry h => wfUnit 1024 h
  | .coreRetire c => wfUnit 3072 c
  | .payloadFlit link flit => wfFlit link flit
  | .idleFlit link flit => wfFlit link flit
  | .creditInit link flit => wfFlit link flit
  | .retryReq link flit => wfFlit link flit
  | .resume link flit => wfFlit link flit
  | .retryReqRepeat link => wfUnit 36 link
  | .ackTimer link => wfUnit 36 link
  | .linkRetrain link => wfUnit 36 link
  | .retrainComplete link => wfUnit 36 link
  | .linkDown link => wfUnit 36 link
  | .read link p => wfPkt link p
  | .write link p => wfPkt link p
  | .atomic link p => wfPkt link p
  | .flag link p => wfPkt link p
  | .mread link p => wfPkt link p
  | .mwrite link p => wfPkt link p
  | .fabricResponse link p => wfPkt link p
  | .requestTimeout tag => wfUnit 65536 tag
  | .gopArrive link p => wfPkt link p
  | .gopRelease link p => wfPkt link p
  | .gopDrain link p => wfPkt link p
  | .gopDrained link p => wfPkt link p
  | .gopResume link p => wfPkt link p
  | .snapshotDrainLimit tree => wfUnit 8 tree
  | .globalOperationTimeout tree => wfUnit 8 tree
  | .timePacket link p => wfPkt link p
  | .timeExchange => true
  | .syncLoss => true
  | .leavePoint => true
  | .cmdBvPort m => wfMbx m
  | .cmdBvRoute m => wfMbx m
  | .cmdBvExpose m => wfMbx m
  | .cmdBvMembers m => wfMbx m
  | .cmdBvTree m => wfMbx m
  | .cmdBvJoin m => wfMbx m
  | .cmdBvLeave m => wfMbx m
  | .cmdBvGlobal m => wfMbx m
  | .cmdBvFrozen m => wfMbx m
  | .cmdBvConfig m => wfMbx m
  | .cmdBvStatus m => wfMbx m
  | .bfill c f => wfCore c f 0xB0
  | .optim c f => wfCore c f 0xB4
  | .bucketStart b => wfUnit 256 b
  | .segmentArrival ring => wfUnit 16 ring
  | .sparseClose b => wfUnit 256 b
  | .ringTimeout ring => wfUnit 16 ring
  | .bucketStepComplete b => wfUnit 256 b
  | .phaseStart sp ph => wfUnit 4 sp && wfUnit 16 ph
  | .phaseComplete sp ph => wfUnit 4 sp && wfUnit 16 ph
  | .phaseTimeout sp ph => wfUnit 4 sp && wfUnit 16 ph
  | .phaseStamp _ => true
  | .straggler phid => wfUnit 256 phid
  | .cmdTsRing m => wfMbx m
  | .cmdTsBucket m => wfMbx m
  | .cmdTsNorms m => wfMbx m
  | .cmdTsStep m => wfMbx m
  | .cmdTsStepRun m => wfMbx m
  | .cmdTsStepStop m => wfMbx m
  | .cmdTsPhase m => wfMbx m
  | .cmdTsPhlog m => wfMbx m
  | .cmdTsStatus m => wfMbx m
  | .bar0AccessInvalid _ off len => decide (off < 2 ^ 26) && decide (0 < len)
  | .plazaRead off len => decide (off < 2 ^ 48) && decide (0 < len)
  | .plazaWrite off data => decide (off < 2 ^ 48) && !data.isEmpty
  | .pzBaseWrite half _ => wfUnit 3 half
  | .pzFlushRead at' len => decide (at' + len ≤ 8) && (len == 4 || len == 8)
  | .apertureRead _ off len => decide (off < 2 ^ 42) && decide (0 < len)
  | .apertureWrite _ off data => decide (off < 2 ^ 42) && !data.isEmpty
  | .flushAddressRead _ region => wfUnit 4096 region
  | .dcAbort _ _ => true
  | .dcSnapReq _ => true
  | .registerWrite off len _ => decide (off < 2 ^ 26) && decide (off % len = 0) && (len == 4 || len == 8)
  | .cmdInfoDevice m => wfMbx m
  | .cmdInfoInventory m => wfMbx m
  | .cmdInfoConfig m => wfMbx m
  | .cmdCommit m => wfMbx m
  | .commitPoint => true
  | .cmdStageDiscard m => wfMbx m
  | .cmdConfigDevice m => wfMbx m
  | .cmdRgSet m => wfMbx m
  | .cmdAbort m _ => wfMbx m
  | .abortWatchdog _ => true
  | .cmdReset m => wfMbx m
  | .cmdSnapshot m => wfMbx m
  | .longCommandComplete st => wfStream st
  | .blockResetIdle blk => wfBlock blk
  | .blockResetTmo blk => wfBlock blk
  | .powerOnReset => true
  | .standbyRailsValid => true
  | .sagWarning => true
  | .sagWarningRelease => true
  | .sagReset => true
  | .sagResetRelease => true
  | .powerSample _ => true
  | .throttleBoundary => true
  | .throttleEnd _ => true
  | .standbyWaitExpiry => true
  | .droopStretch street => wfUnit 48 street
  | .droopStop street => wfUnit 48 street
  | .droopRecovery street => wfUnit 48 street
  | .referenceClockLost => true
  | .referenceClockRegained => true
  | .chipWideIdleness => true
  | .wake => true
  | .pllRestartComplete => true
  | .modResetNAssert => true
  | .modResetNRelease => true
  | .ucieLinkReset => true
  | .watchdog => true
  | .writePulseEnd => true
  | .cmdPwrConfig m => wfMbx m
  | .cmdPwrStatus m => wfMbx m
  | .cmdSecSpdm m => wfMbx m
  | .cmdSecNonce m => wfMbx m
  | .cmdSecOwner m => wfMbx m
  | .cmdSecDebug m => wfMbx m
  | .cmdSecSession m => wfMbx m
  | .nonceExpiry _ => true
  | .sessionExpiry => true
  | .cmdFwStage m => wfMbx m
  | .cmdFwActivate m => wfMbx m
  | .handOverPoint => true
  | .handoverHeartbeatTimeout => true
  | .cmdFwConfirm m => wfMbx m
  | .cmdFwStatus m => wfMbx m
  | .cmdErrlogRead m => wfMbx m
  | .cmdSvcNet m => wfMbx m
  | .discover h => wfSvc h
  | .mbxCmd h area => wfSvc h && decide (area.length ≤ 256)
  | .imgData h off data => wfSvc h && decide (off < 2 ^ 32) && decide (data.length ≤ 1024)
  | .imgReqRetry off => decide (off < 2 ^ 32)
  | .imageFetchTimeout => true
  | .conIn h text => wfSvc h && decide (text.length ≤ 1024)
  | .mctpMailboxCommand area => decide (area.length ≤ 256)
  | .mctpSpdm _ => true
  | .mbx _ => true
  | .dbglock _ => true
  | .wdtsusp _ => true
  | .coDbgctlHaltreq c _ => wfUnit 3072 c
  | .coDbgctlStep c _ => wfUnit 3072 c
  | .coDbgctlResume c _ => wfUnit 3072 c
  | .cmdKvPool m => wfMbx m
  | .cmdKvEdit m => wfMbx m
  | .cmdKvStatus m => wfMbx m
  | .unassignedOpcode c f => wfUnit 3072 c && decide (f.toNat % 256 < 0xD0)
  | .unassignedMailboxOpcode _ m => wfMbx m
  | .panelLoadEnd c => wfUnit 3072 c
  | .passEnd c => wfUnit 3072 c
  | .linkUp link => wfUnit 36 link
  | .blockReinitialised blk => wfBlock blk
  | .ucieLinkRetrain => true
  | .mctpControl _ => true
  | .arpRequest port _ => wfUnit 2 port
  | .icmpEchoRequest port _ => wfUnit 2 port
  | .trstNAssert => true

end Sys2Proof
end

