-- ==== Sys2Proof/Safety.lean ====
section
/-! DEFINITION. Sys2Proof/Safety.lean: the words the statements use: when a core takes an instruction, what stays as it is, and
what a legal state is. -/

namespace Sys2Proof.Machine

/-- The bits `[9:8]` every frame reserves and the instruction's own reserved fields are zero (R5, R168). -/
def Zero (f : Frame) (rs : List (Nat × Nat)) : Prop := fld f 9 8 = 0 ∧ ∀ r ∈ rs, fld f r.1 r.2 = 0

/-- Core `c` takes the instruction in frame `f` at its pc: it runs a program with its clock on, holds no other instruction and is not
stepped past one, its text reaches the pc and its fetch is clean, the predicate lets the instruction execute, DRAIN finds nothing left, and no scalar register among
`regs` is still to be written (R77, R168, R169, R175, R179, R180, R198). [DEDUCED, log 170] -/
structure Ready (s : State) (c : Nat) (f : Frame) (regs : List Nat) : Prop where
  runs    : (s.core c).st = 1
  clock   : s.clocked c = true
  fresh   : (s.core c).issued = false
  front   : ∀ w, (s.ctx c).hold = some w → w.frame = f
  text    : ∃ p, s.prog (s.core c).holder = some p ∧ (s.ctx c).pc < p.textLen
  clean   : s.poisoned (textBase (s.core c).holder + (s.ctx c).pc) 16 = false
  pred    : executes (s.ctx c) f = true
  drained : drain f = true → s.works c (s.core c).holder = []
  regs    : State.regPending (s.ctx c) regs = false

/-- The instruction of frame `f` as it issues on core `c`. -/
def State.ins (s : State) (c : Nat) (f : Frame) : Ins := ⟨c, (s.core c).holder, (s.ctx c).pc, f, s.fresh⟩

/-- State `t` with core `c` at the instruction after the one it has in state `s`. -/
def State.pass (s t : State) (c : Nat) : State := t.advance c ((s.ctx c).pc + 16)

/-- Nothing but core `c` differs: every other core, all memory, and the rest of the device. -/
def OnlyCore (s t : State) (c : Nat) : Prop := t = { s with cores := t.cores } ∧ ∀ k, k ≠ c → t.core k = s.core k

/-- Every byte of memory outside the `n` bytes at `a` reads as before. -/
def BytesOutside (s t : State) (a n : Nat) : Prop := ∀ b, b < a ∨ a + n ≤ b → t.mem.byte b = s.mem.byte b

/-- The unit of pipeline `lane` takes an instruction that touches `f` at once: the scoreboard has room, and nothing earlier of its pipeline,
of an attention instruction or of its operands is under way (R135, R179, R180, R228). [DEDUCED, log 170] -/
abbrev Starts (s : State) (i : Ins) (lane : Nat) (f : Foot) : Prop := s.boardFull i f = false ∧ s.behind i lane f = false

/-- An instruction of the vector or row engine that nothing stops: its checks find no fault, the scoreboard has room, nothing earlier of
its pipeline, of an attention instruction or of its operands is under way, no operand is poisoned, and no output lies in a frozen range
(R120, R135, R143, R155, R179, R180, R228, R363). [DEDUCED, log 170] -/
structure VOp.Clear (v : VOp) (i : Ins) (s : State) : Prop where
  sound : firstFault v.checks = none
  late  : firstFault v.late = none
  free  : Starts s i v.lane v.foot
  clean : v.bad s = none
  open' : s.frozenFault v.unit v.foot.outs = none

/-! ## The core instructions, row by row -/

/-- A core instruction: its opcode, its core and frame, the modes of its opcode it stands for (HALO), what its decoder
refuses, the scalar registers it names, and what it does. -/
structure CoreRow where
  op    : Nat
  core  : Nat
  frame : Frame
  modes : Option (List Nat)
  dec   : Option FaultInfo
  regs  : List Nat
  body  : Ins → State → IRes

/-- The frame of a row is one of its instruction. -/
def CoreRow.fits (r : CoreRow) : Prop := opcode r.frame = r.op ∧ ∀ ms, r.modes = some ms → fld r.frame 17 16 ∈ ms

/-- The row of every instruction that a core's program issues. [DEDUCED, log 170] -/
def coreRow : Instr → Option CoreRow
  | .nop c f => some ⟨0x00, c, f, none, (plainDec f), [], nopBody⟩
  | .halt c f => some ⟨0x01, c, f, none, (plainDec f), [], haltBody⟩
  | .seti c f => some ⟨0x02, c, f, none, (decodeCheck f 2 [(63, 21)] (selDst (fld f 20 16))), (selRegs (fld f 20 16)), setiBody⟩
  | .salu c f => some ⟨0x03, c, f, none,
      (decodeCheck f 2 [(63, 36)] (decide (fld f 35 32 < 14) &&
        selDst (fld f 20 16) && selSrc (fld f 25 21) && selSrc (fld f 30 26) && (!bitOf f 31 || fld f 30 26 == 0))),
      (selRegs (fld f 20 16) ++ selRegs (fld f 25 21) ++ (if bitOf f 31 then [] else selRegs (fld f 30 26))), saluBody⟩
  | .scmp c f => some ⟨0x04, c, f, none,
      (decodeCheck f 2 [(63, 35), (19, 19)] (decide (fld f 34 31 < 6) &&
        selSrc (fld f 24 20) && selSrc (fld f 29 25) && (!bitOf f 30 || fld f 29 25 == 0))),
      (selRegs (fld f 24 20) ++ (if bitOf f 30 then [] else selRegs (fld f 29 25))), scmpBody⟩
  | .plog c f => some ⟨0x05, c, f, none, (decodeCheck f 2 [(127, 28)]), [], plogBody⟩
  | .sld c f => some ⟨0x06, c, f, none,
      (decodeCheck f 2 [(63, 28)] (selDst (fld f 20 16))),
      (fld f 24 21 :: selRegs (fld f 20 16)), sldBody⟩
  | .sst c f => some ⟨0x07, c, f, none,
      (decodeCheck f 2 [(63, 28)] (selSrc (fld f 20 16) && !bitOf f 27)),
      (fld f 24 21 :: selRegs (fld f 20 16)), sstBody⟩
  | .br c f => some ⟨0x08, c, f, none, (decodeCheck f 2 [(127, 53)]), (if bitOf f 52 then [fld f 51 48] else []), brBody⟩
  | .bri c f => some ⟨0x09, c, f, none, (decodeCheck f 2 [(127, 25)]), (fld f 19 16 :: if bitOf f 20 then [fld f 24 21] else []), briBody⟩
  | .lend c f => some ⟨0x0B, c, f, none, (decodeCheck f 2 [(127, 52), (19, 19)]), [16 + fld f 18 16], lendBody⟩
  | .fsig c f => some ⟨0x10, c, f, none,
      (decodeCheck f 2 [(127, 96), (63, 41)] (decide (fld f 35 34 < 2) &&
        (if bitOf f 20 then fld f 19 16 == 0 else fld f 32 21 == 0) && (!bitOf f 36 || fld f 95 64 == 0))),
      ((if bitOf f 20 then [] else [fld f 19 16]) ++ if bitOf f 36 then [fld f 40 37] else []), fsigBody⟩
  | .fwait c f => some ⟨0x11, c, f, none,
      (decodeCheck f 2 [(63, 49), (44, 40), (19, 16)] (fld f 33 32 != 3 &&
        (!bitOf f 34 || fld f 95 64 == 0) && (if bitOf f 48 then fld f 127 96 != 0 else fld f 127 96 == 0 && fld f 47 45 == 0))),
      (if bitOf f 34 then [fld f 38 35] else []), fwaitBody⟩
  | .frd c f => some ⟨0x12, c, f, none, (decodeCheck f 2 [(127, 33)]), [fld f 19 16], frdBody⟩
  | .bollard c f => some ⟨0x14, c, f, none, (plainDec f), [], bollardBody⟩
  | .waitu c f => some ⟨0x15, c, f, none, (decodeCheck f 2 [(127, 21)]), [], waituBody⟩
  | .astat c f => some ⟨0x16, c, f, none, (decodeCheck f 2 [(127, 52)]), [fld f 19 16], astatBody⟩
  | .trap c f => some ⟨0x17, c, f, none, (decodeCheck f 2 [(127, 32)]), [], trapBody⟩
  | .phase c f => some ⟨0xC0, c, f, none,
      (decodeCheck f 0xC8 [(127, 31)] (fld f 25 24 != 3 && (bitOf f 30 || fld f 29 26 == 0))),
      (if bitOf f 30 then [fld f 29 26] else []), phaseBody⟩
  | .time c f => some ⟨0xC1, c, f, none, (decodeCheck f 0xC8 [(127, 21)]), [fld f 19 16], timeBody⟩
  | .mma c f => some ⟨0x40, c, f, none, (mmaDec f), (mmaRegs f), mmaBody⟩
  | .pload c f => some ⟨0x44, c, f, none, (ploadDec f), (ploadRegs f), (ploadBody false)⟩
  | .tload c f => some ⟨0x45, c, f, none, (ploadDec f), (ploadRegs f), (ploadBody true)⟩
  | .gwset c f => some ⟨0x48, c, f, none, (decodeCheck f 0x48 [(127, 68)]), [fld f 19 16, fld f 23 20], gwsetBody⟩
  | .gwait c f => some ⟨0x49, c, f, none, (decodeCheck f 0x48 [(127, 20)]), [fld f 19 16], gwaitBody⟩
  | .mmawg c f => some ⟨0x50, c, f, none, (mmawgDec f), (mmawgRegs f), mmawgBody⟩
  | .accz c f => some ⟨0x58, c, f, none, (decodeCheck f 0x48 [(127, 30), (19, 16)]), [], acczBody⟩
  | .accst c f => some ⟨0x59, c, f, none, (accstDec f), (accstRegs f), accstBody⟩
  | .accmv c f => some ⟨0x5A, c, f, none, (decodeCheck f 0x48 [(127, 33), (19, 16)]), [], accmvBody⟩
  | .accsv c f => some ⟨0x5B, c, f, none, (decodeCheck f 0x48 [(127, 24), (19, 18)]), [fld f 23 20], (accRawBody false)⟩
  | .accld c f => some ⟨0x5C, c, f, none, (decodeCheck f 0x48 [(127, 24), (19, 18)]), [fld f 23 20], (accRawBody true)⟩
  | .vew c f => some ⟨0x60, c, f, none, (vewDec f), (vewRegs f), vewBody⟩
  | .vmp c f => some ⟨0x61, c, f, none, (vmpDec f), (vmpRegs f), vmpBody⟩
  | .vld c f => some ⟨0x62, c, f, none, (vldDec f), (vldRegs f), vldBody⟩
  | .vst c f => some ⟨0x63, c, f, none, (vldDec f), (vldRegs f), vstBody⟩
  | .vred c f => some ⟨0x64, c, f, none, (vredDec f), (vredRegs f), vredBody⟩
  | .upload c f => some ⟨0x68, c, f, none, (decodeCheck f 0x68 [(127, 29)]), [fld f 19 16], uploadBody⟩
  | .pool c f => some ⟨0x6C, c, f, none, (poolDec false f), (poolRegs false f), (poolBody false)⟩
  | .poolb c f => some ⟨0x6D, c, f, none, (poolDec true f), (poolRegs true f), (poolBody true)⟩
  | .normf c f => some ⟨0x80, c, f, none, (normDec false f), (normRegs false f), (normBody false)⟩
  | .normb c f => some ⟨0x81, c, f, none, (normDec true f), (normRegs true f), (normBody true)⟩
  | .smaxf c f => some ⟨0x84, c, f, none, (smaxDec false f), (smaxRegs false f), (smaxBody false)⟩
  | .smaxb c f => some ⟨0x85, c, f, none, (smaxDec true f), (smaxRegs true f), (smaxBody true)⟩
  | .rstat c f => some ⟨0x88, c, f, none, (rstatDec f), [fld f 47 44], rstatBody⟩
  | .rfin c f => some ⟨0x89, c, f, none, (decodeCheck f 0x68 [(127, 32), (21, 20)]), [fld f 31 28], rfinBody⟩
  | .smst c f => some ⟨0x8C, c, f, none, (decodeCheck f 0x68 [(127, 44), (23, 16)]), [fld f 43 40, fld f 39 36], (smBody false)⟩
  | .smld c f => some ⟨0x8D, c, f, none, (decodeCheck f 0x68 [(127, 44), (23, 16)]), [fld f 43 40, fld f 39 36], (smBody true)⟩
  | .attf c f => some ⟨0x90, c, f, none, (attDec false f), (attRegs f), (attBody false)⟩
  | .attb c f => some ⟨0x91, c, f, none, (attDec true f), (attRegs f), (attBody true)⟩
  | .kvop c f => some ⟨0x94, c, f, none, (decodeCheck f 0x98 [(127, 32)]), [fld f 19 16], kvopBody⟩
  | .conv c f => some ⟨0xA0, c, f, none, (convDec f), (convRegs f), convBody⟩
  | .haloSend c f => some ⟨0xA4, c, f, (some [0, 3]), (haloDec f), (haloRegs f), haloSendBody⟩
  | .haloWait c f => some ⟨0xA4, c, f, (some [1]), (haloDec f), (haloRegs f), haloWaitBody⟩
  | .haloRelease c f => some ⟨0xA4, c, f, (some [2]), (haloDec f), (haloRegs f), haloReleaseBody⟩
  | .sconv c f => some ⟨0xA8, c, f, none, (stemDec f), [fld f 19 16], stemBody⟩
  | .swgrad c f => some ⟨0xA9, c, f, none, (stemDec f), [fld f 19 16], stemBody⟩
  | .spool c f => some ⟨0xAA, c, f, none, (stemDec f), [fld f 19 16], stemBody⟩
  | .snorm c f => some ⟨0xAB, c, f, none, (stemDec f), [fld f 19 16], stemBody⟩
  | .atom c f => some ⟨0x21, c, f, none,
      (decodeCheck f 0x21 [(127, 55), (22, 20)] (decide (fld f 19 16 < 8))),
      ([fld f 32 29, fld f 36 33, fld f 40 37] ++ if bitOf f 45 then [fld f 44 41] else []), atomBody⟩
  | .spost c f => some ⟨0x20, c, f, none, (decodeCheck f 0x21 [(127, 25)]), [fld f 19 16, fld f 23 20], spostBody⟩
  | .bfill c f => some ⟨0xB0, c, f, none, (decodeCheck f 0xB9 [(127, 28)]), [fld f 19 16], bfillBody⟩
  | .optim c f => some ⟨0xB4, c, f, none, (optimDec f), (optimRegs f), optimBody⟩
  | _ => none

/-! ## The mailbox commands, row by row (R437 to R445) -/

/-- The row of every command with an opcode of its own, and its command area. [DEDUCED, log 170] -/
def mboxRow : Instr → Option (Cmd × MbxCmd)
  | .cmdIgSubmit m => some (igSubmit, m)
  | .cmdIgStatus m => some (igStatus, m)
  | .cmdIgConfig m => some (igConfig, m)
  | .cmdMemPartition m => some (memPartition, m)
  | .cmdXwOpen m => some (xwOpenCmd, m)
  | .cmdXwClose m => some (xwCloseCmd, m)
  | .cmdXwStatus m => some (xwStatusCmd, m)
  | .cmdStreamCreate m => some (streamCreate, m)
  | .cmdStreamPost m => some (streamPost, m)
  | .cmdStreamStatus m => some (streamStatus, m)
  | .cmdStreamCancel m => some (streamCancel, m)
  | .cmdStreamDestroy m => some (streamDestroy, m)
  | .cmdStreamConfig m => some (streamConfig, m)
  | .cmdProgLoad m => some (progLoad, m)
  | .cmdProgPlace m => some (progPlace, m)
  | .cmdProgStart m => some (progStart, m)
  | .cmdProgStatus m => some (progStatus, m)
  | .cmdProgFaults m => some (progFaults, m)
  | .cmdProgUnload m => some (progUnload, m)
  | .cmdProgFlag m => some (progFlag, m)
  | .cmdBvPort m => some (bvPortCmd, m)
  | .cmdBvRoute m => some (bvRoute, m)
  | .cmdBvExpose m => some (bvExpose, m)
  | .cmdBvMembers m => some (bvMembers, m)
  | .cmdBvTree m => some (bvTree, m)
  | .cmdBvJoin m => some (bvJoin, m)
  | .cmdBvLeave m => some (bvLeave, m)
  | .cmdBvGlobal m => some (bvGlobal, m)
  | .cmdBvFrozen m => some (bvFrozen, m)
  | .cmdBvConfig m => some (bvConfigCmd, m)
  | .cmdBvStatus m => some (bvStatus, m)
  | .cmdTsRing m => some (tsRing, m)
  | .cmdTsBucket m => some (tsBucket, m)
  | .cmdTsNorms m => some (tsNorms, m)
  | .cmdTsStep m => some (tsStep, m)
  | .cmdTsStepRun m => some (tsStepRun, m)
  | .cmdTsStepStop m => some (tsStepStop, m)
  | .cmdTsPhase m => some (tsPhase, m)
  | .cmdTsPhlog m => some (tsPhlog, m)
  | .cmdTsStatus m => some (tsStatus, m)
  | .cmdInfoDevice m => some (infoDevice, m)
  | .cmdInfoInventory m => some (infoInventory, m)
  | .cmdInfoConfig m => some (infoConfig, m)
  | .cmdCommit m => some (cmdCommit, m)
  | .cmdStageDiscard m => some (cmdDiscard, m)
  | .cmdConfigDevice m => some (cmdConfigDevice, m)
  | .cmdRgSet m => some (cmdRgSet, m)
  | .cmdAbort m prompt => some (cmdAbort prompt, m)
  | .cmdReset m => some (cmdReset m, m)
  | .cmdSnapshot m => some (cmdSnapshot, m)
  | .cmdPwrConfig m => some (pwrConfig, m)
  | .cmdPwrStatus m => some (pwrStatus, m)
  | .cmdSecSpdm m => some (secSpdm, m)
  | .cmdSecNonce m => some (secNonce, m)
  | .cmdSecOwner m => some (secOwner, m)
  | .cmdSecDebug m => some (secDebug, m)
  | .cmdSecSession m => some (secSession, m)
  | .cmdFwStage m => some (fwStage, m)
  | .cmdFwActivate m => some (fwActivate, m)
  | .cmdFwConfirm m => some (fwConfirm, m)
  | .cmdFwStatus m => some (fwStatus, m)
  | .cmdErrlogRead m => some (errlogRead, m)
  | .cmdSvcNet m => some (svcNetCmd, m)
  | .cmdKvPool m => some (kvPool, m)
  | .cmdKvEdit m => some (kvEdit, m)
  | .cmdKvStatus m => some (kvStatus, m)
  | _ => none

/-- What the device finds when GO of mailbox `p` is set: the partner has cleared DONE when needed, and firmware has
recorded the aborts of the hardware path (R441, R458). -/
def State.taken (s : State) (p : Port) : State :=
  (if (s.box p).busy.isNone && (s.box p).done then s.setBox p { s.box p with done := false } else s).applyKills

/-- Mailbox `p` of the device in state `t` takes a command of opcode `op`: GO and DONE are clear, no recovery hold keeps the
mailbox unanswered, and no hand-over makes it wait (R441, R493, R497). -/
def Takes (t : State) (p : Port) (op : Nat) : Prop :=
  (t.box p).busy = none ∧ (t.box p).done = false ∧ (t.inHold = false ∨ p = .bmc ∨ p = .jtag) ∧ (t.tru.handAt = none ∨ op = 0x0F00)

/-- The command passes the checks of R444 in state `t`. [DEDUCED, log 170] -/
def Admitted (t : State) (k : Cmd) (m : MbxCmd) : Prop :=
  Takes t m.port k.op ∧ t.admits k m t.session? = none ∧ State.fieldsBad k m = none

/-- The answer of a command becomes its response, a response to come, or silence (R441). -/
def answered (op : Nat) (m : MbxCmd) : Ans × State → State
  | (.now st py stream detail, s) =>
    (s.setBox m.port { s.box m.port with cmd := cmdArea op m }).respond m.port m.tag st py stream detail
  | (.later, s) => s.setBox m.port { s.box m.port with busy := some (BitVec.ofNat 16 op, m), cmd := cmdArea op m, resp := [] }
  | (.silent, s) => s

/-- A descriptor's row: its command, its TYPE, its field checks, what starting it does and what one piece of it does. -/
structure DescRow where
  row    : Instr
  ty     : Nat
  check  : State → Stream → List Byte → Bool
  begins : State → Nat → State
  piece  : State → Nat → State

/-- The rows of the descriptors that stream `st` runs (R321). [DEDUCED, log 170] -/
def descRows (st : Nat) : List DescRow :=
  [⟨.copy st, 1, State.copyCheck, State.copyBegin, State.copyPiece⟩,
   ⟨.fill st, 2, State.fillCheck, nothing, State.fillPiece⟩,
   ⟨.save st, 3, State.saveCheck, nothing, State.savePiece⟩,
   ⟨.load st, 4, State.loadCheck, nothing, State.loadPiece 3⟩,
   ⟨.kvfetch st, 5, State.kvfetchCheck, State.kvfetchLatch, State.kvfetchPiece⟩,
   ⟨.ingest st, 6, fun _ _ d => State.tailZero d 0x18, nothing, State.ingestPiece⟩,
   ⟨.redadd st, 7, State.redCheck, nothing, State.redPiece⟩,
   ⟨.xwopen st, 8, fun _ _ d => State.tailZero d 0x26, nothing, State.xwopenPiece⟩,
   ⟨.xwclose st, 9, fun _ _ d => State.tailZero d 0x18, nothing, State.xwclosePiece⟩,
   ⟨.waitflag st, 0xA, State.waitCheck, nothing, State.waitPiece⟩,
   ⟨.gop st, 0x10, State.gopCheck, nothing, State.gopPiece⟩,
   ⟨.bucket st, 0x11, fun _ _ d => State.tailZero d 0x12, nothing, State.bucketPiece⟩,
   ⟨.norm st, 0x12, fun _ _ d => State.tailZero d 0x10, State.normBegin, State.normPiece⟩,
   ⟨.fold st, 0x13, State.foldCheck, nothing, State.foldPiece⟩]

/-! ## The power rule (R460 to R466, R484) -/

/-- What the supplies, the clocks, the throttles and ALERT_N keep to. -/
structure SafePower (p : Power) : Prop where
  state   : p.pstate ≤ 3
  clock   : p.pllst ≤ 2
  level   : p.plevel ≤ 15 ∧ p.tlevel ≤ 15
  alert   : p.alertn = (p.alert &&& p.alerten == 0)
  convert : p.pg48 = true → p.sagOff = false ∧ p.tripHold = none ∧ p.latched = false ∧ p.pstate ≠ 0

end Sys2Proof.Machine
end

