-- ==== Sys2Proof/Certificates/Slice0/Obligations.lean ====
section
/-! DEFINITION. Sys2Proof/Certificates/Slice0/Obligations.lean: the statements about the machine. -/

open Sys2Proof Sys2Proof.Machine

/-- For every command c, every rest of the queue and every state s, a step of s with c at the front of its queue is exec of c on s with the queue's rest. (How commands are queued is the model's choice, log entry 1.) -/
def Obligations.StepRunsTheFrontCommand : Prop :=
  ∀ (c : Instr) (rest : List Instr) (s : State),
    step { s with pending := c :: rest } = exec c { s with pending := rest }

/-- On a core that is ready for it, with the reserved fields of its encoding zero: NOP only goes on to the next instruction. SETI sets DST to IMM. SALU sets DST to SRCA op B (B is SRCB, or IMM with IMMB = 1, where SRCB must be zero), the fourteen operations of R172. SCMP sets p[PDST] to 1 when SRCA CMP B holds and to 0 otherwise. PLOG sets p[PDST] to (p[PA] op p[PB]) XOR NOTR. FRD writes the flag, zero-extended, to DST and clears the flag with CLR = 1. TIME writes fabric time, or the core's cycle count with CYC = 1. Each goes on at the next instruction. -/
def Obligations.ScalarInstructionResults : Prop :=
  ∀ (c : Nat) (f : Frame) (s : State),
    let x := s.ctx c
    let b (immb : Bool) (srcb : Nat) : W64 := if immb then f.extractLsb' 64 64 else selGet x srcb
    (Ready s c f [] → opcode f = 0x00 → Zero f [(127, 16)] → exec (.nop c f) s = .next (s.pass s c)) ∧
    (Ready s c f (selRegs (fld f 20 16)) → opcode f = 0x02 → Zero f [(63, 21)] → fld f 20 16 < 0x18 →
      exec (.seti c f) s = .next (s.pass (s.modCtx c fun y => selSet y (fld f 20 16) (f.extractLsb' 64 64)) c)) ∧
    (Ready s c f (selRegs (fld f 20 16) ++ selRegs (fld f 25 21) ++ if bitOf f 31 then [] else selRegs (fld f 30 26)) →
      opcode f = 0x03 → Zero f [(63, 36)] → fld f 35 32 < 14 → fld f 20 16 < 0x18 → fld f 25 21 ≤ 0x18 → fld f 30 26 ≤ 0x18 →
      (bitOf f 31 = true → fld f 30 26 = 0) →
      exec (.salu c f) s = .next (s.pass (s.modCtx c fun y => selSet y (fld f 20 16)
        (salu (fld f 35 32) (selGet x (fld f 25 21)) (b (bitOf f 31) (fld f 30 26)))) c)) ∧
    (Ready s c f (selRegs (fld f 24 20) ++ if bitOf f 30 then [] else selRegs (fld f 29 25)) →
      opcode f = 0x04 → Zero f [(63, 35), (19, 19)] → fld f 34 31 < 6 → fld f 24 20 ≤ 0x18 → fld f 29 25 ≤ 0x18 →
      (bitOf f 30 = true → fld f 29 25 = 0) →
      exec (.scmp c f) s = .next (s.pass (s.modCtx c fun y => y.setP (fld f 18 16)
        (scmp (fld f 34 31) (selGet x (fld f 24 20)) (b (bitOf f 30) (fld f 29 25)))) c)) ∧
    (Ready s c f [] → opcode f = 0x05 → Zero f [(127, 28)] →
      exec (.plog c f) s = .next (s.pass (s.modCtx c fun y => y.setP (fld f 18 16)
        (plog (fld f 26 25) (x.getP (fld f 21 19)) (x.getP (fld f 24 22)) != bitOf f 27)) c)) ∧
    (Ready s c f [fld f 19 16] → opcode f = 0x12 → Zero f [(127, 33)] →
      exec (.frd c f) s = .next (s.pass (s.modCtx c fun y =>
        let z := y.setA (fld f 19 16) ((y.flag (fld f 31 20)).setWidth 64)
        if bitOf f 32 then z.setFlag (fld f 31 20) 0 else z) c)) ∧
    (Ready s c f [fld f 19 16] → opcode f = 0xC1 → Zero f [(127, 21)] →
      exec (.time c f) s = .next (s.pass (s.modCtx c fun y =>
        y.setA (fld f 19 16) (if bitOf f 20 then BitVec.ofNat 64 x.cycles else s.ftime)) c))

/-- Add, subtract and multiply wrap modulo 2^64; the bit operations act bit by bit; shifts take bits [5:0] of B; the minima and maxima are those of the signed and of the unsigned values; MULHU is bits [127:64] of the unsigned product. A comparison compares the signed or unsigned values. PLOG's operation 3 is AND-NOT. -/
def Obligations.SaluComputesTheTable : Prop :=
  ∀ a b : W64,
    (salu 0x0 a b).toNat = (a.toNat + b.toNat) % 2 ^ 64 ∧
    (salu 0x1 a b).toNat = (a.toNat + (2 ^ 64 - b.toNat)) % 2 ^ 64 ∧
    (salu 0x2 a b).toNat = a.toNat * b.toNat % 2 ^ 64 ∧
    (∀ i, (salu 0x3 a b).getLsbD i = (a.getLsbD i && b.getLsbD i)) ∧
    (∀ i, (salu 0x4 a b).getLsbD i = (a.getLsbD i || b.getLsbD i)) ∧
    (∀ i, (salu 0x5 a b).getLsbD i = (a.getLsbD i != b.getLsbD i)) ∧
    (salu 0x6 a b).toNat = a.toNat * 2 ^ (b.toNat % 64) % 2 ^ 64 ∧
    (salu 0x7 a b).toNat = a.toNat / 2 ^ (b.toNat % 64) ∧
    (salu 0x8 a b).toInt = a.toInt / (2 : Int) ^ (b.toNat % 64) ∧
    (salu 0x9 a b).toInt = min a.toInt b.toInt ∧
    (salu 0xA a b).toInt = max a.toInt b.toInt ∧
    (salu 0xB a b).toNat = min a.toNat b.toNat ∧
    (salu 0xC a b).toNat = max a.toNat b.toNat ∧
    (salu 0xD a b).toNat = a.toNat * b.toNat / 2 ^ 64 ∧
    (scmp 0 a b = true ↔ a = b) ∧ (scmp 1 a b = true ↔ a ≠ b) ∧
    (scmp 2 a b = true ↔ a.toInt < b.toInt) ∧ (scmp 3 a b = true ↔ a.toInt ≤ b.toInt) ∧
    (scmp 4 a b = true ↔ a.toNat < b.toNat) ∧ (scmp 5 a b = true ↔ a.toNat ≤ b.toNat) ∧
    (∀ p q : Bool, plog 0 p q = (p && q) ∧ plog 1 p q = (p || q) ∧ plog 2 p q = (p != q) ∧ plog 3 p q = (p && !q))

/-- Writing selector v (a0 to a15, l0 to l7) makes it read the value and leaves every other selector, the zero selector, the predicates, flags, vector registers, micro-programs, side memory, status word, matrix state and pc as they were; a write through the zero selector 0x18 changes nothing, and the zero selector reads zero. Writing predicate i changes that one predicate and nothing else of the core. Going on to the next instruction changes only the core: no other core, no byte of memory, nothing else of the device. -/
def Obligations.ScalarRegistersAreSeparate : Prop :=
  ∀ (x : Ctx) (v : Nat) (w : W64),
    (v < 0x18 → selGet (selSet x v w) v = w) ∧
    (∀ u, u ≠ v → selGet (selSet x v w) u = selGet x u) ∧
    selGet x 0x18 = 0 ∧ selSet x 0x18 w = x ∧
    selSet x v w = { x with a := (selSet x v w).a, l := (selSet x v w).l } ∧
    (∀ i b, i < 8 → (x.setP i b).getP i = b ∧ (∀ j, j ≠ i → (x.setP i b).getP j = x.getP j) ∧
      x.setP i b = { x with p := (x.setP i b).p }) ∧
    (∀ (s : State) (c : Nat) (g : Ctx → Ctx), OnlyCore s (s.pass (s.modCtx c g) c) c ∧
      (s.pass (s.modCtx c g) c).ctx c = { g (s.ctx c) with pc := (s.ctx c).pc + 16, hold := none })

/-- On a ready core with the reserved fields zero: BR writes the offset of the following instruction to LREG with LINK = 1 and goes on at its own offset + OFF × 16; BRI does the same and goes on at the offset TREG held, which must be a multiple of 16 (an unaligned one raises the alignment fault); LEND with count 0 falls through, with count 1 writes 0 and falls through, and with a larger count writes count - 1 and goes on at its own offset + OFF × 16. A target below 0, or at or beyond TEXT_LEN, raises the branch fault 0x06. (That BRI reads TREG before LREG is written, log entry 20, and the cause 0x04 of an unaligned TREG, log entry 21, are the model's readings.) -/
def Obligations.BranchesGoToTheirTargets : Prop :=
  ∀ (c : Nat) (f : Frame) (s : State) (p : Prog), s.prog (s.core c).holder = some p →
    let pc := (s.ctx c).pc
    let goTo (t : State) (a : Int) : State :=
      if a < 0 ∨ (p.textLen : Int) ≤ a then t.fault c pc f (faultOf 6 0 a.toNat) else t.advance c a.toNat
    let linked (link : Bool) (reg : Nat) : State :=
      if link then s.modCtx c fun x => x.setA reg (BitVec.ofNat 64 (pc + 16)) else s
    (Ready s c f (if bitOf f 52 then [fld f 51 48] else []) → opcode f = 0x08 → Zero f [(127, 53)] →
      exec (.br c f) s = .next (goTo (linked (bitOf f 52) (fld f 51 48)) (pc + sgn 32 (fld f 47 16) * 16))) ∧
    (Ready s c f (fld f 19 16 :: if bitOf f 20 then [fld f 24 21] else []) → opcode f = 0x09 → Zero f [(127, 25)] →
      let t := ((s.ctx c).getA (fld f 19 16)).toNat
      exec (.bri c f) s = .next (if t % 16 = 0 then goTo (linked (bitOf f 20) (fld f 24 21)) t
        else (linked (bitOf f 20) (fld f 24 21)).fault c pc f (faultOf 4 0 t))) ∧
    (Ready s c f [16 + fld f 18 16] → opcode f = 0x0B → Zero f [(127, 52), (19, 19)] →
      let n := (s.ctx c).getL (fld f 18 16)
      let less := s.modCtx c fun x => x.setL (fld f 18 16) (n - 1)
      exec (.lend c f) s = .next (if n = 0 then s.pass s c else if n = 1 then s.pass less c
        else goTo less (pc + sgn 32 (fld f 51 20) * 16)))

/-- For an address BASE + OFF of this device that is aligned to SIZE and lies in the core's own scratchpad outside the spill region or in its own deck slice, when its unit takes it at once (nothing earlier of the core in the way) and, for SLD, fewer than 16 SLDs of the core are outstanding, on a device without a frozen cache, when the core is in the map and its state is served in place: SLD sets REG to the SIZE bytes there, least significant first, zero-extended or sign-extended, and goes on; SST stores the low SIZE bytes of REG there and goes on. A store that touches no open exact region leaves every byte outside those SIZE bytes, and everything but memory and the core's pc, as it was, and its bytes read back. An unaligned address faults with 0x04, one with nonzero reserved bits with 0x03. An access to another device whose request is accepted goes on, an SLD with its register marked as still to be written, when its unit takes it at once, no BOLLARD of the core is open and, for SLD, fewer than 16 SLDs of the core are outstanding. -/
def Obligations.LocalScalarLoadAndStore : Prop :=
  (∀ (c : Nat) (f : Frame) (s : State),
    let g := ((s.ctx c).getA (fld f 24 21) + f.extractLsb' 64 64).toNat
    let n := 2 ^ fld f 26 25
    let i := s.ins c f
    let v := leNat (s.mem.read (gloc g) n)
    let bs := le n (selGet (s.ctx c) (fld f 20 16)).toNat
    g % n = 0 → gvalid g = true → gdev g = s.fab.devnum → s.fab.fcu = 0 → s.inMap c = true → ownRange c (gloc g) n = true →
    (∀ h, s.servedBy c = some h → s.savedOf h c = none) →
    Ready s c f (fld f 24 21 :: selRegs (fld f 20 16)) → Zero f [(63, 28)] →
    (opcode f = 0x06 → fld f 20 16 < 0x18 → (∀ b ∈ s.mem.readP (gloc g) n, b.2 = false) →
      s.loadsOut c (s.core c).holder + s.queuedOps i 6 < 16 → Starts s i 60 ⟨[⟨gloc g, gloc g + n, false⟩], []⟩ →
      exec (.sld c f) s = .next (s.pass (s.modCtx c fun x => selSet x (fld f 20 16)
        (if bitOf f 27 then BitVec.ofInt 64 (sgn (8 * n) v) else BitVec.ofNat 64 v)) c)) ∧
    (opcode f = 0x07 → fld f 20 16 ≤ 0x18 → bitOf f 27 = false → s.inFrozen (gloc g) n = false →
      Starts s i 60 ⟨[⟨gloc g, gloc g + n, true⟩], []⟩ →
      exec (.sst c f) s = .next (s.pass (s.ownStore (gloc g) bs) c) ∧
      (s.inRegion (gloc g) n = false →
        OnlyCore { s with mem := s.mem.store (gloc g) bs } (s.pass (s.ownStore (gloc g) bs) c) c ∧
        BytesOutside s (s.pass (s.ownStore (gloc g) bs) c) (gloc g) n ∧
        (s.pass (s.ownStore (gloc g) bs) c).mem.read (gloc g) n = bs))) ∧
  (∀ (c : Nat) (f : Frame) (s : State),
    let g := ((s.ctx c).getA (fld f 24 21) + f.extractLsb' 64 64).toNat
    let n := 2 ^ fld f 26 25
    let pc := (s.ctx c).pc
    let i := s.ins c f
    let next : State := { s with fresh := s.fresh + 1 }
    Ready s c f (fld f 24 21 :: selRegs (fld f 20 16)) → Zero f [(63, 28)] →
    (opcode f = 0x06 → fld f 20 16 < 0x18 →
      (g % n ≠ 0 → exec (.sld c f) s = .next (s.fault c pc f (faultOf 4 6 g))) ∧
      (g % n = 0 → gvalid g = false → exec (.sld c f) s = .next (s.fault c pc f (faultOf 3 6 g))) ∧
      (g % n = 0 → gvalid g = true → gdev g ≠ s.fab.devnum → s.fenced c = false → Starts s i 60 Foot.none →
        s.loadsOut c (s.core c).holder + s.queuedOps i 6 < 16 → ∀ t,
        next.gReadPiece g n 1 (some (s.core c).holder) (.load c (s.core c).holder s.fresh pc f (BitVec.ofNat 64 g) (fld f 20 16) n (bitOf f 27)) = (.out, t) →
        exec (.sld c f) s = .next (s.pass (t.modCtx c fun x => { x with pend := x.pend ++ [(fld f 20 16, s.fresh)] }) c))) ∧
    (opcode f = 0x07 → fld f 20 16 ≤ 0x18 → bitOf f 27 = false →
      (g % n ≠ 0 → exec (.sst c f) s = .next (s.fault c pc f (faultOf 4 6 g))) ∧
      (g % n = 0 → gvalid g = false → exec (.sst c f) s = .next (s.fault c pc f (faultOf 3 6 g))) ∧
      (g % n = 0 → gvalid g = true → gdev g ≠ s.fab.devnum → s.fenced c = false → Starts s i 60 Foot.none → ∀ t,
        next.gWritePiece g ((le n (selGet (s.ctx c) (fld f 20 16)).toNat).map fun b => (b, false)) 1 (some (s.core c).holder)
          (.store c (s.core c).holder s.fresh pc f (BitVec.ofNat 64 g)) = (.out, t) →
        exec (.sst c f) s = .next (s.pass t c))))

/-- A ready FSIG waits while a BOLLARD of its core is open. Otherwise one of OP 0 or 1 faults with 0x03 when its flag reference has nonzero reserved bits or names a core of this device that is not in the map; otherwise it launches one signal with VAL, or the low word of VREG with VSRC = 1, to FLAG of its own core (LOCAL = 1) or to the flag its reference names, which waits for nothing but earlier signals to that flag and, with REL = 1, works of the core, among them every one that writes or accesses memory outside the core; and it goes on. A signal for a core of this device that waits for nothing and whose time has come is taken off and adds its value modulo 2^32, or sets it, on the flag of the program its core is served for; the flag of a core no program has stays lost. A ready FWAIT whose condition holds goes on: with CONS = 1 it takes 1 (COND 0) or v from the flag, and with a timeout enabled it sets its predicate to 1. One whose condition fails waits and changes nothing else. FWAIT_TIMEOUT of an FWAIT that waits with TMO elapsed clears its predicate and goes on. -/
def Obligations.FlagInstructionsAndSignals : Prop :=
  (∀ (c : Nat) (f : Frame) (s : State), opcode f = 0x10 → Zero f [(127, 96), (63, 41)] → fld f 35 34 < 2 →
    (if bitOf f 20 then fld f 19 16 = 0 else fld f 32 21 = 0) → (bitOf f 36 = true → fld f 95 64 = 0) →
    Ready s c f ((if bitOf f 20 then [] else [fld f 19 16]) ++ if bitOf f 36 then [fld f 40 37] else []) →
    let v : W32 := if bitOf f 36 then ((s.ctx c).getA (fld f 40 37)).setWidth 32 else f.extractLsb' 64 32
    let ref := ((s.ctx c).getA (fld f 19 16)).toNat
    let dev := if bitOf f 20 then s.fab.devnum else nfld ref 63 48
    let core := if bitOf f 20 then c else nfld ref 23 12
    let flag := if bitOf f 20 then fld f 32 21 else nfld ref 11 0
    let bad := bitOf f 20 = false ∧ nfld ref 47 24 ≠ 0 ∨ dev = s.fab.devnum ∧ s.inMap core = false
    let dst : SigDst := if dev = s.fab.devnum then .here core flag else .far dev core flag
    let work := s.works c (s.core c).holder
    (s.fenced c = true → exec (.fsig c f) s = .next (s.wait c f)) ∧
    (s.fenced c = false → bad → exec (.fsig c f) s = .next (s.fault c (s.ctx c).pc f (faultOf 3 0 ref))) ∧
    (s.fenced c = false → ¬ bad → ∃ after : List Nat,
      (∀ u ∈ after, (∃ g ∈ s.sigs, g.uid = u ∧ g.dst = dst) ∨ bitOf f 33 = true ∧ ∃ w ∈ work, w.uid = u) ∧
      (bitOf f 33 = true → ∀ w ∈ work, w.writes = true ∨ w.out = true → w.uid ∈ after) ∧
      exec (.fsig c f) s = .next (s.pass { s with
        sigs := s.sigs ++ [⟨s.fresh, .core c (s.core c).holder (s.ctx c).pc f, dst, fld f 35 34 == 1, v, after, s.now + 2⟩]
        fresh := s.fresh + 1 } c))) ∧
  (∀ (s : State) (ix : Nat) (g : Sig) (c n : Nat), s.sigs[ix]? = some g → g.after.any s.alive = false → g.due ≤ s.now → g.dst = .here c n →
    let t : State := { s with sigs := s.sigs.filter fun x => x.uid != g.uid }
    exec (.flagSignalApply ix) s = .next (match t.servedBy c with
      | some h => t.modProgFlag h c n fun old => if g.set then g.val else old + g.val
      | none => t)) ∧
  (∀ (c : Nat) (f : Frame) (s : State), opcode f = 0x11 → Zero f [(63, 49), (44, 40), (19, 16)] → fld f 33 32 < 3 →
    (bitOf f 34 = true → fld f 95 64 = 0) →
    (if bitOf f 48 then fld f 127 96 ≠ 0 else fld f 127 96 = 0 ∧ fld f 47 45 = 0) →
    Ready s c f (if bitOf f 34 then [fld f 38 35] else []) →
    let v : W32 := if bitOf f 34 then ((s.ctx c).getA (fld f 38 35)).setWidth 32 else f.extractLsb' 64 32
    let x := (s.ctx c).flag (fld f 31 20)
    let met := if fld f 33 32 = 0 then x ≠ 0 else if fld f 33 32 = 1 then 0 ≤ (x - v).toInt else x = v
    (met → exec (.fwait c f) s = .next (s.pass (s.modCtx c fun y =>
      let z := if bitOf f 39 then y.setFlag (fld f 31 20) (y.flag (fld f 31 20) - if fld f 33 32 = 0 then 1 else v) else y
      if bitOf f 48 then z.setP (fld f 47 45) true else z) c)) ∧
    (¬ met → bitOf f 48 = false → exec (.fwait c f) s = .next (s.wait c f)) ∧
    (¬ met → bitOf f 48 = true → ∀ w, (s.ctx c).hold = some w → fld f 127 96 ≤ w.waited →
      exec (.fwaitTimeout c) s = .next (s.pass (s.modCtx c fun y => y.setP (fld f 47 45) false) c)))

/-- Completion of halt, bollard, waitu, astat and phase, on a ready core with the reserved fields zero. BOLLARD completes its issue at once, and from then on it is open as long as one of the accesses outside the core's own memory that are now outstanding has not completed. WAITU completes when nothing of the core in a unit of UMASK (all with UMASK 0) is outstanding, and waits while an earlier instruction of such a unit is. ASTAT, PHASE and HALT complete when nothing of the core is outstanding, and wait while an earlier instruction is. Then ASTAT writes the arithmetic status word, zero-extended, to DST and clears the bits of its mask; PHASE sends one stamp with the device number, the core's index, PHID, EDGE, the step of STEPR (0 with STEPEN = 0) and fabric time; HALT stops the core, and when every core of the program has halted the program leaves for HALTED (code 5). -/
def Obligations.FencesStatusAndStamps : Prop :=
  ∀ (c : Nat) (f : Frame) (s : State),
    let work := s.works c (s.core c).holder
    let earlier (q : Work → Bool) : Prop := ∃ w ∈ work, w.uid < s.fresh ∧ q w = true
    (Ready s c f [] → opcode f = 0x14 → Zero f [(127, 16)] →
      exec (.bollard c f) s = .next (s.pass (s.modCtx c fun x => { x with fence := (work.filter (·.out)).map (·.uid) }) c)) ∧
    (Ready s c f [] → opcode f = 0x15 → Zero f [(127, 21)] →
      ((∀ w ∈ work, umaskHas (fld f 20 16) w.unit = false) → exec (.waitu c f) s = .next (s.pass s c)) ∧
      (earlier (fun w => umaskHas (fld f 20 16) w.unit) → exec (.waitu c f) s = .next (s.wait c f))) ∧
    (Ready s c f [fld f 19 16] → opcode f = 0x16 → Zero f [(127, 52)] →
      (work = [] → exec (.astat c f) s = .next (s.pass (s.modCtx c fun x =>
        { x.setA (fld f 19 16) (x.astat.setWidth 64) with astat := x.astat &&& ~~~(f.extractLsb' 20 32) }) c)) ∧
      (earlier (fun _ => true) → exec (.astat c f) s = .next (s.wait c f))) ∧
    (Ready s c f (if bitOf f 30 then [fld f 29 26] else []) → opcode f = 0xC0 → Zero f [(127, 31)] → fld f 25 24 ≠ 3 →
      (bitOf f 30 = false → fld f 29 26 = 0) →
      (work = [] → exec (.phase c f) s = .next (s.pass { s with tr := { s.tr with stamps := s.tr.stamps ++
        [⟨s.fab.devnum, some c, fld f 23 16, fld f 25 24, if bitOf f 30 then (s.ctx c).getA (fld f 29 26) else 0, s.ftime⟩] } } c)) ∧
      (earlier (fun _ => true) → exec (.phase c f) s = .next (s.wait c f))) ∧
    (Ready s c f [] → opcode f = 0x01 → Zero f [(127, 16)] →
      let t := (s.advance c ((s.ctx c).pc + 16)).modCore c fun k => { k with st := 3, halted := true }
      ∀ p, s.prog (s.core c).holder = some p →
      (work = [] → (p.cores.all fun k => (t.core k).halted) = false → exec (.halt c f) s = .next t) ∧
      (work = [] → (p.cores.all fun k => (t.core k).halted) = true → exec (.halt c f) s = .next (t.stopProgram (s.core c).holder 5)) ∧
      (earlier (fun _ => true) → exec (.halt c f) s = .next (s.wait c f)))

/-- On a ready core: TRAP raises fault 0x07 with its CODE as DETAIL; an opcode from 0xD0 to 0xFF raises the illegal-opcode fault 0x01; an unassigned opcode inside a class raises that class's reserved-field fault: 0x02 control, 0x21 data movement and atomics, 0x48 matrix, 0x68 vector and row, 0x98 attention, 0xA8 convolution, 0xB9 training, 0xC8 phase. The fault is recorded for the program and stops it. -/
def Obligations.TrapsAndIllegalOpcodesFault : Prop :=
  ∀ (c : Nat) (f : Frame) (s : State), Ready s c f [] →
    let op := opcode f
    (op = 0x17 → Zero f [(127, 32)] → exec (.trap c f) s = .next (s.fault c (s.ctx c).pc f ⟨0x07, 0, 0, 0, fld f 31 16⟩)) ∧
    (0xD0 ≤ op → exec (.illegalOpcode c f) s = .next (s.fault c (s.ctx c).pc f ⟨0x01, 0, 0, 0, 0⟩)) ∧
    (op < 0xD0 → op ∉ assignedOps → exec (.unassignedOpcode c f) s = .next (s.fault c (s.ctx c).pc f
      ⟨if op < 0x20 then 0x02 else if op < 0x40 then 0x21 else if op < 0x60 then 0x48 else if op < 0x90 then 0x68
        else if op < 0xA0 then 0x98 else if op < 0xB0 then 0xA8 else if op < 0xC0 then 0xB9 else 0xC8, 0, 0, 0, 0⟩))

/-- For every core instruction of a running program whose core's clock runs and holds no other instruction: at or beyond TEXT_LEN it raises the branch fault 0x06; a poisoned fetch raises 0x05; a frame its decoder refuses raises that fault, even where its predicate would not let it execute; a frame whose predicate does not let it execute only goes on to the next instruction, whatever DRAIN says; one with DRAIN waits until nothing of its core is outstanding; one that names a scalar register still to be written waits. (That the fetch checks carry UNIT 0 is the model's reading, log entry 22.) For every core instruction (the rows of Sys2Proof.Machine.coreRow: control, data movement, matrix, vector and row, attention, convolution and stem, training and phase classes), when its core is ready for it and its decoder refuses nothing: exec answers the next state in which, by what the instruction's own meaning answers, its effect is made and the core goes on at the next instruction; or at its branch target, unless that lies outside the text; or the core has stopped; or the instruction waits and nothing else has changed; or it enters the queue of its unit with the scalar registers as they are, its destinations marked as still to be written, and the core goes on, while fewer than 8 wait there, and waits otherwise; or the fault it raises is taken. In particular an instruction whose meaning completes with state t leads to t with the core at the following instruction. -/
def Obligations.EveryCoreInstructionIssuesItsEffect : Prop :=
  (∀ (i : Instr) (r : CoreRow) (s : State) (p : Prog), coreRow i = some r → r.fits → (s.core r.core).st = 1 → s.clocked r.core = true →
    (s.core r.core).issued = false →
    (∀ w, (s.ctx r.core).hold = some w → w.frame = r.frame) → s.prog (s.core r.core).holder = some p →
    let pc := (s.ctx r.core).pc
    let dirty := s.poisoned (textBase (s.core r.core).holder + pc) 16
    (p.textLen ≤ pc → exec i s = .next (s.fault r.core pc r.frame (faultOf 6 0))) ∧
    (pc < p.textLen → dirty = true → exec i s = .next (s.fault r.core pc r.frame (faultOf 5 0))) ∧
    (pc < p.textLen → dirty = false → ∀ e, r.dec = some e → exec i s = .next (s.fault r.core pc r.frame e)) ∧
    (pc < p.textLen → dirty = false → r.dec = none → executes (s.ctx r.core) r.frame = false → exec i s = .next (s.pass s r.core)) ∧
    (pc < p.textLen → dirty = false → r.dec = none → executes (s.ctx r.core) r.frame = true →
      (drain r.frame = true ∧ s.works r.core (s.core r.core).holder ≠ [] ∨ State.regPending (s.ctx r.core) r.regs = true) →
      exec i s = .next (s.wait r.core r.frame))) ∧
  (∀ (i : Instr) (r : CoreRow) (s : State), coreRow i = some r → r.fits → r.dec = none → Ready s r.core r.frame r.regs →
    (∀ t, r.body (s.ins r.core r.frame) s = .done t → exec i s = .next (s.pass t r.core)) ∧
    (∀ t, r.body (s.ins r.core r.frame) s = .stop t → exec i s = .next t) ∧
    (r.body (s.ins r.core r.frame) s = .hold → exec i s = .next (s.wait r.core r.frame)) ∧
    (∀ lane foot dst, r.body (s.ins r.core r.frame) s = .queue lane foot dst →
      let x := s.ctx r.core
      let n := (x.uq.filter fun q => q.lane / 10 == lane / 10).length
      (8 ≤ n → exec i s = .next (s.wait r.core r.frame)) ∧
      (n < 8 → exec i s = .next (s.pass (State.modCtx { s with fresh := s.fresh + 1 } r.core fun y => { y with
        uq := x.uq ++ [⟨s.fresh, lane, x.pc, r.frame, x.a, x.l, foot⟩]
        pend := x.pend ++ dst.map fun d => (d, s.fresh) }) r.core))) ∧
    (∀ t e, r.body (s.ins r.core r.frame) s = .fault t e → exec i s = .next (t.fault r.core (s.ctx r.core).pc r.frame e)) ∧
    (∀ t a p, r.body (s.ins r.core r.frame) s = .jump t a → s.prog (s.core r.core).holder = some p →
      exec i s = .next (if a < 0 ∨ (p.textLen : Int) ≤ a then t.fault r.core (s.ctx r.core).pc r.frame (faultOf 6 0 a.toNat)
        else t.advance r.core a.toNat)))

/-- A fault of core c of RUNNING or WAITING program h is recorded: the program keeps at most 16 records, numbered in order, the new one behind the others while there is room, or in front of them when another core of a higher index has faulted since firmware last looked; the fault count rises by one up to 2^32 - 1, a running program's core shows the record in CO_FAULT and stops with state 4, and when firmware next looks (each cycle) the program leaves for FAULTED. (That firmware looks once a cycle is the model's reading, log entry 76.) The record has 64 bytes: CAUSE, UNIT, core, handle, slot, number, PC, the frame, the address, the status, the detail and fabric time at their places. A program that leaves RUNNING or WAITING for HALTED, FAULTED or ABORTED has that state code, no slot, no running interval, and the records and fault count it had; it is no longer among the waiting ones. For a program in any other state a stop changes nothing, and neither does a fault of one that is not HALTED. -/
def Obligations.FaultsAreRecordedAndStopTheProgram : Prop :=
  (∀ (s : State) (c h pc : Nat) (fr : Frame) (f : FaultInfo) (p : Prog), s.prog h = some p → p.active = true →
    let r := s.faultRecord f c h p pc fr
    let q := State.addRecord p c r
    r.length = 64 ∧ rd r 0 1 = f.cause % 256 ∧ rd r 1 1 = f.unit % 256 ∧ rd r 2 2 = c % 65536 ∧ rd r 4 2 = h % 65536 ∧
    rd r 8 8 = pc % 2 ^ 64 ∧ rd r 0x10 16 = fr.toNat ∧ rd r 0x20 8 = f.addr.toNat ∧ rd r 0x28 2 = f.status % 65536 ∧
    rd r 0x2C 4 = f.detail % 2 ^ 32 ∧ rd r 0x30 8 = s.ftime.toNat ∧
    q.nfault = (if p.nfault = 0xFFFFFFFF then p.nfault else p.nfault + 1) ∧
    (p.recs.length ≤ 16 → q.recs.length = min 16 (p.recs.length + 1)) ∧ (∀ k x, q.recs[k]? = some x → rd x 7 1 = k % 256) ∧
    (p.recs.length < 16 → p.fail = false → q.recs[p.recs.length]? = some r) ∧
    (∀ y, p.fail = true → p.recs.head? = some y → c < rd y 2 2 →
      ∃ x, q.recs.head? = some x ∧ x.take 7 = r.take 7 ∧ x.drop 8 = r.drop 8) ∧
    s.progFault c h pc fr f = (let t := s.setProg h { q with fail := true }
      if p.st = 3 then (t.modCore c fun k => { k with fault := r }).haltCore c h 4 else t)) ∧
  (∀ (s : State) (h : Nat) (p : Prog), s.prog h = some p → p.fail = true → p.active = true → s.failOne h = s.stopProgram h 6) ∧
  (∀ (s : State) (h st : Nat) (p : Prog), s.prog h = some p → p.active = true →
    ∃ q, (s.stopBare h st).prog h = some q ∧ q.st = st ∧ q.slot = none ∧ q.runFrom = none ∧ q.recs = p.recs ∧ q.nfault = p.nfault ∧
      q.textLen = p.textLen ∧ q.place = p.place ∧ h ∉ (s.stopBare h st).rot) ∧
  (∀ (s : State) (h st : Nat), (∀ p, s.prog h = some p → p.active = false) → s.stopProgram h st = s ∧ s.stopBare h st = s ∧
    ((∀ p, s.prog h = some p → p.st ≠ 5) → ∀ c pc fr f, s.progFault c h pc fr f = s))

/-- For every mailbox command of the table (the 66 rows of Sys2Proof.Machine.mboxRow, each with its opcode, mailboxes, length, field checks and work) that reaches its mailbox: if the mailbox takes it, the first failing check among mailbox and session, device state, trim, then length, reserved header and the fields in payload order answers with its status (and with the payload offset as DETAIL for a bad field), changing nothing else; otherwise the command's work is done and its answer becomes the response, or the command stays in flight with GO set, or nothing is answered. If a command is in flight or DONE is still set, only OVR is set. A word of opcode that no chapter assigns answers ST_BAD_OPCODE. -/
def Obligations.MailboxCommandsAreTakenCheckedAndRun : Prop :=
  (∀ (i : Instr) (k : Cmd) (m : MbxCmd) (s : State), mboxRow i = some (k, m) →
    let t := s.taken m.port
    (Takes t m.port k.op → exec i s = .next (answered k.op m
      (match t.admits k m t.session? with
       | some e => (.refuse e, t)
       | none => match State.fieldsBad k m with
         | some off => (.bad off, t)
         | none => k.run m t))) ∧
    (Admitted t k m → exec i s = .next (answered k.op m (k.run m t))) ∧
    ((t.box m.port).busy.isSome = true ∨ (t.box m.port).done = true →
      exec i s = .next (t.setBox m.port { t.box m.port with ovr := true }))) ∧
  (∀ (op : BitVec 16) (m : MbxCmd) (s : State), cmdOf op.toNat true m = none → Takes (s.taken m.port) m.port op.toNat →
    exec (.unassignedMailboxOpcode op m) s = .next (answered op.toNat m (.refuse St.badOpcode, s.taken m.port)))

/-- When a command of mailbox p is answered, the mailbox has no command in flight and DONE set; its other flags, its stage and every other mailbox stay as they were; its response area holds STATUS (2 B), LEN (2 B), TAG (4 B), STREAM (4 B), DETAIL (4 B) and the payload; with DONEIE set the host gets MSI-X vector 0 and the BMC the in-band interrupt, and the other partners nothing; and nothing of the device but the mailboxes, the transport's own bookkeeping and what goes out changes. -/
def Obligations.ResponsesAreWrittenAndSignalled : Prop :=
  ∀ (s : State) (p : Port) (tag : W32) (status stream detail : Nat) (py : List Byte), py.length ≤ 240 →
    let t := s.respond p tag status py stream detail
    let b := t.box p
    b.busy = none ∧ b.done = true ∧ b.ovr = (s.box p).ovr ∧ b.rst = (s.box p).rst ∧ b.ie = (s.box p).ie ∧ b.stage = (s.box p).stage ∧
    b.resp.length = 256 ∧ rd b.resp 0 2 = status % 65536 ∧ rd b.resp 2 2 = py.length ∧ rd b.resp 4 4 = tag.toNat ∧
    rd b.resp 8 4 = stream % 2 ^ 32 ∧ rd b.resp 12 4 = detail % 2 ^ 32 ∧ (b.resp.drop 16).take py.length = py ∧
    (∀ q, q ≠ p → t.box q = s.box q) ∧
    t = { s with mbx := t.mbx, tru := t.tru, out := t.out } ∧
    (p = .host → t.out = (if (s.box p).ie then [.msix 0] else []) ++ s.out) ∧
    (p = .fm ∨ p = .jtag → t.out = s.out)

/-- With no write pulse under way: MOD_RESET_N low begins a reset with cause 3, a UCIe link reset one with cause 4, a watchdog expiry of a READY device that no probe suspends one with cause 5 (counted), a sag reset stops the conversion and begins one with cause 2, a reference lost and regained one with cause 9, and a power-on reset one with cause 1 in power state OFF. During a write pulse the cores' clocks stop at once and the reset is held, the lowest cause of several; when the pulse ends the held reset begins. A pulse with nothing held only ends, and raises the anti-rollback counter it was programming by 1. MOD_RESET_N high, standby rails valid, the end of a sag and the end of the wait after a thermal trip let the waiting sequence go on. A UCIe retrain leaves the device as it is, and TRST only resets the test access port. -/
def Obligations.ResetSourcesTakeTheirResets : Prop :=
  ∀ s : State,
    let expire (s : State) : State := s.modPw fun p => { p with expired := if p.expired = 0xFFFF then p.expired else p.expired + 1 }
    let pin (s : State) : State :=
      s.modPw fun p => { p with pinLow := true, latched := false, tripHold := if p.latched then none else p.tripHold }
    let sag (s : State) : State :=
      s.modPw fun p => { p with sagOff := true, pg48 := false, pstate := 1, sagwarn := true, sagn := false }
    let hold (s : State) (cause : Nat) : State := { s with
      cores := s.cores.map fun k => (k.1, if k.2.st = 1 then { k.2 with st := 0 } else k.2)
      pw := { s.pw with held := some (match s.pw.held with | some c => min c cause | none => cause) } }
    let take (s : State) (cause : Nat) : State := if s.pw.pulse = none then s.seqBegin cause else hold s cause
    (s.pw.pinLow = false → s.pw.pstate ≠ 0 → exec .modResetNAssert s = .next (take (pin s) 3)) ∧
    (s.hp.link ≠ 0 → exec .ucieLinkReset s = .next (take s 4)) ∧
    (s.dc.dstate = 1 → s.tru.wdtsusp = false → exec .watchdog s = .next (take (expire s) 5)) ∧
    (s.pw.sagOff = false → s.pw.pstate ≠ 0 → exec .sagReset s = .next ((take (sag s) 2).setAlert 0)) ∧
    (s.pw.refok = false → s.pw.refLost = true →
      exec .referenceClockRegained s = .next (take (s.modPw fun p => { p with refok := true, refLost := false }) 9)) ∧
    (s.pw.pulse = none → ∃ n, exec .powerOnReset s = .next (({ s with fresh := n } : State).modPw (fun p => { p with
      pstate := 0, pulse := none, held := none, pinLow := false, tripHold := none, latched := false, trips := [] }) |>.seqBegin 1)) ∧
    (∀ k c, s.pw.pulse = some k → s.pw.held = some c → ∃ u : State,
      u = { s with pw := { s.pw with pulse := none, held := none }, tru := u.tru } ∧ exec .writePulseEnd s = .next (u.seqBegin c)) ∧
    (∀ k, s.pw.pulse = some k → s.pw.held = none → s.pw.seq = none → s.tru.confirm = none → exec .writePulseEnd s = .next { s with
      pw := { s.pw with pulse := none }
      tru := { s.tru with fwsvn := s.tru.fwsvn + (if k = 7 then 1 else 0), calsvn := s.tru.calsvn + (if k = 8 then 1 else 0) } }) ∧
    (s.pw.pinLow = true → exec .modResetNRelease s = .next (s.modPw fun p => { p with pinLow := false }).seqGo) ∧
    (s.pw.pstate = 0 → exec .standbyRailsValid s = .next (s.modPw fun p => { p with pstate := 1, auxok := true }).seqGo) ∧
    (s.pw.sagOff = true → exec .sagResetRelease s = .next (s.modPw fun p => { p with sagOff := false }).seqGo) ∧
    (∀ t, s.pw.tripHold = some t → s.pw.latched = false → t ≤ s.now →
      exec .standbyWaitExpiry s = .next (s.modPw fun p => { p with tripHold := none }).seqGo) ∧
    exec .ucieLinkRetrain s = .next s ∧
    exec .trstNAssert s = .next { s with tru := { s.tru with jtagIr := 0 } }

/-- When a reset sequence begins, however far it goes at once: no program, stream, KV pool, sequence or edit, exact region, queued atomic, block reset or staged item is left; no event is in the ring and the event ring is off; the committed generation is 0; the fabric is STANDALONE with fabric time 0; the scratchpads and the deck, and LPDDR5X unless the reset is warm, no thermal trip, and the committed NB is 0, hold undefined bytes; kept LPDDR5X keeps every byte; the owner key hash, the anti-rollback counters, the ownership count and the key revocation stay as they were; nonces, the service session and debug access end; and the cause is the new one, or that of the sequence that was running, with the merged count one higher up to 255. -/
def Obligations.ResetClearsTheDevice : Prop :=
  ∀ (s : State) (cause : Nat),
    let t := s.seqBegin cause
    let kept := decide (3 ≤ cause) && cause != 6 && s.nb == 0
    t.progs = [] ∧ t.streams = [] ∧ t.kv = ⟨[], [], [], [], [], []⟩ ∧ t.regions = [] ∧ t.atoms = [] ∧ t.sigs = [] ∧ t.blocks = [] ∧
    (∀ p, (t.box p).stage = [] ∧ (t.box p).busy = none ∧ (t.box p).rst = true) ∧
    t.dc.ring = [] ∧ t.dc.evEn = false ∧ t.dc.gen = 0 ∧ t.fab = Fabric.reset ∧ t.fab.devState = 0 ∧ t.fab.time.ft = 0 ∧
    t.mem = s.mem.forget (if kept then fwEnd else 0) (2 ^ 48) s.fresh ∧
    (kept = true → ∀ a, a < fwEnd → t.mem.byte a = s.mem.byte a) ∧
    t.tru.owner = s.tru.owner ∧ t.tru.fwsvn = s.tru.fwsvn ∧ t.tru.calsvn = s.tru.calsvn ∧ t.tru.ownchg = s.tru.ownchg ∧
    t.tru.keyrev = s.tru.keyrev ∧ t.tru.nonces = [] ∧ t.tru.session = none ∧ t.tru.debug = 0 ∧
    t.pw.cause = (if s.pw.seq = none then cause else s.pw.cause) ∧
    t.pw.merged = (if s.pw.seq = none then 0 else min 255 (s.pw.merged + 1)) ∧
    t.pending = s.pending ∧ t.env = s.env

/-- While the main rails are in regulation, or the device is in IDLE or ACTIVE: a power sample joins the last 100, the mean is that of the samples kept, and a sample above 125 % of the cap sets the power level to 15 at once, otherwise the level stays; a second sample in a row of 115 degrees or more is a thermal trip: the conversion stops, the wait of 10 s begins, and the device takes the reset of cause 6. At a boundary the power level rises by 1 (to 15 at most) when the mean exceeds the cap, falls by 1 (to 0 at least) when it is below 97 % of the cap, and else stays; the thermal level rises by 1 at 100 degrees or more and falls by 1 below 98, both 10 degrees lower under the safe defaults. A boundary changes nothing but the Lamplighter's state, the event ring and what goes out. When a level has been back at 0 for 10 ms its throttle is over. A core's clock is stopped in the cycles n with (n + c) mod 16 below the larger level. -/
def Obligations.ThrottlingFollowsPowerAndHeat : Prop :=
  (∀ (s : State) (r : Sample), 2 ≤ s.pw.pstate ∨ s.pw.pg48 = true →
    let keep := (s.pw.samples ++ [r.watts]).drop (s.pw.samples.length + 1 - 100)
    let hot := 1840 ≤ max r.die r.sram
    ∃ u : State, u.pw.samples = keep ∧ u.pw.mean = keep.foldl (· + ·) 0 / keep.length ∧ u.pw.tlevel = s.pw.tlevel ∧
      u.pw.plevel = (if s.pw.cap * 125 < r.watts * 100 then 15 else s.pw.plevel) ∧ u.pw.hot = decide hot ∧
      (¬(hot ∧ s.pw.hot = true) → exec (.powerSample r) s = .next u) ∧
      (hot ∧ s.pw.hot = true → ∃ v : State, v.pw.tripHold = some (u.now + 10000 * 2400000) ∧ v.pw.pg48 = false ∧ v.pw.pstate = 1 ∧
        exec (.powerSample r) s = .next (v.takeReset 6))) ∧
  (∀ s : State, 2 ≤ s.pw.pstate ∨ s.pw.pg48 = true →
    let t := max s.pw.tjmax s.pw.tdeck + if s.pw.trimFault then 160 else 0
    ∃ u : State, exec .throttleBoundary s = .next u ∧ u = { s with pw := u.pw, dc := u.dc, out := u.out } ∧
      u.pw.plevel = (if s.pw.cap < s.pw.mean then min 15 (s.pw.plevel + 1)
        else if s.pw.mean * 100 < s.pw.cap * 97 then s.pw.plevel - 1 else s.pw.plevel) ∧
      u.pw.tlevel = (if 1600 ≤ t then min 15 (s.pw.tlevel + 1) else if t < 1568 then s.pw.tlevel - 1 else s.pw.tlevel)) ∧
  (∀ (s : State) (t : Nat), t + 10 * 2400000 ≤ s.now →
    (s.pw.plZero = some t → exec (.throttleEnd false) s = .next ((s.modPw fun p => { p with plZero := none }).event 9 0 4 0)) ∧
    (s.pw.tlZero = some t → exec (.throttleEnd true) s = .next ((s.modPw fun p => { p with tlZero := none }).event 9 0 6 0))) ∧
  (∀ (s : State) (c : Nat), s.clocked c = true ↔
    s.pw.pstate = 3 ∧ s.pw.pllst = 2 ∧ c / 64 ∉ s.pw.stops ∧ max s.pw.plevel s.pw.tlevel ≤ (s.now + c) % 16)

/-- A sag warning drives SAG_N low, counts, sets LL_ALERT.SAGWARN and reports a POWER event of cause 1; its release drives SAG_N high and reports cause 2. A droop stretch marks its street; a droop stop stops the street's core clocks, counts in the totals, sets the alert and reports cause 8; the recovery frees the street of both. Loss of the reference clears REFOK and, while the device runs, is remembered. After 10 ms in which nothing ran and nothing was asked for, an ACTIVE device goes to IDLE with its street PLLs stopped; a wake restarts them, and their restart makes the device ACTIVE. None of these touches a core, a program, memory or a stream. -/
def Obligations.SupplyDroopAndClockEvents : Prop :=
  ∀ s : State,
    (s.pw.sagwarn = false → s.pw.pstate ≠ 0 → exec .sagWarning s = .next ((State.setAlert (s.modPw fun p => { p with
      sagwarn := true, sagn := false, sagCnt := p.sagCnt + 1 }) 0).event 9 0 1 0)) ∧
    (s.pw.sagwarn = true → s.pw.pstate ≠ 0 → exec .sagWarningRelease s = .next (State.event (s.modPw fun p => { p with
      sagwarn := false, sagn := true }) 9 0 2 0)) ∧
    (∀ st, st < 48 → st ∉ s.pw.stretch → exec (.droopStretch st) s = .next (s.modPw fun p => { p with stretch := p.stretch ++ [st] })) ∧
    (∀ st, st < 48 → st ∉ s.pw.stops → exec (.droopStop st) s = .next ((State.setAlert (s.modPw fun p => { p with
      stops := p.stops ++ [st], droopTot := p.droopTot + 1
      droopCnt := if p.droopCnt = 0xFFFFFFFF then p.droopCnt else p.droopCnt + 1 }) 6).event 9 0 8 0)) ∧
    (∀ st, ∃ t, exec (.droopRecovery st) s = .next t ∧ st ∉ t.pw.stretch ∧ st ∉ t.pw.stops ∧
      (∀ u, u ≠ st → (u ∈ t.pw.stops ↔ u ∈ s.pw.stops) ∧ (u ∈ t.pw.stretch ↔ u ∈ s.pw.stretch)) ∧ t = { s with pw := t.pw }) ∧
    (s.pw.refok = true → s.pw.seq = none → 2 ≤ s.pw.pstate →
      exec .referenceClockLost s = .next (s.modPw fun p => { p with refok := false, refLost := true })) ∧
    (s.pw.pstate = 3 → s.pw.seq = none → s.quiet = true → s.pw.idleFrom + 10 * 2400000 ≤ s.now → s.fab.lastReq + 10 * 2400000 ≤ s.now →
      exec .chipWideIdleness s = .next (s.modPw fun p => { p with pstate := 2, pllst := 0 })) ∧
    (s.pw.pstate = 2 → s.pw.pllst = 0 → exec .wake s = .next (s.modPw fun p => { p with pllst := 1, idleFrom := s.now })) ∧
    (s.pw.pstate = 2 → s.pw.pllst = 1 → exec .pllRestartComplete s = .next (s.modPw fun p => { p with pllst := 2, pstate := 3 })) ∧
    (∀ i ∈ [Instr.sagWarning, .sagWarningRelease, .referenceClockLost, .chipWideIdleness, .wake, .pllRestartComplete],
      ∀ t, exec i s = .next t → t = { s with pw := t.pw, dc := t.dc, out := t.out })

/-- A link that is not up takes no flit. On a link that is up, a flit whose CRC, length or reserved bits are wrong is discarded: the link asks for a replay, or retrains after eight failures of one sequence number. A good payload flit with the sequence number expected advances that number, counts, clears the awaited replay, owes its sender one credit of its lane and class, joins the run of its pair, and each packet the run then completes is acted on in order; after 64 unacknowledged payload flits an idle flit carries the acknowledgement. One with a number already taken is dropped; any other asks for a replay unless one is awaited. Every good flit's header acknowledges and returns credits. CREDIT_INIT sets the twelve credit counts; RETRY_REQ and RESUME resend what the replay buffer holds from the number they name. -/
def Obligations.FlitsAreTakenInOrder : Prop :=
  ∀ (s : State) (l : Nat) (f : List Byte),
    let k := s.link l
    let up : Prop := k.state = 2 ∨ k.state = 4
    let seq := nfld (rd f 2 2) 11 0
    let ahead := (seq + 4096 - k.rxExp) % 4096
    let pair := 2 * nfld (rd f 0 1) 4 2 + nfld (rd f 0 1) 5 5
    let part := SMap.getD k.parts pair []
    let cut := cutRun (nfld (rd f 0 1) 4 2) 16 (if part = [] then ((f.drop 12).take 240).drop (16 * rd f 1 1) else part ++ (f.drop 12).take 240)
    let rows : List Instr := [.payloadFlit l f, .idleFlit l f, .creditInit l f, .retryReq l f, .resume l f]
    (¬up → ∀ i ∈ rows, exec i s = .next s) ∧
    (up → flitGood f = false → ∀ i ∈ rows, exec i s = .next (
      let n := if k.failSeq = k.rxExp then k.fails + 1 else 1
      let t := ((s.setLink l { k with fails := n, failSeq := k.rxExp }).linkErr l 0).linkLog l 3
      if 8 ≤ n then t.retrain l else t.askReplay l)) ∧
    (up → flitGood f = true → flitKind f = 1 →
      (ahead = 0 → exec (.payloadFlit l f) s = .next (
        let u := State.takeHeader ((s.setLink l { k with
          rxExp := (k.rxExp + 1) % 4096, nak := none, fails := 0, parts := SMap.setD k.parts pair [] cut.2
          owed := SMap.setD k.owed pair 0 (SMap.getD k.owed pair 0 + 1), unacked := k.unacked + 1
          ackDue := if k.unacked = 0 then s.now + 2400 else k.ackDue }).setPort (l / 2)
            { s.bvPort (l / 2) with rxf := (s.bvPort (l / 2)).rxf + 1 }) l f
        let t := cut.1.foldl (fun t p => State.onPacket t l p) u
        if 64 ≤ (t.link l).unacked then t.idleFlit l else t)) ∧
      (2048 ≤ ahead → exec (.payloadFlit l f) s = .next s) ∧
      (0 < ahead → ahead < 2048 → exec (.payloadFlit l f) s = .next (if k.nak = none then s.askReplay l else s))) ∧
    (up → flitGood f = true → flitKind f = 0 → exec (.idleFlit l f) s = .next (s.takeHeader l f)) ∧
    (up → flitGood f = true → flitKind f = 2 →
      (rd f 12 1 = 1 → exec (.creditInit l f) s = .next (
        let t := s.takeHeader l f
        (t.setLink l { t.link l with credits := (List.range 12).foldl (fun m i => SMap.setD m i 0 (rd f (28 + 2 * i) 2)) [] }).pumpLink l)) ∧
      (rd f 12 1 = 2 → exec (.retryReq l f) s = .next (((s.takeHeader l f).replayFrom l (nfld (rd f 14 2) 11 0)).pumpLink l)) ∧
      (rd f 12 1 = 3 → exec (.resume l f) s = .next (((s.takeHeader l f).replayFrom l (nfld (rd f 14 2) 11 0)).pumpLink l)))

/-- Two microseconds after a RETRY_REQ whose replay has not come, a link that is up or drains sends it again. A payload flit that has waited a microsecond for its acknowledgement, or credits that have been owed as long, go out with an idle flit. A first training that ends brings the link up with CREDIT_INIT, half the credits at x4. A loss of lock retrains the link, which keeps its replay buffer and sequence state, sets its retrain error and is logged; a retrain that ends within the fabric timeout brings the link up with RESUME for the number it expects. A link not up within the timeout is down: its replay buffer and queue are lost, its error is set, the FABRIC event reports it, and it is logged. -/
def Obligations.LinksTrainRetryAndGoDown : Prop :=
  ∀ (s : State) (l : Nat),
    let k := s.link l
    (∀ t, k.nak = some t → k.state = 2 ∨ k.state = 4 → t + 4800 ≤ s.now → exec (.retryReqRepeat l) s = .next (
      ((s.setLink l { k with nak := some s.now }).linkErr l 1).controlFlit l 2 (le 2 k.rxExp))) ∧
    (k.state = 2 ∨ k.state = 4 → k.unacked ≠ 0 ∨ k.owed ≠ [] → k.ackDue ≤ s.now → exec (.ackTimer l) s = .next (s.idleFlit l) ∧
      ((s.idleFlit l).link l).unacked = 0) ∧
    (k.state = 1 → exec (.linkUp l) s = .next (
      (s.setLink l { k with state := 2, since := s.now }).controlFlit l 1 (creditBody ((s.bvPort (l / 2)).mode == 2)))) ∧
    (k.state = 2 ∨ k.state = 4 → ∃ t, exec (.linkRetrain l) s = .next t ∧
      t.link l = { k with state := 3, since := s.now, fails := 0 } ∧ (t.link l).replay = k.replay ∧ (t.link l).rxExp = k.rxExp ∧
      (∀ j, j ≠ l → t.link j = s.link j) ∧
      ((if l % 2 = 0 then (t.bvPort (l / 2)).erra else (t.bvPort (l / 2)).errb).getLsbD 2 = true)) ∧
    (k.state = 3 → s.now < k.since + s.fab.tmoUs * 2400 → exec (.retrainComplete l) s = .next (
      (s.setLink l { k with state := 2, since := s.now, nak := none }).controlFlit l 3 (le 2 k.rxExp))) ∧
    (k.state = 3 → k.since + s.fab.tmoUs * 2400 ≤ s.now → ∃ t, exec (.linkDown l) s = .next t ∧
      t.link l = { Link.down with since := s.now } ∧ (∀ j, j ≠ l → t.link j = s.link j) ∧
      ((if l % 2 = 0 then (t.bvPort (l / 2)).erra else (t.bvPort (l / 2)).errb).getLsbD 4 = true))

/-- On a JOINED device, for a request of another device that names this device in DST and in its address, has its reserved fields zero and lies within one 256-byte block: a READ that one exposure entry of its source permits is answered with the bytes and poison at its address (the whole 256-byte block, marked FROZEN, when FCE is set and a frozen entry holds the range); a permitted WRITE stores its bytes with their poison and is answered with how that ended; a permitted ATOMIC takes its place behind the atomics already waiting, and one whose bytes a frozen entry holds is answered ST_NOT_AUTHORISED; a permitted FLAG for a core in the map adds to the flag or sets it and is answered OK. An address outside what R25 gives answers ST_NOT_AUTHORISED. -/
def Obligations.RequestsOfOtherDevicesAreServed : Prop :=
  ∀ (s : State) (l : Nat) (p : Packet), s.fab.devState = 1 → p.dst.toNat = s.fab.devnum → p.flags.getLsbD 0 = false →
    let u : State := { s with fab := { s.fab with lastReq := s.now } }
    let g := p.addr.toNat
    let a := gloc g
    let own : Prop := gdev g = s.fab.devnum ∧ gvalid g = true
    (pktClean { p with op := 1 } = true → blockOk a p.len = true → own → s.permits p.src.toNat a p.len 0 = true →
      let wide := p.flags.getLsbD 2 && s.wholeFrozen a p.len
      let b := if wide then a / 256 * 256 else a
      let r := u.readPiece b (if wide then 256 else p.len)
      exec (.read l p) s = .next ((u.countAccess b r.1).respondPkt 1 p.src.toNat p.tag.toNat p.vl (State.outside r.1) r.2 wide)) ∧
    (pktClean { p with op := 2 } = true → blockOk a p.len = true → p.data.length = p.len → own → s.permits p.src.toNat a p.len 1 = true →
      let r := u.writePiece a (withNibble p.data p.poison)
      exec (.write l p) s = .next (r.2.respondPkt 2 p.src.toNat p.tag.toNat p.vl (State.outside r.1) [])) ∧
    (pktClean { p with op := 3 } = true → fld p.aop 3 0 < 8 → atomFields (fld p.aop 3 0) (fld p.aop 5 4) (fld p.aop 9 6) p.ea.toInt = true →
      p.len = 16 → own → s.permits p.src.toNat a (atomBytes (fld p.aop 3 0)) 2 = true →
      (s.inFrozen a (atomBytes (fld p.aop 3 0)) = true →
        exec (.atomic l p) s = .next (u.respondPkt 3 p.src.toNat p.tag.toNat p.vl St.notAuthorised [])) ∧
      (s.inFrozen a (atomBytes (fld p.aop 3 0)) = false → exec (.atomic l p) s = .next { u with
        fresh := s.fresh + 1
        atoms := s.atoms ++ [⟨s.fresh, .fabric l p.src.toNat p.tag.toNat p.vl, ⟨a, fld p.aop 3 0, fld p.aop 5 4, fld p.aop 9 6, p.ea.toInt,
          BitVec.ofNat 64 (rd p.data 0 8), BitVec.ofNat 64 (rd p.data 8 8)⟩, false⟩] })) ∧
    (pktClean { p with op := 4 } = true → fld p.aop 1 0 < 2 → nfld g 47 24 = 0 → p.len = 0 → nfld g 63 48 = s.fab.devnum →
      s.permitsFlag p.src.toNat (nfld g 23 12) = true → s.inMap (nfld g 23 12) = true →
      exec (.flag l p) s = .next ((u.modFlag (nfld g 23 12) (nfld g 11 0) fun old => if fld p.aop 1 0 = 1 then p.val else old + p.val).respondPkt
        4 p.src.toNat p.tag.toNat p.vl St.ok []))

/-- For every state, link and READ, WRITE, ATOMIC or FLAG packet of any content: when no single enabled exposure entry for its source grants the right for all the bytes it names (for a FLAG, the core it names), the next state differs from the state at most in the fabric's own bookkeeping, the error log and event ring, and what goes out; and a READ's answer then carries no byte of memory. So memory, cores, programs, atomics, regions, streams, sequences, mailboxes and power are as they were. -/
def Obligations.UnexposedRequestsTouchNothing : Prop :=
  ∀ (s : State) (l : Nat) (p : Packet),
    let g := p.addr.toNat
    let kept (i : Instr) : Prop := ∃ t, exec i s = .next t ∧ t = { s with fab := t.fab, dc := t.dc, tru := t.tru, out := t.out }
    (s.permits p.src.toNat (gloc g) p.len 0 = false → kept (.read l p) ∧
      (∀ t n q, exec (.read l p) s = .next t → Out.packet n q ∈ t.out → Out.packet n q ∉ s.out → q.data = [])) ∧
    (s.permits p.src.toNat (gloc g) p.len 1 = false → kept (.write l p)) ∧
    (s.permits p.src.toNat (gloc g) (atomBytes (fld p.aop 3 0)) 2 = false → kept (.atomic l p)) ∧
    (s.permitsFlag p.src.toNat (nfld g 23 12) = false → kept (.flag l p))

/-- A response whose tag names no outstanding request, or that comes at or after that request's deadline, or from another device, or for another operation, changes nothing but the late count. Any other response takes its tag off the table and completes its request with its status; a failed one carries no data. A request whose deadline has passed is counted, taken off the table and completed with ST_TIMEOUT. Completing a core's load with ST_OK and clean data writes the register it was issued for and completing its store does nothing; completing either with another status raises the remote-access fault of the core's program. -/
def Obligations.ResponsesAndTimeoutsCompleteRequests : Prop :=
  ∀ (s : State) (l tag : Nat) (p : Packet) (r : Req),
    (p.flags.getLsbD 0 = true →
      (SMap.get? s.fab.outst p.tag.toNat = none → exec (.fabricResponse l p) s = .next { s with fab := { s.fab with late := s.fab.late + 1 } }) ∧
      (SMap.get? s.fab.outst p.tag.toNat = some r →
        (r.deadline ≤ s.now ∨ r.pkt.dst ≠ p.src ∨ r.pkt.op ≠ p.op ∨ p.dst.toNat ≠ s.fab.devnum →
          exec (.fabricResponse l p) s = .next { s with fab := { s.fab with late := s.fab.late + 1 } }) ∧
        (s.now < r.deadline → r.pkt.dst = p.src → r.pkt.op = p.op → p.dst.toNat = s.fab.devnum → p.status.toNat ≠ St.ok →
          exec (.fabricResponse l p) s = .next ((s.untag p.tag.toNat).complete r p.status.toNat [])) ∧
        (s.now < r.deadline → r.pkt.dst = p.src → r.pkt.op = p.op → p.dst.toNat = s.fab.devnum → p.status.toNat = St.ok →
          p.flags.getLsbD 1 = false → exec (.fabricResponse l p) s = .next ((s.untag p.tag.toNat).complete r St.ok
            (withNibble (fit p.len p.data) p.poison))))) ∧
    (SMap.get? s.fab.outst tag = some r → r.deadline ≤ s.now → exec (.requestTimeout tag) s = .next
      ((State.untag { s with fab := { s.fab with tmo := s.fab.tmo + 1 } } tag).complete r St.timeout [])) ∧
    (∀ c h u pc f addr reg size sext bs, r.cont = .load c h u pc f addr reg size sext →
      ((∀ b ∈ bs, b.2 = false) → s.complete r St.ok bs = s.writePend h c u reg (sldValue (leNat (bs.map (·.1))) size sext)) ∧
      (∀ e, e ≠ St.ok → s.complete r e bs = s.progFault c h pc f (remoteFault 6 addr e))) ∧
    (∀ c h u pc f addr bs, r.cont = .store c h u pc f addr →
      s.complete r St.ok bs = s ∧ (∀ e, e ≠ St.ok → s.complete r e bs = s.progFault c h pc f (remoteFault 6 addr e)))

/-- At a JOINED member of a tree, for a packet of the tree's current sequence number and an operation in progress: ARRIVE from a child records it, and once the member has started and every child has arrived it goes up to the parent, or turns round at the root; RELEASE from the parent goes on to the children and ends the operation; DRAIN of a snapshot goes on to the children and holds new requests at this member; DRAINED from a child records it; RESUME ends the snapshot here. A RELEASE of kind 3 goes on to the children and takes the reset of cause 8. An ARRIVE ahead of the member is remembered. A packet from a device that is neither parent nor child, as its direction asks, or with a reserved field that is not zero, changes nothing. A member still draining at its limit reports a failed drain; a partner's timeout ends the operation here with ST_TIMEOUT. -/
def Obligations.GlobalOperationsGoUpAndDownTheirTree : Prop :=
  ∀ (s : State) (l : Nat) (p : Packet) (x : Sys2Proof.Machine.Tree), s.fab.devState = 1 → p.dst.toNat = s.fab.devnum →
    p.flags.getLsbD 0 = false →
    (pktClean { p with op := 8 } = false → ∀ i ∈ [Instr.gopArrive l p, .gopRelease l p, .gopDrain l p, .gopDrained l p, .gopResume l p],
      exec i s = .next s) ∧
    let t := fld p.addr 2 0
    let seq := fld p.addr 63 32
    let fail := bitOf p.addr 12
    (pktClean { p with op := 8 } = true → SMap.get? s.fab.trees t = some x →
    (p.src.toNat ∈ x.children →
      (∀ r, x.run = some r → seq = x.seq → exec (.gopArrive l p) s = .next
        ((s.setTree t { x with run := some { r with arrived := r.arrived ++ [p.src.toNat], gone := r.gone || fail } }).gopUp t)) ∧
      (x.seq < seq ∨ seq = x.seq ∧ x.run = none → exec (.gopArrive l p) s = .next
        (s.setTree t { x with early := x.early ++ [seq * 65536 + p.src.toNat] })) ∧
      (∀ r, x.run = some r → seq = x.seq → exec (.gopDrained l p) s = .next (State.gopDrained
        (s.setTree t { x with run := some { r with drained := r.drained ++ [p.src.toNat], fail := r.fail || fail } }) t false))) ∧
    (x.parent = p.src.toNat →
      (fld p.addr 11 8 = 3 → exec (.gopRelease l p) s = .next ((s.toChildren t x 1 3 false []).takeReset 8)) ∧
      (∀ r, x.run = some r → seq = x.seq →
        (fld p.addr 11 8 ≠ 3 → exec (.gopRelease l p) s = .next (s.gopRelease t x { r with gone := r.gone || fail, data := p.data })) ∧
        (r.kind = 2 → r.draining = false → exec (.gopDrain l p) s = .next (s.gopDrain t x { r with gone := r.gone || fail })) ∧
        (r.kind = 2 → ∃ snap, exec (.gopResume l p) s = .next
          (State.gopResume { s with fresh := s.fresh + 1 } t x { r with fail := r.fail || fail } snap)))) ∧
    (p.src.toNat ∉ x.children → exec (.gopArrive l p) s = .next s ∧ exec (.gopDrained l p) s = .next s) ∧
    (p.src.toNat ≠ x.parent → exec (.gopRelease l p) s = .next s ∧ exec (.gopDrain l p) s = .next s ∧ exec (.gopResume l p) s = .next s) ∧
    (∀ r, x.run = some r →
      (r.draining = true → r.sentDrained = false → r.drainAt + s.drainLimit t ≤ s.now →
        exec (.snapshotDrainLimit t) s = .next (s.gopDrained t true)) ∧
      (∀ d, r.tmoAt = some d → d ≤ s.now → exec (.globalOperationTimeout t) s = .next
        ((s.setTree t { x with seq := x.seq + 1, run := none }).tellStream r.st St.timeout 0))))

/-- A cycle without a command moves fabric time forward by 25/60 ns (25,000 of its 60,000ths of a nanosecond), by at most 5 of 25,000 more or less while a correction is owed, and never back. On a JOINED member with a parent, TIME_EXCHANGE notes the time T1 and sends it to the parent; a TIME packet of a child is answered with its T1, the time of arrival less its correction, and the time of leaving; the parent's answer to the noted T1 sets the offset half of (T2 - T1) - (T4 - T3 - C2) as what is to be slewed, truncated and saturated in BV_TSYNC.OFFS, counts as good when it is at most 5 ns, sets SYNC at the eighth good one in a row, and clears it above 50 ns. Ten milliseconds without an exchange clear SYNC. A device that leaves passes its leave point when no request has come for a fabric timeout. -/
def Obligations.FabricTimeAndLeaving : Prop :=
  (∀ f : FabTime, let t := State.tickTime f
    (t.ft : Int) = f.ft + 25000 + max (-5) (min 5 f.slew) ∧ f.ft + 24995 ≤ t.ft ∧ t.ft ≤ f.ft + 25005 ∧
    t.slew = f.slew - max (-5) (min 5 f.slew)) ∧
  (∀ (s : State) (x : Sys2Proof.Machine.Tree) (l : Nat) (p : Packet), s.fab.devState = 1 → SMap.get? s.fab.trees 0 = some x →
    (x.parent ≠ 0xFFFF → exec .timeExchange s = .next (State.sendVl0 { s with fab := { s.fab with time := { s.fab.time with
      t1 := some s.ftime.toNat } } } x.parent { pktBlank with op := 9, len := 32, data := le 8 s.ftime.toNat ++ zeros 24 })) ∧
    (p.flags.getLsbD 0 = false → pktClean { p with op := 9 } = true → p.dst.toNat = s.fab.devnum → p.data.length = 32 →
      (x.parent ≠ p.src.toNat → p.src.toNat ∈ x.children → exec (.timePacket l p) s = .next (s.sendVl0 p.src.toNat { pktBlank with
        op := 9, len := 32
        data := p.data.take 8 ++ le 8 (s.ftime.toNat + 2 ^ 64 - rd p.data 24 8) ++ le 8 s.ftime.toNat ++ zeros 8 })) ∧
      (∀ t1, x.parent = p.src.toNat → s.fab.time.t1 = some t1 → rd p.data 0 8 = t1 →
        let twice : Int := ((rd p.data 8 8 : Int) - t1) - (s.ftime.toNat - rd p.data 16 8 - rd p.data 24 8)
        let good := if twice.natAbs ≤ 10 then s.fab.time.good + 1 else 0
        exec (.timePacket l p) s = .next { s with fab := { s.fab with time := { s.fab.time with
          t1 := none, slew := twice * 30000, good := good
          sync := if 100 < twice.natAbs then false else s.fab.time.sync || decide (8 ≤ good)
          offs := max (-32768) (min 32767 (twice.tdiv 2)), lastOk := s.now } } }))) ∧
  (∀ s : State,
    (s.fab.time.lastOk + 10 * 2400000 ≤ s.now →
      exec .syncLoss s = .next { s with fab := { s.fab with time := { s.fab.time with sync := false, good := 0 } } }) ∧
    (s.fab.devState = 2 → s.fab.leaving = none → s.fab.lastReq + s.fab.tmoUs * 2400 ≤ s.now →
      exec .leavePoint s = .next { s with fab := { s.fab with leaving := some s.now } }))

/-- While the host link is up, a Plaza access of a size PCIe can have reaches the global address PZ_BASE + offset, and an aperture access that lies in one enabled region whose RID and rights match reaches TARGET + offset in the region. Where that is memory of this device in one 256-byte block, the read completes with its bytes and poison, and the posted write stores its bytes there, counts them for the flush, and changes no other byte. An aperture access outside every region is refused with NOREG, one without the right with PERM: a read answers Unsupported Request or Completer Abort, a write is discarded, and memory stays as it was. -/
def Obligations.HostWindowsReachTheAddressSpace : Prop :=
  ∀ (s : State) (off n : Nat) (bs : List Byte) (rid : BitVec 16), s.hp.link = 2 →
    let g := s.hp.pzBase.toNat + off
    let a := gloc g
    let u : State := { s with pw := { s.pw with idleFrom := s.now }, fresh := s.fresh + 1 }
    (0 < n → off + n ≤ 2 ^ 28 → n ≤ 4096 → gvalid g = true → gdev g = s.fab.devnum → a % 256 + n ≤ 256 → s.site a n = .mem →
      s.mcDown a = false → exec (.plazaRead off n) s = .next (u.cplData s.fresh (s.mem.read a n) ((s.mem.readP a n).any (·.2)))) ∧
    (0 < bs.length → off + bs.length ≤ 2 ^ 28 → bs.length ≤ 512 → gvalid g = true → gdev g = s.fab.devnum → a % 256 + bs.length ≤ 256 →
      s.site a bs.length = .mem → s.mcDown a = false → s.inRegion a bs.length = false → s.inFrozen a bs.length = false →
      ∃ t, exec (.plazaWrite off bs) s = .next t ∧ t.mem.read a bs.length = bs ∧ BytesOutside s t a bs.length ∧
        t.hp.pz.bytes = s.hp.pz.bytes + BitVec.ofNat 64 bs.length ∧ t = { u with mem := t.mem, hp := t.hp }) ∧
    (0 < n → off + n ≤ 0x3FFFFFF0000 → n ≤ 4096 →
      (∀ k r, s.rgAt off = some (k, r) → off + n ≤ r.aper + r.size → off + n ≤ flushPage → State.Rg.grants r rid 0 = true →
        exec (.apertureRead rid off n) s = .next (s.touch.hostRead (.region k) (r.target.toNat + (off - r.aper)) n)) ∧
      (∀ k r, s.rgAt off = some (k, r) → off + n ≤ r.aper + r.size → off + n ≤ flushPage → State.Rg.grants r rid 0 = false →
        ∃ t, exec (.apertureRead rid off n) s = .next t ∧ t.hp.viol.getLsbD 1 = true ∧ t.hp.vaddr = BitVec.ofNat 64 off ∧
          t.hp.vrid = rid ∧ t.hp.ca = s.hp.ca + 1 ∧ t.mem = s.mem) ∧
      (s.rgAt off = none → ∃ t, exec (.apertureRead rid off n) s = .next t ∧
        t.hp.viol.getLsbD 0 = true ∧ t.hp.vaddr = BitVec.ofNat 64 off ∧ t.hp.vrid = rid ∧ t.hp.ur = s.hp.ur + 1 ∧ t.mem = s.mem)) ∧
    (0 < bs.length → off + bs.length ≤ 2 ^ 42 → bs.length ≤ 512 →
      (∀ k r, s.rgAt off = some (k, r) → off + bs.length ≤ r.aper + r.size → off + bs.length ≤ flushPage → State.Rg.grants r rid 1 = true →
        s.unmappedHere (r.target.toNat + (off - r.aper)) bs.length = false →
        exec (.apertureWrite rid off bs) s = .next (State.hostWrite (s.touch.setPosts (.region k) { s.posts (.region k) with
          bytes := (s.posts (.region k)).bytes + BitVec.ofNat 64 bs.length }) (.region k) (r.target.toNat + (off - r.aper)) bs)) ∧
      (∀ k r, s.rgAt off = some (k, r) → off + bs.length ≤ r.aper + r.size → off + bs.length ≤ flushPage → State.Rg.grants r rid 1 = false →
        ∃ t, exec (.apertureWrite rid off bs) s = .next t ∧ t.hp.viol.getLsbD 1 = true ∧ t.hp.disc = s.hp.disc + 1 ∧ t.mem = s.mem) ∧
      (s.rgAt off = none → ∃ t, exec (.apertureWrite rid off bs) s = .next t ∧ t.hp.viol.getLsbD 0 = true ∧
        t.hp.disc = s.hp.disc + 1 ∧ t.mem = s.mem))

/-- While the host link is up: an aligned 4-byte write of a mapped word outside the other partners' mailboxes acts as that word's write (LL_SCRATCH takes the value; PZ_ERR's W1C bits are cleared); one of a word beyond the last block changes nothing but is logged with code 5 of source 0x71, one of another partner's mailbox is only logged with code 6. A BAR0 access of another size or alignment is refused: a write counts as discarded, a read answers Unsupported Request. A write of PZ_BASE's low half waits for the high half; one of the high half, or of the whole register, applies a base that is 2 MiB aligned and within range and otherwise sets BADBASE and keeps the base. A flush read that nothing is waited for answers the bytes posted so far, or fails once when a posted write has failed. -/
def Obligations.RegisterWritesAndFlushReads : Prop :=
  ∀ (s : State), s.hp.link = 2 →
    let u := s.touch
    (∀ (off : Nat) (v : W64), off % 4 = 0 → off + 4 ≤ 2 ^ 26 → ¬(0x1000 ≤ off ∧ off < 0x5000) →
      ((u.regWord off).isSome = true → exec (.registerWrite off 4 v) s = .next (u.wordWrite off (BitVec.ofNat 32 (v.toNat % 2 ^ 32)))) ∧
      (0x1C00000 ≤ off → exec (.registerWrite off 4 v) s = .next (u.logErr 0x71 5 (BitVec.ofNat 64 (regBase + off))))) ∧
    (∀ (off : Nat) (v : W64), off % 4 = 0 → 0x1000 ≤ off → off < 0x5000 →
      exec (.registerWrite off 4 v) s = .next (u.logErr 0x71 6 (BitVec.ofNat 64 (regBase + off)))) ∧
    (∀ v : W32, u.wordWrite 0x200038 v = { u with pw := { u.pw with scratch := v } } ∧
      u.wordWrite 0x110010 v = { u with hp := { u.hp with
        pzFail := u.hp.pzFail && !v.getLsbD 1, badbase := u.hp.badbase && !v.getLsbD 0 } }) ∧
    (∀ off n, 0 < n → n ≤ 4096 → off + n ≤ 2 ^ 26 → ¬((n = 4 ∨ n = 8) ∧ off % n = 0) →
      (exec (.bar0AccessInvalid true off n) s = .next { u with hp := { s.hp with disc := s.hp.disc + 1, err := s.hp.err ||| 4 } }) ∧
      (exec (.bar0AccessInvalid false off n) s = .next
        (State.cplBad { u with fresh := s.fresh + 1 } s.fresh 1 (BitVec.ofNat 64 (regBase + off)) 0))) ∧
    (∀ v : W64,
      exec (.pzBaseWrite 0 v) s = .next { u with hp := { s.hp with pzPend := some (v.setWidth 32) } } ∧
      exec (.pzBaseWrite 2 v) s = .next { u with hp := if State.baseOk v then { s.hp with pzPend := none, pzBase := v }
        else { s.hp with pzPend := none, badbase := true } } ∧
      (∀ low, s.hp.pzPend = some low →
        let w := BitVec.ofNat 64 (v.toNat % 2 ^ 32 * 2 ^ 32 + low.toNat)
        exec (.pzBaseWrite 1 v) s = .next { u with hp := if State.baseOk w then { s.hp with pzPend := none, pzBase := w }
          else { s.hp with pzPend := none, badbase := true } }) ∧
      (State.baseOk v = true ↔ v.toNat % 2 ^ 21 = 0 ∧ v.toNat < 2 ^ 61 ∧ gloc v.toNat ≤ 0xFFFFF0000000)) ∧
    (s.hp.pz.live = [] → s.hp.pz.fail = false → s.hp.reqs = [] → exec (.pzFlushRead 0 8) s = .next
      (State.cplData { u with fresh := s.fresh + 1, hp := { s.hp with pz := { s.hp.pz with fail := false } } } s.fresh (le 8 s.hp.pz.bytes.toNat) false)) ∧
    (∀ rid n r, n < 4096 → SMap.get? s.hp.regions n = some r → exec (.flushAddressRead rid n) s =
      .next (u.hostFlush (.region n) (le 8 (s.posts (.region n)).bytes.toNat)))

/-- A management request for this device on lane 5, of one aligned word within the mailbox, from a device in the fabric manager's range, with its reserved fields zero: MREAD answers OK with the word of the fabric manager's mailbox, MWRITE writes it and answers OK; from another device, on another lane or beyond the mailbox both answer ST_NOT_AUTHORISED, changing no mailbox. A JTAG write of the MBX register writes the word of the debug probe's mailbox, a read shifts it out. A write of a mailbox's GO word with GO takes the command its area holds; one of its area changes those bytes only; one of MB_STAT clears DONE, OVR and RST where the written bit is 1. A repeated MBX_CMD sends the last response again, or nothing while it is owed; an MCTP command while one is unanswered is refused with ST_BAD_STATE. -/
def Obligations.MailboxesByWordAndMessage : Prop :=
  ∀ s : State,
    (∀ (l : Nat) (p : Packet), p.dst.toNat = s.fab.devnum → p.dst.toNat ≠ 0xFFFF → p.flags.getLsbD 0 = false → p.len = 4 →
      let u : State := { s with fab := { s.fab with lastReq := s.now } }
      let src := p.src.toNat
      let off := p.addr.toNat
      let answer (t : State) (op st : Nat) (bs : List Byte) : State :=
        t.respondPkt op src p.tag.toNat p.vl st (bs.map fun b => (b, false))
      (pktClean { p with op := 0xA } = true →
        (p.vl = 5 → s.fab.fmLo ≤ src → src ≤ s.fab.fmHi → off ≤ 0xFFC → off % 4 = 0 →
          exec (.mread l p) s = .next (answer u 0xA St.ok (le 4 (u.boxWord .fm off)))) ∧
        (p.vl ≠ 5 ∨ src < s.fab.fmLo ∨ s.fab.fmHi < src ∨ 0xFFC < off → exec (.mread l p) s = .next (answer u 0xA St.notAuthorised []))) ∧
      (pktClean { p with op := 0xB } = true → p.data.length = 4 →
        (p.vl = 5 → s.fab.fmLo ≤ src → src ≤ s.fab.fmHi → off ≤ 0xFFC → off % 4 = 0 →
          exec (.mwrite l p) s = .next (answer (u.boxWrite .fm off (BitVec.ofNat 32 (rd p.data 0 4))) 0xB St.ok [])) ∧
        (p.vl ≠ 5 ∨ src < s.fab.fmLo ∨ s.fab.fmHi < src ∨ 0xFFC < off → exec (.mwrite l p) s = .next (answer u 0xB St.notAuthorised [])))) ∧
    (∀ dr : BitVec 44,
      let u : State := { s with tru := { s.tru with jtagIr := 0x30 } }
      let off := 4 * fld dr 41 32
      (bitOf dr 43 = true → exec (.mbx dr) s = .next (u.boxWrite .jtag off (BitVec.ofNat 32 (fld dr 31 0)))) ∧
      (bitOf dr 43 = false → exec (.mbx dr) s =
        .next (u.emit (.jtag (BitVec.ofNat 44 (fld dr 41 32 * 2 ^ 32 + u.boxWord .jtag off)))))) ∧
    (∀ (p : Port) (v : W32),
      (v.getLsbD 0 = true → s.boxWrite p 0 v = s.goArea (rd (fit 256 (s.box p).cmd) 0 2)
        ⟨p, BitVec.ofNat 32 (rd (fit 256 (s.box p).cmd) 4 4), rd (fit 256 (s.box p).cmd) 2 2,
          BitVec.ofNat 64 (rd (fit 256 (s.box p).cmd) 8 8), fit 240 ((fit 256 (s.box p).cmd).drop 16)⟩ s.session?) ∧
      s.boxWrite p 4 v = s.setBox p { s.box p with
        done := (s.box p).done && !v.getLsbD 0, ovr := (s.box p).ovr && !v.getLsbD 1, rst := (s.box p).rst && !v.getLsbD 2 } ∧
      s.boxWrite p 8 v = s.setBox p { s.box p with ie := v.getLsbD 0 } ∧
      (∀ off, 0x100 ≤ off → off < 0x200 → s.boxWrite p off v = s.setBox p { s.box p with
        cmd := patch (fit 256 (s.box p).cmd) (off - 0x100) (le 4 v.toNat) }) ∧
      (∀ off, 0x200 ≤ off → s.boxWrite p off v = s)) ∧
    (∀ (h : SvcHdr) (area : List Byte), s.svcUp = true → h.port < 2 → area.length = 16 + rd area 2 2 → area.length ≤ 256 →
      (s.tru.lastSeq = some h.seq → exec (.mbxCmd h area) s = .next (if s.tru.rspWait then s else s.svcSend h.port 0x11 s.tru.lastRsp)) ∧
      (s.tru.lastSeq ≠ some h.seq → (s.box .svc).busy = none → (s.box .svc).done = false → exec (.mbxCmd h area) s = .next (State.goArea
        { s with tru := { s.tru with lastSeq := some h.seq, lastRsp := [], rspPort := h.port, rspWait := true } }
        (areaCmd .svc (fit 256 area)).1 (areaCmd .svc (fit 256 area)).2
        (match s.tru.session with | some x => x.num == h.session && x.port == h.port | none => false)))) ∧
    (∀ area : List Byte,
      (s.tru.mctpBusy = false → (s.box .bmc).busy = none → (s.box .bmc).done = false → exec (.mctpMailboxCommand area) s = .next (State.goArea
        { s with tru := { s.tru with mctpBusy := true } } (areaCmd .bmc (fit 256 area)).1 (areaCmd .bmc (fit 256 area)).2 false)) ∧
      (s.tru.mctpBusy = true ∨ (s.box .bmc).busy ≠ none → exec (.mctpMailboxCommand area) s = .next (s.emit (.mctp (State.mctpReply
        (le 2 St.badState ++ zeros 2 ++ le 4 (areaCmd .bmc (fit 256 area)).2.tag.toNat ++ zeros 8))))))

/-- While the service Ethernet is up, on port 0 or 1: DISCOVER is answered by one ANNOUNCE with the serial number, firmware version, device state, strap code, port and MAC address; an ARP request for the port's address and an echo request are answered. Console text is no state of the device. An SPDM message is answered over MCTP while firmware runs, and a control message is answered. Writing SEC_DBGCTL with DBGLOCK set locks debug access, ends it and lets the watchdog run; with DBGLOCK clear and debug access granted with control, WDTSUSP suspends the watchdog or lets it run. A nonce or session is gone once its time has passed, and not before. -/
def Obligations.ServiceTransportsAndExpiries : Prop :=
  ∀ s : State,
    (∀ (h : SvcHdr), s.svcUp = true → h.port < 2 → exec (.discover h) s = .next (s.svcSend h.port 2
      (le 8 Config.serial.toNat ++ le 8 (rd s.tru.runHdr 8 8) ++ le 1 s.dc.dstate ++ le 1 s.pw.code ++ le 1 h.port ++ zeros 5 ++
        le 6 (Config.mac h.port).toNat ++ zeros 2))) ∧
    (∀ (port ty : Nat) (bs : List Byte), s.svcSend port ty bs = { s with
      tru := { s.tru with txSeq := s.tru.txSeq + 1 }
      out := .service port ty s.tru.txSeq (match s.tru.session with | some x => x.num | none => 0) bs :: s.out }) ∧
    (∀ (port : Nat) (ip : W32), s.svcUp = true → port < 2 → s.svcAddr port = ip → exec (.arpRequest port ip) s = .next (s.emit (.arp port ip))) ∧
    (∀ (port : Nat) (bs : List Byte), s.svcUp = true → port < 2 → exec (.icmpEchoRequest port bs) s = .next (s.emit (.icmp port bs))) ∧
    (∀ (h : SvcHdr) (bs : List Byte), exec (.conIn h bs) s = .next s) ∧
    (∀ bs, s.dc.dstate ≠ 0 → exec (.mctpSpdm bs) s = .next ((s.spdm 5 false bs).2.emit (.mctp (5 :: (s.spdm 5 false bs).1)))) ∧
    (∀ bs, ∃ ans t, exec (.mctpControl bs) s = .next t ∧ t.out = .mctp (0 :: ans) :: s.out ∧ t = { s with tru := t.tru, out := t.out } ∧
      t.tru = { s.tru with spdm := t.tru.spdm }) ∧
    (∀ v : W32, s.hp.link = 2 →
      let u := s.touch
      (v.getLsbD 0 = true → ∀ i ∈ [Instr.dbglock v, .wdtsusp v], exec i s =
        .next { u with tru := { s.tru with dbglock := true, debug := 0, wdtsusp := false } }) ∧
      (v.getLsbD 0 = false → s.tru.debug = 2 → ∀ i ∈ [Instr.dbglock v, .wdtsusp v], exec i s =
        .next { u with tru := { s.tru with wdtsusp := v.getLsbD 1 } })) ∧
    (∀ p n till, SMap.get? s.tru.nonces (portNo p) = some (n, till) → exec (.nonceExpiry p) s = .next
      (if till ≤ s.now then { s with tru := { s.tru with nonces := SMap.del s.tru.nonces (portNo p) } } else s)) ∧
    (∀ x, s.tru.session = some x → exec .sessionExpiry s = .next
      (if x.expiry ≤ s.now then { s with tru := { s.tru with session := none } } else s))

/-- While the boot ROM fetches an image: a block of at most 1,024 bytes that it asked for is kept, is no longer outstanding, and leads to further requests; an empty block fixes the length; once every block below the length has come the image is checked and started, or the device enters recovery; 200 ms after its request a block that has not come is asked for again; 30 s without a reply, or an image that fails a check, is logged and leads to recovery, where DSTATE is 3. At the hand-over point the other code bank runs and the slot and header of the staged firmware are in force, with firmware silent until it answers; 10 ms of silence take the reset of cause 5. -/
def Obligations.ImagesAreFetchedAndHandedOver : Prop :=
  (∀ (s : State) (h : SvcHdr) (off : Nat) (bs : List Byte) (f : ImgFetch), s.pw.seq = some 4 → s.tru.fetch = some f →
    (SMap.get? f.out off).isSome = true →
    (bs ≠ [] → bs.length ≤ 1024 → f.len = none → exec (.imgData h off bs) s = .next (State.imgPump 16 { s with tru := { s.tru with
      fetch := some { f with out := SMap.del f.out off, lastRx := s.now, bytes := SMap.put f.bytes off bs } } })) ∧
    (f.len = none →
      let g := { f with out := SMap.del f.out off, lastRx := s.now, len := some off }
      let u := State.imgPump 16 { s with tru := { s.tru with fetch := some g } }
      u = { s with tru := { s.tru with fetch := some g } } ∧ exec (.imgData h off []) s = .next
        (match State.fetched g with | some image => u.imgBoot image | none => u)) ∧
    (∀ t, SMap.get? f.out off = some t → t + 200 * 2400000 ≤ s.now → exec (.imgReqRetry off) s = .next (s.imgRequest off)) ∧
    (f.lastRx + 30000 * 2400000 ≤ s.now → exec .imageFetchTimeout s = .next
      ((State.logErr { s with tru := { s.tru with fetch := none } } 0x81 9 0 St.timeout []).recover false))) ∧
  (∀ (s : State) (image : List Byte), imgCheck s.tru 0 ⟨image.take 1024, image.drop 1024⟩ ≠ 0 → (s.imgBoot image).dc.dstate = 3) ∧
  (∀ (s : State) (slot : Nat) (i : Img), s.tru.handover = some slot → s.pw.pulse = none → s.tru.img 0 slot = some i →
    exec .handOverPoint s = .next { s with
      tru := { s.tru with handover := none, handAt := some s.now, bank := 1 - s.tru.bank, fwslot := slot, runHdr := i.hdr }
      dc := { s.dc with fwok := false } }) ∧
  (∀ (s : State) (t : Nat), s.tru.handAt = some t → t + 10 * 2400000 ≤ s.now → exec .handoverHeartbeatTimeout s = .next (s.takeReset 5))

/-- A write of DC_ABORT without GO only sets KIND and HANDLE; one with GO while an abort of the register is in progress sets OVR. With GO, an abort of an existing active program, of every program, or of everything is accepted; of a program that is not active it ends with ST_BAD_STATE, of no program or a reserved kind with ST_BAD_FIELD. When firmware is prompt its targets stop as ABORTED, the ABORT event reports it, and the register shows DONE with its status without the hardware path; otherwise the abort waits. After 40 us the hardware path stops the cores of its targets, cancels their streams and completes every abort of the same target with HW set. A write of DC_SNAP with REQ lays out a snapshot and raises its number. -/
def Obligations.AbortsReachTheirTargets : Prop :=
  ∀ (r : State) (v : W32), r.hp.link = 2 →
    let s := r.touch
    let kind := fld v 17 16
    let h := fld v 9 0
    let target := s.abortTarget kind h
    let u : State := { s with dc := { s.dc with abKind := kind, abHandle := h } }
    let t : State := { u with dc := { u.dc with abortGo := true } }
    let j (st : Nat) (ts : List Nat) : AbortJob := ⟨true, .host, 0, kind, h, st, ts, s.now⟩
    (v.getLsbD 31 = false → ∀ b, exec (.dcAbort v b) r = .next u) ∧
    (v.getLsbD 31 = true → s.dc.abortGo = true → ∀ b, exec (.dcAbort v b) r = .next { s with dc := { s.dc with abOvr := true } }) ∧
    (v.getLsbD 31 = true → s.dc.abortGo = false → (∀ k ∈ s.dc.aborts, k.kind ≠ kind ∨ k.handle ≠ h) →
      exec (.dcAbort v true) r = .next (State.emit
        (let w := (t.abortFw (j target.1 target.2)).event 10 target.1 (BitVec.ofNat 64 (if kind = 0 then h else 0xFFFF)) 0
         { w with dc := { w.dc with abortGo := false, abStatus := target.1, abHw := false, abDone := true } }) (.msix 2)) ∧
      exec (.dcAbort v false) r = .next { t with dc := { t.dc with aborts := s.dc.aborts ++ [j target.1 target.2] } }) ∧
    (kind = 0 → ∀ p, s.prog h = some p → target = if p.st = 3 ∨ p.st = 4 then (St.ok, [h]) else (St.badState, [])) ∧
    (kind = 0 → s.prog h = none → target = (St.badField, [])) ∧
    (kind = 1 ∨ kind = 2 → target.1 = St.ok ∧ ∀ n, n ∈ target.2 ↔ ∃ p, (n, p) ∈ s.progs ∧ (p.st = 3 ∨ p.st = 4)) ∧
    (kind = 3 → target = (St.badField, [])) ∧
    (∀ ix a, r.dc.aborts[ix]? = some a → a.arrived + 96000 ≤ r.now → exec (.abortWatchdog ix) r = .next
      ((r.dc.aborts.filter (State.sameAbort a)).foldl (fun t k => State.abortDone t true k)
        (State.abortHw { r with dc := { r.dc with aborts := r.dc.aborts.filter fun k => !State.sameAbort a k } } a))) ∧
    (v.getLsbD 31 = true → exec (.dcSnapReq v) r = .next { s with dc := { s.dc with snapSeq := s.dc.snapSeq + 1, snap := s.snapBytes } }) ∧
    (v.getLsbD 31 = false → exec (.dcSnapReq v) r = .next s)

/-- Starting a placed program that can run puts every core of its group at ENTRY with a0 the argument, a1 its core index, a2 its place in the group with the group's size and the device number, a3 and a4 the addresses of its scratchpad and deck slice, every other register zero, and the program in RUNNING. When the slice of a running program has passed and another program waits that could run, its streams pause and its cores stop at their safe points, and it is switched out at once when nothing it waits for is under way; when it is being switched out already, the switch goes on. A core of the map that retires leaves the map with code 6, its program faults with cause 0xF0, the frozen cache is emptied, and the event and the log report it. With debug access on, CO_DBGCTL halts a running core at its safe points (at once where its matrix unit is idle), resumes a halted one, or lets it run one instruction; without, nothing changes. -/
def Obligations.ProgramsRunSwitchAndRetire : Prop :=
  (∀ (s : State) (h : Nat) (p : Prog) (arg : W64) (s0 a0 c : Nat), p.place = some (s0, a0) → c ∈ p.cores →
    let u : State := { s with fresh := s.fresh + 1 }
    let q : Prog := { p with
      order := s.fresh, arg := arg, recs := [], nfault := 0, runCyc := 0, slice := s.dc.pslice, still := 0, fail := false, switches := 0,
      runFrom := none, slot := none, saved := [] }
    u.canRun q = true → u.yields h q = true →
    let t := s.startProg h p arg
    let x := t.ctx c
    (t.core c).st = 1 ∧ (t.core c).holder = h ∧ x.pc = p.entry ∧ x.getA 0 = arg ∧ x.getA 1 = BitVec.ofNat 64 c ∧
    x.getA 2 = BitVec.ofNat 64 ((c / 64 - s0) + (c % 64 - a0) * 2 ^ 8 + p.streets * 2 ^ 16 + p.avenues * 2 ^ 24 + s.fab.devnum * 2 ^ 32) ∧
    x.getA 3 = BitVec.ofNat 64 (s.fab.devnum * 2 ^ 48 + spadOf c) ∧ x.getA 4 = BitVec.ofNat 64 (s.fab.devnum * 2 ^ 48 + deckOf c) ∧
    (∀ i, 5 ≤ i → x.getA i = 0) ∧ (∀ i, x.getL i = 0) ∧ x.p = 0 ∧ (∀ n, x.flag n = 0) ∧ (∀ n, x.getV n = 0) ∧ x.astat = 0 ∧
    ∃ q, t.prog h = some q ∧ q.st = 3 ∧ q.recs = [] ∧ q.nfault = 0) ∧
  (∀ (s : State) (h : Nat) (p : Prog), s.dc.kill = [] → s.prog h = some p → s.tru.handAt = none →
    (∀ t, s.switching p = false → p.st = 3 → p.fail = false → p.runFrom = some t → t + p.slice * 2400 + p.still ≤ s.now → s.wanted h p = true →
      (∀ c ∈ p.cores, (s.core c).st ≠ 6) → exec (.programSliceExpiry h) s = .next ((s.preempt h p).switchGo h)) ∧
    (s.switching p = true → exec (.programSliceExpiry h) s = .next (s.switchGo h) ∧
      (p.fail = false → s.clipsRun h = false → (∀ c ∈ p.cores, (s.core c).spill = 0 ∧ s.switchBusy c h = false) →
        s.switchGo h = s.switchOut h) ∧
      (∀ c ∈ p.cores, (s.core c).spill ≠ 0 ∨ s.switchBusy c h = true → s.switchGo h = s))) ∧
  (∀ (s : State) (c : Nat), s.inMap c = true → ∃ t, exec (.coreRetire c) s = .next t ∧ (t.core c).excl = 6 ∧ (t.core c).st = 7 ∧
    t.inMap c = false ∧ t.fab.cache = [] ∧ (s.progs = [] → t = State.logErr (State.event (State.setCore (State.flushFrozen s) c
      { s.core c with excl := 6, st := 7 }) 6 0 (BitVec.ofNat 64 c) 0) 0x60 0x0B (BitVec.ofNat 64 c) 0 [])) ∧
  (∀ (s : State) (c : Nat) (v : W32), ∀ i ∈ [Instr.coDbgctlHaltreq c v, .coDbgctlStep c v, .coDbgctlResume c v],
    (s.tru.debug = 0 → exec i s = .next s) ∧
    (s.tru.debug ≠ 0 → c < nCores →
      let u : State := s.setCore c { s.core c with haltreq := bitOf v 0 }
      ((s.core c).st = 1 → (s.core c).step = 0 → exec i s = .next (if bitOf v 0 then u.dbgHalt c else u) ∧
        ((s.core c).ctx.mx.pass = none → (s.core c).ctx.mx.gather = none → ((u.dbgHalt c).core c).st = 6)) ∧
      ((s.core c).st = 6 → exec i s = .next (if bitOf v 1 then u.dbgResume c (s.fresh + 1) else if bitOf v 2 then u.dbgResume c 0 else u) ∧
        ∀ k, ((u.dbgResume c k).core c).st = 1 ∧ ((u.dbgResume c k).core c).step = k)))

/-- On a core that runs with its clock on and no attention instruction, times being cycles the core has run: the load at the head begins when its source latency has passed, the pass that takes the preceding panel has started and the preceding load has ended, and it reads its panel; it ends NCOL columns of its length later, before or after its panel is taken. With no pass under way, the pass at the front of the matrix queue starts when the previous pass has ended, its panel is complete before the front reaches it and its rows are available; it takes the panel and lasts slots times slices; where panel and rows do not pair, or a row leaves the core's own memory, it takes that fault instead. A pass ends when its duration has passed, whether or not its panel's load has ended: the slots left are fed, its start plus its duration is the end the next pass waits for, and the queue goes on. An event that comes earlier changes nothing. A waiting GWAIT whose timeout has passed closes the window with the mask found then. A core that waits on a PLOAD or TLOAD that four panels stall, with nothing in the queue that takes a panel, takes the panel-order fault. -/
def Obligations.PanelLoadsAndPassesFollowTheirTimes : Prop :=
  ∀ (s : State) (c : Nat), s.matrixOn c = true →
    let m := s.mx c
    let now := s.cyc c
    (∀ l rest, m.loads = l :: rest → l.began = none →
      let start := max (l.issue + l.lat) (max m.prevStart (max m.loadEnd (State.takenEnd m)))
      (now < start → exec (.panelLoadBegin c) s = .next s) ∧
      (start ≤ now → l.bad s = false →
        exec (.panelLoadBegin c) s = .next (s.modMx c fun m => { m with loads := { l with
          began := some now,
          data := l.cells.map fun col => col.map fun p => p.1.map fun a => s.elemAt l.fmt a p.2 } :: rest })) ∧
      (start ≤ now → l.bad s = true → exec (.panelLoadBegin c) s =
        .next (s.fault c l.pc l.frame (faultOf (if opcode l.frame = 0xA0 then 0xA7 else 0x47) 1 l.base)))) ∧
    (∀ l rest b, m.late = none → l.began = some b → l.ended = none →
      (m.pass = none → m.loads = l :: rest →
        (now < b + l.dur → exec (.panelLoadEnd c) s = .next s) ∧
        (b + l.dur ≤ now → exec (.panelLoadEnd c) s =
          .next (s.modMx c fun m => { m with loads := { l with ended := some now } :: rest, loadEnd := now }))) ∧
      (∀ q, m.pass = some q → q.panel = l → b + l.dur ≤ now → exec (.panelLoadEnd c) s =
        .next (s.modMx c fun m => { m with pass := some { q with panel := { l with ended := some now } }, loadEnd := now }))) ∧
    (∀ l b, m.late = some l → l.began = some b → l.ended = none → b + l.dur ≤ now →
      exec (.panelLoadEnd c) s = .next (s.modMx c fun m => { m with late := none, loadEnd := now })) ∧
    (∀ e q l rest b bank p todo own, m.queue = e :: q → e.kind = .passes bank (p :: todo) own → m.loads = l :: rest → m.pass = none →
      l.began = some b → l.owner = (if own then e.uid else 0) → (p.ix = 0 → p.fed = 0 → s.matrixWaits c e = false) →
      let start := max m.prevEnd (max (b + l.dur - (l.ncol - 1)) ((if own then l.issue else e.issue) + p.lat))
      let fits (r : PassSpec) : PassSpec := if own ∨ p.ix ≠ 0 then r else State.fitPass l.kp r
      (now < start → exec (.passStart c) s = .next s) ∧
      (start ≤ now → own = false → ∀ i, s.passFault c (fits p) l = some i → exec (.passStart c) s = .next (s.fault c e.pc e.frame i)) ∧
      (start ≤ now → (own = false → s.passFault c (fits p) l = none) →
        (((fits p).slots.take 1).flatten.any (s.rowBad (fits p).afmt)) = false → exec (.passStart c) s =
        .next (((fits p).slots.take 1).flatten.foldl (fun t r => t.feedRow c bank (fits p) l r)
          (s.modMx c fun m => { m with
            loads := rest, prevStart := now, pass := some ⟨now, p.slots.length * slices l.fmt l.kp, 1, fits p, l⟩,
            queue := { e with kind := .passes bank (fits p :: todo.map fits) own } :: q })))) ∧
    (∀ e q r bank todo own, m.queue = e :: q → e.kind = .passes bank todo own → m.pass = some r →
      (now < r.start + r.dur → exec (.passEnd c) s = .next s) ∧
      (r.start + r.dur ≤ now → ((r.spec.slots.drop r.slot).flatten.any (s.rowBad r.spec.afmt)) = false →
        exec (.passEnd c) s = .next (State.runMatrix 10 (State.dropPass
          ((r.spec.slots.drop r.slot).flatten.foldl (fun t w => t.feedRow c bank r.spec r.panel w) s) c) c))) ∧
    (∀ e q dst g mask, m.queue = e :: q → e.kind = .gwait dst → m.gather = some g → g.due = some mask →
      exec (.gatherWindowTimeout c) s = .next (State.runMatrix 10 ((s.gatherClose c dst e.uid mask).popEntry c) c)) ∧
    (∀ h, (s.ctx c).hold = some h → opcode h.frame = 0x44 ∨ opcode h.frame = 0x45 → 4 ≤ m.queued.length →
      (∀ e ∈ m.queue, MKind.takes e.kind = false) →
      exec (.panelOrderFault c) s = .next (s.fault c (s.ctx c).pc h.frame (faultOf 0x46 1)))

/-- Feeding a row of a pass to a panel of at most four columns adds, for every column, the products of the row's elements and the column's, slice by slice, to the output of the row's engine, tile, row in the core tile and column; a pass without accumulation starts the outputs at zero. The bank becomes live in the row's engine. Every other output, every register and vector register of the core, every other core, all memory and the rest of the device stay as they are. -/
def Obligations.ProductsAccumulateInTheirOutputs : Prop :=
  ∀ (s : State) (c bank : Nat) (p : PassSpec) (l : PanelLoad) (r : RowSrc), l.data.length ≤ 4 →
    let act := r.addrs.zipIdx.map fun a => a.1.map fun b =>
      s.elemAt p.afmt b (if p.afmt.isMx then (r.scales[a.2 / 32]?).getD none else none)
    let key n := accKey (r.row / 4) bank r.tile (r.row % 4) n
    let t := s.feedRow c bank p l r
    (∀ n col, l.data[n]? = some col → (t.mx c).pair (key n) =
      (accumulate (l.fmt == .int8) (if p.fresh then Pair.zero else (s.mx c).pair (key n)) act col l.fmt.kc (slices l.fmt l.kp)).1) ∧
    (∀ k, (∀ n, n < l.data.length → k ≠ key n) → (t.mx c).pair k = (s.mx c).pair k) ∧
    (r.row < 16 → bank < 4 → l.data ≠ [] → (t.mx c).live = (s.mx c).live ||| BitVec.ofNat 16 (2 ^ (r.row / 4 * 4 + bank))) ∧
    (t.mx c).loads = (s.mx c).loads ∧ (t.mx c).queue = (s.mx c).queue ∧
    (t.ctx c).a = (s.ctx c).a ∧ (t.ctx c).l = (s.ctx c).l ∧ (t.ctx c).p = (s.ctx c).p ∧ (t.ctx c).v = (s.ctx c).v ∧
    (t.ctx c).pc = (s.ctx c).pc ∧ OnlyCore s t c

/-- Issued by a ready core whose matrix unit is on, with nothing in its queue, its scoreboard not full and no earlier instruction in flight on what it reads or writes: ACCZ sets every output of its core tiles to zero and leaves every other output, and releases the bank when it covers all sixteen tiles; tiles past the sixteenth fault with 0x42. ACCSV stores the bank's 8,192 bytes, engine by engine, tile by tile, row by row, eight bytes an output, at its 16-byte aligned own address, and leaves the accumulators and every other byte of memory; in a frozen range it faults. ACCLD loads the bank from such bytes, makes it live in every engine and leaves every other output and all memory. Each leaves the core's registers and vector registers, every other core and the rest of the device, and goes on to the next frame; an unaligned address faults with 0x44. -/
def Obligations.AccumulatorsAreClearedSavedAndLoaded : Prop :=
  ∀ (s : State) (c : Nat) (f : Frame), (s.mx c).queue = [] → (s.ctx c).attn = none → (s.mx c).decs = [] → (s.mx c).ready ≤ s.cyc c →
    let keep (t : State) : Prop := (t = { s with cores := t.cores, fresh := t.fresh, mem := t.mem }) ∧ (∀ k, k ≠ c → t.core k = s.core k) ∧
      (t.ctx c).a = (s.ctx c).a ∧ (t.ctx c).l = (s.ctx c).l ∧ (t.ctx c).p = (s.ctx c).p ∧ (t.ctx c).v = (s.ctx c).v ∧
      (t.ctx c).astat = (s.ctx c).astat ∧ (t.ctx c).flags = (s.ctx c).flags ∧ (t.ctx c).pc = (s.ctx c).pc + 16
    let raw (t : State) (k : Nat) : W64 := SMap.getD (t.mx c).acc k 0
    let at_ (e q i : Nat) : Nat := 8 * ((e * 16 + q) * 16 + i)
    (opcode f = 0x58 → Ready s c f [] → Zero f [(127, 30), (19, 16)] →
      let n := fld f 29 26 + 1
      let tile := fld f 25 22
      let key e q i := accKey e (fld f 21 20) (tile + q) (i / 4) (i % 4)
      (16 < tile + n → exec (.accz c f) s = .next (s.fault c (s.ctx c).pc f (faultOf 0x42 1))) ∧
      (tile + n ≤ 16 → Starts s (s.ins c f) 40 Foot.none → ∃ t, exec (.accz c f) s = .next t ∧ keep t ∧ t.mem = s.mem ∧
        (∀ e q i, e < 4 → q < n → i < 16 → raw t (key e q i) = 0) ∧
        (∀ k, (∀ e q i, e < 4 → q < n → i < 16 → k ≠ key e q i) → raw t k = raw s k) ∧
        (n = 16 → ∀ e, e < 4 → (t.mx c).live.getLsbD (4 * e + fld f 21 20) = false))) ∧
    (∀ op, op = 0x5B ∨ op = 0x5C → opcode f = op → Ready s c f [fld f 23 20] → Zero f [(127, 24), (19, 18)] →
      let base := ((s.ctx c).getA (fld f 23 20)).toNat
      let key e q i := accKey e (fld f 17 16) q (i / 4) (i % 4)
      (base % 16 ≠ 0 → (op = 0x5B → exec (.accsv c f) s = .next (s.fault c (s.ctx c).pc f (faultOf 0x44 1 base))) ∧
        (op = 0x5C → exec (.accld c f) s = .next (s.fault c (s.ctx c).pc f (faultOf 0x44 1 base)))) ∧
      (base % 16 = 0 → s.ownFault c base 8192 0x43 1 = none →
        (op = 0x5B → s.inRegion (gloc base) 8192 = false → Starts s (s.ins c f) 40 ⟨[⟨gloc base, gloc base + 8192, true⟩], []⟩ →
          s.frozenFault 1 [(gloc base, 8192)] = none → ∃ t, exec (.accsv c f) s = .next t ∧ keep t ∧ (t.mx c).acc = (s.mx c).acc ∧
          BytesOutside s t (gloc base) 8192 ∧
          ∀ e q i, e < 4 → q < 16 → i < 16 → rd (t.mem.read (gloc base) 8192) (at_ e q i) 8 = (raw s (key e q i)).toNat) ∧
        (op = 0x5C → s.mem.poisoned (gloc base) 8192 = false → Starts s (s.ins c f) 40 ⟨[⟨gloc base, gloc base + 8192, false⟩], []⟩ → ∃ t, exec (.accld c f) s = .next t ∧ keep t ∧ t.mem = s.mem ∧
          (∀ e q i, e < 4 → q < 16 → i < 16 → raw t (key e q i) = BitVec.ofNat 64 (rd (s.mem.read (gloc base) 8192) (at_ e q i) 8)) ∧
          (∀ k, (∀ e q i, e < 4 → q < 16 → i < 16 → k ≠ key e q i) → raw t k = raw s k) ∧
          (∀ e, e < 4 → (t.mx c).live.getLsbD (4 * e + fld f 17 16) = true))))

/-- A ready VEW or VMP with a valid frame that nothing stops (its checks find no fault, the scoreboard has room, nothing earlier of its pipeline or of an attention instruction is under way, no earlier instruction in flight touches what it touches, no operand is poisoned, no output lies in a frozen range) completes: its core goes on to the next frame, and only its outputs differ: the registers of an output in registers, the bytes of an output in memory, and with branch bits written out the bytes of the branch-bit stream. Every scalar register, predicate and loop register, every other vector register, every accumulator, record and flag of the core, every other core and every other byte of memory is as before. Without overlap of an output with an input and without branch bits, element k of a VEW's FP32 output in memory is its operation's result on element k of each input, converted to FP32. -/
def Obligations.ElementStreamsWriteTheirOutputs : Prop :=
  ∀ (s : State) (c : Nat) (f : Frame),
    let vew := opcode f = 0x60 ∧ Ready s c f (vewRegs f) ∧ vewDec f = none
    let vmp := opcode f = 0x61 ∧ Ready s c f (vmpRegs f) ∧ vmpDec f = none
    let outs := if opcode f = 0x60 then [opnd s c (fld f 91 80) true] else (vmpOuts f).map fun v => opnd s c v true
    let n := if opcode f = 0x60 then count s c (bitOf f 37) (fld f 36 24) (fld f 27 24) else count s c (bitOf f 33) (fld f 32 20) (fld f 23 20)
    let bits := if opcode f = 0x60 then bitOf f 39 && bitOf f 38 else bitOf f 35 && bitOf f 34
    let bba := gloc ((s.ctx c).getA (if opcode f = 0x60 then fld f 43 40 else fld f 39 36)).toNat
    let keeps (u : State) : Prop :=
      u = { s with cores := u.cores, mem := u.mem, fresh := u.fresh, regions := u.regions } ∧ (∀ k, k ≠ c → u.core k = s.core k) ∧
      (u.ctx c).a = (s.ctx c).a ∧ (u.ctx c).l = (s.ctx c).l ∧ (u.ctx c).p = (s.ctx c).p ∧ (u.ctx c).pc = (s.ctx c).pc ∧
      (u.ctx c).flags = (s.ctx c).flags ∧ (u.ctx c).mx = (s.ctx c).mx ∧ (u.ctx c).side = (s.ctx c).side ∧ (u.ctx c).uops = (s.ctx c).uops ∧
      (∀ r, (∀ o ∈ outs, o.mem = true ∨ r < o.loc ∨ o.loc + o.regs n ≤ r) → (u.ctx c).getV r = (s.ctx c).getV r) ∧
      ((∀ o ∈ outs, o.mem = true → s.inRegion o.loc (n * o.fmt.bytes) = false) → (bits = true → s.inRegion bba ((n + 7) / 8) = false) →
        u.regions = s.regions ∧ ∀ b, (∀ o ∈ outs, o.mem = true → b < o.loc ∨ o.loc + n * o.fmt.bytes ≤ b) →
          (bits = true → b < bba ∨ bba + (n + 7) / 8 ≤ b) → u.mem.byte b = s.mem.byte b)
    (vew → (vewOp (s.ins c f) s).Clear (s.ins c f) s → ∃ u, exec (.vew c f) s = .next (s.pass u c) ∧ u = (vewOp (s.ins c f) s).act s ∧ keeps u) ∧
    (vmp → (vmpOp (s.ins c f) s).Clear (s.ins c f) s → ∃ u, exec (.vmp c f) s = .next (s.pass u c) ∧ u = (vmpOp (s.ins c f) s).act s ∧ keeps u) ∧
    (vew → (vewOp (s.ins c f) s).Clear (s.ins c f) s → bitOf f 39 = false →
      let o := opnd s c (fld f 91 80) true
      let w := UWord.of (fld f 123 92)
      let ins := (vewIns f).map fun v => opnd s c v false
      o.mem = true → o.fmt = .fp32 → (∀ i ∈ ins, Opnd.clash o i n = false) → s.inRegion o.loc (4 * n) = false →
      ∃ u, exec (.vew c f) s = .next (s.pass u c) ∧ ∀ k, k < n →
        let src (v : Nat) : XF := if v < 16 ∨ v = 0x15 then .zero false else if v = 0x16 then one else
          match ins[v - 16]? with | some i => i.get s c k | none => .zero false
        rd (u.mem.read (o.loc + 4 * k) 4) 0 4 =
          (convert .fp32 ((uop w.u (src w.a) (src w.b) (src w.c) w.k false).run 0).1).1 % 2 ^ 32)

/-- A ready SMST of clean records up to 4,095, at an aligned address of its own, not in a frozen range, that its unit can start, completes: the sixteen bytes of each record stand at its own address, and all other memory and the core are as before. A ready SMLD of clean bytes, that its unit can start, whose kinds are all assigned sets the records to those bytes, and all memory, every other record and the rest of the core are as before. RSTAT and RFIN complete when nothing stops them (checks, an earlier instruction of their pipeline or of an attention instruction, one in flight on their operands, poison); only the vector registers they name, their records and the arithmetic status word of the core differ; all memory is as before. Each goes on to the next frame. An SMST of records past 4,095 faults with 0x66, one of an unaligned address with 0x64, and memory outside its bytes is as before. -/
def Obligations.RecordsAreStoredLoadedAndFinished : Prop :=
  ∀ (s : State) (c : Nat) (f : Frame),
    let g := ((s.ctx c).getA (fld f 43 40)).toNat
    let sx := ((s.ctx c).getA (fld f 39 36)).toNat
    let n := fld f 35 24 + 1
    let row (x : Ctx) (k : Nat) : BitVec 128 := SMap.getD x.side k 0
    let core (u : State) : Prop := u = { s with cores := u.cores, mem := u.mem } ∧ (∀ k, k ≠ c → u.core k = s.core k) ∧
      (u.ctx c).a = (s.ctx c).a ∧ (u.ctx c).l = (s.ctx c).l ∧ (u.ctx c).p = (s.ctx c).p ∧ (u.ctx c).pc = (s.ctx c).pc ∧
      (u.ctx c).flags = (s.ctx c).flags ∧ (u.ctx c).mx = (s.ctx c).mx ∧ (u.ctx c).uops = (s.ctx c).uops
    (opcode f = 0x8C → Ready s c f [fld f 43 40, fld f 39 36] → Zero f [(127, 44), (23, 16)] →
      (g % 16 ≠ 0 → ∃ t, exec (.smst c f) s = .next (t.fault c (s.ctx c).pc f (faultOf 0x64 3 g)) ∧ BytesOutside s t (gloc g) (16 * n)) ∧
      (g % 16 = 0 → s.ownFault c g (16 * n) 0x63 3 = none →
        (4096 < sx + n → ∃ t, exec (.smst c f) s = .next (t.fault c (s.ctx c).pc f (faultOf 0x66 3)) ∧ BytesOutside s t (gloc g) (16 * n)) ∧
        (sx + n ≤ 4096 → Starts s (s.ins c f) 30 ⟨[⟨gloc g, gloc g + 16 * n, true⟩], []⟩ →
          s.frozenFault 3 [(gloc g, 16 * n)] = none →
          (∀ k, k < 2 * n → SMap.getD (s.ctx c).sidePois (2 * sx + k) false = false) → ∃ u, exec (.smst c f) s = .next (s.pass u c) ∧
          (s.inRegion (gloc g) (16 * n) = false → core u ∧ u.cores = s.cores ∧ BytesOutside s u (gloc g) (16 * n) ∧
            ∀ k, k < n → leNat (u.mem.read (gloc g + 16 * k) 16) = (row (s.ctx c) (sx + k)).toNat)))) ∧
    (opcode f = 0x8D → Ready s c f [fld f 43 40, fld f 39 36] → Zero f [(127, 44), (23, 16)] → g % 16 = 0 → s.ownFault c g (16 * n) 0x63 3 = none →
      sx + n ≤ 4096 → Starts s (s.ins c f) 30 ⟨[⟨gloc g, gloc g + 16 * n, false⟩], []⟩ → s.poisoned (gloc g) (16 * n) = false →
      (∀ k, k < n → leNat (s.mem.read (gloc g + 16 * k) 16) / 2 ^ 124 ≤ 5) →
      ∃ u, exec (.smld c f) s = .next (s.pass u c) ∧ core u ∧ u.mem = s.mem ∧ (u.ctx c).v = (s.ctx c).v ∧
        (∀ k, k < n → (row (u.ctx c) (sx + k)).toNat = leNat (s.mem.read (gloc g + 16 * k) 16)) ∧
        (∀ k, k < sx ∨ sx + n ≤ k → row (u.ctx c) k = row (s.ctx c) k)) ∧
    (opcode f = 0x88 → Ready s c f [fld f 47 44] → rstatDec f = none → (rstatOp (s.ins c f) s).Clear (s.ins c f) s →
      ∃ u, exec (.rstat c f) s = .next (s.pass u c) ∧ core u ∧ u.mem = s.mem ∧
      (∀ k, k < ((s.ctx c).getA (fld f 47 44)).toNat ∨ ((s.ctx c).getA (fld f 47 44)).toNat + fld f 19 16 + 1 ≤ k → row (u.ctx c) k = row (s.ctx c) k) ∧
      (∀ r, r ≠ fld f 37 32 → r < fld f 43 38 ∨ fld f 43 38 + ((fld f 19 16 + 1) * (fld f 31 26 + 1) * 32 + 1023) / 1024 ≤ r →
        (u.ctx c).getV r = (s.ctx c).getV r)) ∧
    (opcode f = 0x89 → Ready s c f [fld f 31 28] → Zero f [(127, 32), (21, 20)] → (rfinOp (s.ins c f) s).Clear (s.ins c f) s →
      ∃ u, exec (.rfin c f) s = .next (s.pass u c) ∧ core u ∧ u.mem = s.mem ∧
      (∀ k, k < ((s.ctx c).getA (fld f 31 28)).toNat ∨ ((s.ctx c).getA (fld f 31 28)).toNat + fld f 19 16 + 1 ≤ k → row (u.ctx c) k = row (s.ctx c) k) ∧
      (∀ r, r ≠ fld f 27 22 → (u.ctx c).getV r = (s.ctx c).getV r))

/-- A ready VLD, VST, VRED, UPLOAD, NORMF, NORMB, SMAXF, SMAXB, POOL or POOLB with a valid frame that nothing stops (its checks and its descriptor find no fault, the scoreboard has room, nothing earlier of its pipeline or of an attention instruction is under way, no earlier instruction in flight touches what it touches, nothing it reads is poisoned, no output lies in a frozen range) completes: its core goes on to the next frame with its scalar registers, predicates, flags and accumulators as before, and every other core is as before. VLD and UPLOAD leave all memory; VLD writes only the vector registers from V on that its elements take, UPLOAD only its slot of the micro-program store. Outside open regions VST stores only its element bytes and, for MX formats, its scale bytes; VRED only the eight bytes of its pair; POOL and POOLB only the bytes of their output tensor; the row instructions only their rows of results and, with gradients, the gradient area. All of these but VLD leave every vector register. -/
def Obligations.MovesReductionsAndRowsStoreOnlyTheirOutputs : Prop :=
  ∀ (s : State) (c : Nat) (f : Frame),
    let ar (hi lo : Nat) : Nat := ((s.ctx c).getA (fld f hi lo)).toNat
    let fm (hi lo : Nat) : Fmt := (Fmt.ofCode (fld f hi lo)).getD .fp32
    let keeps (u : State) : Prop :=
      u = { s with cores := u.cores, mem := u.mem, fresh := u.fresh, regions := u.regions } ∧ (∀ k, k ≠ c → u.core k = s.core k) ∧
      (u.ctx c).a = (s.ctx c).a ∧ (u.ctx c).l = (s.ctx c).l ∧ (u.ctx c).p = (s.ctx c).p ∧ (u.ctx c).pc = (s.ctx c).pc ∧
      (u.ctx c).flags = (s.ctx c).flags ∧ (u.ctx c).mx = (s.ctx c).mx
    let only (u : State) (k : Nat) (spans : Nat → Nat × Nat) : Prop :=
      (∀ i, i < k → s.inRegion (spans i).1 (spans i).2 = false) →
        u.regions = s.regions ∧ ∀ b, (∀ i, i < k → b < (spans i).1 ∨ (spans i).1 + (spans i).2 ≤ b) → u.mem.byte b = s.mem.byte b
    (opcode f = 0x62 → Ready s c f (vldRegs f) → vldDec f = none → (vmoveOp true (s.ins c f) s).Clear (s.ins c f) s →
      ∃ u, exec (.vld c f) s = .next (s.pass u c) ∧ keeps u ∧ u.mem = s.mem ∧ (u.ctx c).side = (s.ctx c).side ∧
      let n := count s c (bitOf f 37) (fld f 36 24) (fld f 27 24)
      ∀ r, r < fld f 51 46 ∨ fld f 51 46 + (n * (fm 41 38).bits + 1023) / 1024 ≤ r → (u.ctx c).getV r = (s.ctx c).getV r) ∧
    (opcode f = 0x63 → Ready s c f (vldRegs f) → vldDec f = none → (vmoveOp false (s.ins c f) s).Clear (s.ins c f) s →
      ∃ u, exec (.vst c f) s = .next (s.pass u c) ∧ keeps u ∧ (u.ctx c).v = (s.ctx c).v ∧ (u.ctx c).side = (s.ctx c).side ∧
      let n := count s c (bitOf f 37) (fld f 36 24) (fld f 27 24)
      only u 2 fun i => if i = 0 then (gloc (ar 55 52), (n * (fm 45 42).bits + 7) / 8)
        else if (fm 45 42).isMx then (gloc (ar 59 56), (n + 31) / 32) else (0, 0)) ∧
    (opcode f = 0x64 → Ready s c f (vredRegs f) → vredDec f = none → (vredOp (s.ins c f) s).Clear (s.ins c f) s →
      ∃ u, exec (.vred c f) s = .next (s.pass u c) ∧ keeps u ∧ (u.ctx c).v = (s.ctx c).v ∧ (u.ctx c).side = (s.ctx c).side ∧
      only u 1 fun _ => (gloc (ar 59 56), 8)) ∧
    (opcode f = 0x68 → Ready s c f [fld f 19 16] → Zero f [(127, 29)] → ar 19 16 % 16 = 0 → s.ownFault c (ar 19 16) 256 0x63 2 = none →
      Starts s (s.ins c f) 21 ⟨[⟨gloc (ar 19 16), gloc (ar 19 16) + 256, false⟩], []⟩ →
      s.poisoned (gloc (ar 19 16)) 256 = false →
      (∀ k, k < fld f 28 24 + 1 → (UWord.of (leNat (s.mem.read (gloc (ar 19 16) + 4 * k) 4))).ok = true) →
      ∃ u, exec (.upload c f) s = .next (s.pass u c) ∧ keeps u ∧ u.mem = s.mem ∧ (u.ctx c).v = (s.ctx c).v ∧ (u.ctx c).side = (s.ctx c).side ∧
      (∀ k, k ≠ fld f 23 20 → SMap.get? (u.ctx c).uops k = SMap.get? (s.ctx c).uops k) ∧
      SMap.get? (u.ctx c).uops (fld f 23 20) = some
        ⟨(List.range (fld f 28 24 + 1)).map fun k => BitVec.ofNat 32 (leNat (s.mem.read (gloc (ar 19 16) + 4 * k) 4)),
         (List.range 32).map fun k => BitVec.ofNat 32 (leNat (s.mem.read (gloc (ar 19 16) + 128 + 4 * k) 4))⟩) ∧
    (∀ b, opcode f = (if b then 0x81 else 0x80) → Ready s c f (normRegs b f) → normDec b f = none → firstFault (normShape (s.ins c f) s) = none →
      (normOp b (s.ins c f) s).Clear (s.ins c f) s →
      ∃ u, exec (if b then .normb c f else .normf c f) s = .next (s.pass u c) ∧ keeps u ∧ (u.ctx c).v = (s.ctx c).v ∧
      let gcnt := if fld f 43 42 = 2 then ar 95 92 / 2 ^ 32 % 2 ^ 32 * (ar 79 76 / max (ar 95 92 % 2 ^ 32) 1) else ar 79 76
      only u (ar 83 80 + 1) fun i => if i < ar 83 80 then (gloc (ar 63 60) + i * ar 75 72, ar 79 76 * (fm 51 48).bytes)
        else if b && bitOf f 39 then (gloc (ar 91 88), 16 * gcnt) else (0, 0)) ∧
    (∀ b, opcode f = (if b then 0x85 else 0x84) → Ready s c f (smaxRegs b f) → smaxDec b f = none → smaxShape (s.ins c f) s = none →
      (smaxOp b (s.ins c f) s).Clear (s.ins c f) s →
      ∃ u, exec (if b then .smaxb c f else .smaxf c f) s = .next (s.pass u c) ∧ keeps u ∧ (u.ctx c).v = (s.ctx c).v ∧
      only u (ar 83 80) fun i => (gloc (ar 63 60) + i * ar 75 72, ar 79 76 * (fm 51 48).bytes)) ∧
    (∀ b, opcode f = (if b then 0x6D else 0x6C) → Ready s c f (poolRegs b f) → poolDec b f = none →
      (fm 27 24).isVec = true → (fm 31 28).isVec = true → ar 43 40 % 16 = 0 → s.ownFault c (ar 43 40) 64 0x63 2 = none →
      s.conflict (s.ins c f) ⟨[⟨gloc (ar 43 40), gloc (ar 43 40) + 64, false⟩], []⟩ = false →
      s.poisoned (gloc (ar 43 40)) 64 = false →
      let w := Win3.of (s.read (gloc (ar 43 40)) 64)
      w.rsvd = true → w.ok = true → (poolOp b (s.ins c f) s w).Clear (s.ins c f) s →
      ∃ u, exec (if b then .poolb c f else .pool c f) s = .next (s.pass u c) ∧ keeps u ∧ (u.ctx c).v = (s.ctx c).v ∧
      (u.ctx c).side = (s.ctx c).side ∧
      only u 1 fun _ => (gloc (ar 39 36), if b then tensorLen w.ins w.xs w.cb w.cbw (fm 31 28).bytes
        else tensorLen w.outs w.ys w.cb w.cbw (fm 31 28).bytes))

/-- An edit whose earlier writes have all completed arrives. One that has arrived and is the first of its sequence, keeps its layout, and names a pool that takes edits is applied, and each of the ten operations completes: CREATE makes a record of length 0 at the number asked for or the lowest free one; QUERY answers 16 tokens a page with an entry; FREE takes the record away; RESERVE that finds enough free frames gives one to every page it needs and answers the first of them, one beyond the page table completes with ST_BAD_FIELD, one that needs no page answers 0xFFFFFFFF, one that finds too few free frames and none coming ST_BAD_STATE; EXTEND adds to the length what reserved pages hold, and no more; TRUNCATE to a shorter length sets it, takes away the pages beyond it, leaves the others and counts the table version up by one, one beyond the length completes with ST_BAD_FIELD; STAGE of a page whose data a free deck frame takes answers that frame and marks it pending, leaving the page table; INSTALL puts the staged frame into the page table, counts the version up and drops the old frame; PROMOTE of a page in the deck answers its frame, of another puts the new deck frame into the page table; STAGE and PROMOTE of a page without an entry, and INSTALL of one not staged, complete with ST_BAD_FIELD; FORK of full pages makes a child of the parent's length, one of a taken number completes with ST_BAD_FIELD. An edit of another operation's row, or one that is not ready, changes nothing. -/
def Obligations.EditsOfSequencesAreApplied : Prop :=
  ∀ (z : State) (ix : Nat) (e : Edit) (q : KvPool),
    let s := z.arriveEdits
    s.kv.edits[ix]? = some e →
    let pool := e.seq / 2 ^ 28
    let rows (i : Nat) : Option Instr := [Instr.query i, .create i, .free i, .reserve i, .extend i, .truncate i, .stage i, .install i, .promote i, .fork i][e.op]?
    ((∀ x ∈ z.kv.edits, x.arr ≠ 0 ∨ x.after.any z.alive = true) → s = z) ∧
    (∀ i ∈ [Instr.query ix, .create ix, .free ix, .reserve ix, .extend ix, .truncate ix, .stage ix, .install ix, .promote ix, .fork ix],
      rows ix ≠ some i → exec i z = .next s) ∧
    (s.editReady e = false → ∀ i, rows ix = some i → exec i z = .next s) ∧
    (s.editReady e = true → e.bad = false → nfld e.seq 27 20 = 0 → s.kvPool pool = some q → q.phase = 2 →
      (e.op = 1 → (∀ st, s.newSeqNo pool q.maxSeq e.arg0 = .error st → exec (.create ix) z = .next (s.editDone e st 0 0 0)) ∧
        (∀ n, s.newSeqNo pool q.maxSeq e.arg0 = .ok n → s.residents < 16384 →
          exec (.create ix) z = .next ((s.newSeq (pool * 2 ^ 28 + n) 0).editEnd e St.ok (pool * 2 ^ 28 + n) n))) ∧
      (e.op ≠ 1 → s.kvSeq e.seq = none → ∀ i, rows ix = some i → exec i z = .next (s.editDone e St.badField 0 0 0)) ∧
      (∀ r, s.kvSeq e.seq = some r → (r.resident = true ∨ s.residents < 16384) →
        let u := s.setSeq e.seq { r with resident := true, lastUse := s.now }
        let bad := u.editEnd e St.badField e.seq 0
        let need := (List.range ((r.len + e.arg0 + 15) / 16)).filter fun p => (SMap.get? r.pages p).isNone
        (e.op = 0 → e.arg0 = 0 → exec (.query ix) z = .next (u.editEnd e St.ok e.seq (16 * r.pages.length))) ∧
        (e.op = 0 ∨ e.op = 2 → e.arg0 ≠ 0 → ∀ i, rows ix = some i → exec i z = .next bad) ∧
        (e.op = 2 → e.arg0 = 0 → ∃ t : State, exec (.free ix) z = .next (t.editDone e St.ok r.ver 0 0) ∧ t.kvSeq e.seq = none) ∧
        (e.op = 3 → (q.maxPages * 16 < r.len + e.arg0 → exec (.reserve ix) z = .next bad) ∧
          (r.len + e.arg0 ≤ q.maxPages * 16 → need = [] → exec (.reserve ix) z = .next (u.editEnd e St.ok e.seq 0xFFFFFFFF)) ∧
          (r.len + e.arg0 ≤ q.maxPages * 16 → need ≠ [] → r.log = [] → q.freeDeck + q.freeLp + q.freeRemote < need.length →
            u.comingFree pool 0 (2 ^ 32) = false → exec (.reserve ix) z = .next (u.editEnd e St.badState e.seq 0)) ∧
          (r.len + e.arg0 ≤ q.maxPages * 16 → need ≠ [] → r.log = [] → need.length ≤ q.freeDeck + q.freeLp + q.freeRemote →
            exec (.reserve ix) z = .next ((u.reservePages pool e.seq need).editEnd e St.ok e.seq (need.head?.getD 0)))) ∧
        (e.op = 4 → (q.maxPages * 16 < r.len + e.arg0 ∨ 16 * r.pages.length < r.len + e.arg0 → exec (.extend ix) z = .next bad) ∧
          (r.len + e.arg0 ≤ q.maxPages * 16 → r.len + e.arg0 ≤ 16 * r.pages.length → exec (.extend ix) z =
            .next ((u.setSeq e.seq { r with resident := true, lastUse := s.now, len := r.len + e.arg0 }).editEnd e St.ok e.seq 0))) ∧
        (e.op = 5 → (r.len < e.arg0 → exec (.truncate ix) z = .next bad) ∧
          (e.arg0 ≤ r.len → s.latched e.seq = false → ∃ (t : State) (x : KvSeq), exec (.truncate ix) z = .next (t.editEnd e St.ok e.seq 0) ∧
            t.kvSeq e.seq = some x ∧ x.len = e.arg0 ∧ x.ver = r.ver + 1 ∧
            (∀ p, p < (e.arg0 + 15) / 16 → SMap.get? x.pages p = SMap.get? r.pages p) ∧
            ∀ p, (e.arg0 + 15) / 16 ≤ p → SMap.get? x.pages p = none)) ∧
        (e.op = 6 → (SMap.get? r.pages e.arg0 = none → exec (.stage ix) z = .next bad) ∧
          (∀ old f a v bs, SMap.get? r.pages e.arg0 = some old → e.arg0 < (r.len + 15) / 16 → q.pickDeck u.fresh = some f →
            q.frameAddr s.fab.devnum old = some a → u.frameData (.edit e.uid) a q.psz 1 = (some (St.ok, bs), v) →
            ∃ (t : State) (x : KvSeq), exec (.stage ix) z = .next (t.editEnd e St.ok e.seq f) ∧ t.kvSeq e.seq = some x ∧
              SMap.get? x.pend e.arg0 = some f ∧ x.pages = r.pages ∧ x.len = r.len ∧ x.ver = r.ver)) ∧
        (e.op = 7 → (SMap.get? r.pend e.arg0 = none → exec (.install ix) z = .next bad) ∧
          (∀ f, SMap.get? r.pend e.arg0 = some f → s.latched e.seq = false → ∃ (t : State) (x : KvSeq), exec (.install ix) z = .next (t.editEnd e St.ok e.seq f) ∧
            t.kvSeq e.seq = some x ∧ SMap.get? x.pend e.arg0 = none ∧ x.ver = r.ver + 1 ∧ x.len = r.len ∧
            (f ≠ noFrame → SMap.get? x.pages e.arg0 = some f) ∧ ∀ p, p ≠ e.arg0 → SMap.get? x.pages p = SMap.get? r.pages p)) ∧
        (e.op = 8 → (SMap.get? r.pages e.arg0 = none → exec (.promote ix) z = .next bad) ∧
          (∀ f, SMap.get? r.pages e.arg0 = some f → f < 2 ^ 30 → e.arg0 < (r.len + 15) / 16 →
            exec (.promote ix) z = .next (u.editEnd e St.ok e.seq f)) ∧
          (∀ old f a v bs, SMap.get? r.pages e.arg0 = some old → 2 ^ 30 ≤ old → e.arg0 < (r.len + 15) / 16 → s.latched e.seq = false →
            q.pickDeck u.fresh = some f → f < 2 ^ 30 → q.frameAddr s.fab.devnum old = some a →
            u.frameData (.edit e.uid) a q.psz 1 = (some (St.ok, bs), v) →
            ∃ (t : State) (x : KvSeq), exec (.promote ix) z = .next (t.editEnd e St.ok e.seq f) ∧ t.kvSeq e.seq = some x ∧
              SMap.get? x.pages e.arg0 = some f ∧ x.len = r.len ∧ x.ver = r.ver + 1)) ∧
        (e.op = 9 → (∀ st, u.newSeqNo pool q.maxSeq e.arg0 = .error st → exec (.fork ix) z = .next (u.editEnd e st e.seq 0)) ∧
          (∀ n, u.newSeqNo pool q.maxSeq e.arg0 = .ok n → u.residents < 16384 → r.len % 16 = 0 → exec (.fork ix) z = .next
            (((r.pages.filter fun p => decide (p.1 < r.len / 16)).foldl (fun t p => t.sharePage pool (pool * 2 ^ 28 + n) p.1 p.2)
              (u.newSeq (pool * 2 ^ 28 + n) r.len)).editEnd e St.ok e.seq n)))))

/-- A pool whose tiers stand above their marks starts no spill; one whose deck stands below it starts the copy of its next deck page to a free local LPDDR5X frame. A completed copy of a shared page without latches is installed in every sequence that shares it, takes over the references of the old frame, and counts; a failed one gives its new frame back and is logged with code 14. A record is evicted only when the room is full, some request waits for a record, it is the least recently used, idle for its time, and no walk on a running core latches it. Log slots that no latched walk needs are freed. A frame with no reference whose releases no latched walk and no log slot holds goes back to its free list; otherwise nothing changes. -/
def Obligations.PagesSpillAndFramesReturn : Prop :=
  (∀ (s : State) (pool : Nat), s.kvPool pool = none → exec (.kvPageSpill pool) s = .next s) ∧
  (∀ (s : State) (pool : Nat) (q : KvPool), s.kvPool pool = some q → q.phase ≠ 2 → exec (.kvPageSpill pool) s = .next s) ∧
  (∀ (s : State) (pool : Nat) (q : KvPool), s.kvPool pool = some q → q.phase = 2 → (∀ x ∈ s.kv.spills, x.pool ≠ pool) →
    q.lowDeck = false → q.lowLp = false →
    (q.lwm * q.deckFrames ≤ 256 * q.freeDeck → q.lwm * q.lpFrames ≤ 256 * q.freeLp → exec (.kvPageSpill pool) s = .next (s.setPool pool q)) ∧
    (256 * q.freeDeck < q.lwm * q.deckFrames → q.lwm * q.lpFrames ≤ 256 * q.freeLp →
      let p : KvPool := { q with lowDeck := true }
      ∀ f t, State.spillVictim (s.setPool pool p) pool 0 (2 ^ 30) p = some f → KvPool.pickLp p s.fresh = some t →
        exec (.kvPageSpill pool) s = .next ((s.setPool pool p).beginSpill pool f t p))) ∧
  (∀ (s : State) (ix : Nat) (ok : Bool) (x : Spill) (f : Fetch) (q : KvPool), s.kv.spills[ix]? = some x →
    s.fetch? (.spill x.pool x.frm) = some f → s.kvPool x.pool = some q →
    (f.missing ≠ 0 → exec (.spillCopyDone ix ok) s = .next s) ∧
    (f.missing = 0 → ok = false ∨ f.status ≠ St.ok → ∃ t : State, exec (.spillCopyDone ix ok) s =
        .next (t.logErr 0x90 0xE (BitVec.ofNat 64 ((q.frameAddr 0 x.frm).getD 0)) f.status) ∧
      (∀ p, t.kvPool x.pool = some p → SMap.get? p.frames x.dst = none ∧ ∀ e, e ≠ x.dst → SMap.get? p.frames e = SMap.get? q.frames e) ∧
      t.kv.spills = s.kv.spills.filter (fun y => !(y == x)) ∧ t.kv.seqs = s.kv.seqs ∧ t.mem = s.mem) ∧
    (f.missing = 0 → ok = true → f.status = St.ok → ∀ t, s.installSpill x = some t → s.sharers x.pool x.frm ≠ [] → ∃ u : State,
      exec (.spillCopyDone ix ok) s = .next u ∧ u.kv.seqs = t.kv.seqs ∧ ∀ p, u.kvPool x.pool = some p → ∃ o : KvPool, t.kvPool x.pool = some o ∧
        p.frames = SMap.put o.frames x.dst ⟨(s.sharers x.pool x.frm).length, (SMap.getD o.frames x.frm ⟨0, 0⟩).tick⟩ ∧
        (p.spillDeck = if x.frm < 2 ^ 30 then o.spillDeck + 1 else o.spillDeck) ∧
        (p.spillLp = if x.frm < 2 ^ 30 then o.spillLp else o.spillLp + 1))) ∧
  (∀ (s t : State) (ref : Nat), exec (.recordEviction ref) s = .next t → t ≠ s → ∃ r q, s.kvSeq ref = some r ∧ s.kvPool (ref / 2 ^ 28) = some q ∧
    t = s.setSeq ref { r with resident := false } ∧ r.resident = true ∧ 16384 ≤ s.residents ∧ r.lastUse + q.idleUs * 2400 ≤ s.now ∧
    ∀ n x, (n, x) ∈ s.kv.seqs → x.resident = true → r.lastUse ≤ x.lastUse) ∧
  (∀ (s : State) (ref : Nat) (r : KvSeq) (q : KvPool) (e : Edit), s.kvSeq ref = some r → s.kvPool (ref / 2 ^ 28) = some q → r.resident = true →
    16384 ≤ s.residents → e ∈ s.kv.edits → e.op = 1 → s.latched ref = false → (∀ n x, (n, x) ∈ s.kv.seqs → x.resident = true → r.lastUse ≤ x.lastUse) →
    r.lastUse + q.idleUs * 2400 ≤ s.now → exec (.recordEviction ref) s = .next (s.setSeq ref { r with resident := false })) ∧
  (∀ (s : State) (ref : Nat) (r : KvSeq), s.kvSeq ref = some r → exec (.editLogSlotFree ref) s = .next (s.setSeq ref { r with
      log := r.log.filter fun l => s.kv.latches.any fun k => k.seq == ref && newer l.ver k.ver })) ∧
  (∀ (s : State) (pool : Nat) (entry : W32) (q : KvPool) (f : FrameRec), s.kvPool pool = some q → SMap.get? q.frames entry.toNat = some f →
    (f.refs ≠ 0 → exec (.frameRelease pool entry) s = .next s) ∧
    (f.refs = 0 → (∃ r ∈ s.kv.releases, r.pool = pool ∧ r.entry = entry.toNat) →
      (∀ n x, (n, x) ∈ s.kv.seqs → ∀ l ∈ x.log, ∀ o ∈ l.old, o.2 ≠ entry.toNat) →
      (∀ r ∈ s.kv.releases, r.pool = pool → r.entry = entry.toNat → ∀ l ∈ s.kv.latches, l.seq = r.seq → newer r.ver l.ver = false) →
      ∃ t : State, exec (.frameRelease pool entry) s = .next t ∧ t.mem = s.mem ∧ t.kv.seqs = s.kv.seqs ∧
        (∀ p, t.kvPool pool = some p → SMap.get? p.frames entry.toNat = none ∧ ∀ e, e ≠ entry.toNat → SMap.get? p.frames e = SMap.get? q.frames e) ∧
        ∀ r ∈ t.kv.releases, ¬ (r.pool = pool ∧ r.entry = entry.toNat)))

/-- On a running core with an attention instruction under way, WALK_COMPLETE of an entry that has not begun starts it when at most NPARK others are under way, latching length, version and pages of its record in one; when more are under way, or the entry has finished, nothing changes. A forward entry that has begun and whose keys and values have all arrived clean, whose page table no other has written, finishes: its rows are attended over the fed tiles of the length it latched and stored, its fetch and its latch go, its flag is signalled, and the next entry starts. When the last entry finishes, the instruction is complete: no attention instruction is under way and the accumulator banks are released. -/
def Obligations.AttentionWalksStartAndFinish : Prop :=
  ∀ (s : State) (c ix : Nat) (a : Attn) (e : AttEntry) (w : Walk), s.attn c = some a → s.running c = true →
    a.entries[ix]? = some e → a.walks[ix]? = some w →
    let going := (a.walks.filter fun x => x.phase == 2).length
    (w.phase = 3 → exec (.walkComplete c ix) s = .next s) ∧
    (w.phase = 0 → a.desc.npark < going → exec (.walkComplete c ix) s = .next s) ∧
    (w.phase = 0 → going ≤ a.desc.npark → e.cont = false → ∀ q r, s.kvPool a.desc.pool = some q → q.phase = 2 → s.kvSeq e.seq = some r →
      r.resident = true → a.bwd = false → ∃ t : State, exec (.walkComplete c ix) s = .next t ∧
        t.kv.latches = s.kv.latches ++ [⟨.walk a.uid ix, e.seq, r.len, r.ver, r.pages⟩] ∧ t.mem = s.mem ∧
        ∃ b, t.attn c = some b ∧ b.walks = a.walks.set ix ⟨2, r.len, r.ver⟩ ∧ b.entries = a.entries) ∧
    (w.phase = 2 → a.bwd = false → ∀ q lt f rs, s.kvPool a.desc.pool = some q →
      (s.kv.latches.find? fun l => l.holder == .walk a.uid ix) = some lt →
      let ps := (List.range e.nrows).map e.pos
      let tiles := fedTiles s a.desc w.len ps
      s.walkFault c a e w.len q.hdim ps (s.rowsRead a e w.len tiles) = none → (s.touchPages a.desc.pool lt.pages tiles).tableBent q e.seq tiles = false → (tiles.map fun p => s.pageRanges q e lt.pages p).mapM id = some rs →
      s.fetch? (.walk a.uid ix) = some f → f.missing = 0 → f.status = St.ok → f.pois = [] →
      exec (.walkComplete c ix) s = .next (
        match State.nextWalk (State.endAttn (State.walkEnd (State.dropFetch
            (State.fwdEntry (s.touchPages a.desc.pool lt.pages tiles) c a e w q (State.tilesOf f q w.len tiles)) (.walk a.uid ix)) c a ix w false) c) c with
        | .ok t => t
        | .error i => State.fault (State.walkEnd (State.dropFetch
            (State.fwdEntry (s.touchPages a.desc.pool lt.pages tiles) c a e w q (State.tilesOf f q w.len tiles)) (.walk a.uid ix)) c a ix w false) c a.pc a.frame i)) ∧
    ((∀ x ∈ a.walks, x.phase = 3) → (State.endAttn s c).attn c = none ∧ ∀ k, k < 16 → ((State.endAttn s c).mx c).live.getLsbD k = false)

/-- The oldest reservation of a core moves to the list of its engine; a reservation for an engine that is being reset is refused and faults. The head of the list is granted an entry of the queue when fewer than 32 are taken, and nothing changes otherwise. An engine without a job takes the next of its queue; a job whose descriptor is clean and keeps its rules runs, and so does one that a pre-emption stopped, with the descriptor it had read. A running job completes no earlier than 40 cycles and its remaining groups after its start: it then stores each of its outputs, reads of poisoned operands fault with 0xA7, the engine is free again, and with FEN one signal adds 1 to the flag named. -/
def Obligations.StemJobsQueueRunAndStore : Prop :=
  (∀ (s : State) (c : Nat) (j : StemJob), s.sreq.find? (fun k => k.core == c) = some j →
    let e := State.stemOf c
    let t : State := { s with sreq := s.sreq.filter fun k => k.uid != j.uid }
    (s.blockDown (0x50 + e) = false → exec (.stemReservation c) s = .next (t.setStem e { s.stem e with resv := (s.stem e).resv ++ [j] })) ∧
    (s.blockDown (0x50 + e) = true → exec (.stemReservation c) s =
      .next ((t.countDown (0x50 + e)).stemFault e j (remoteFault 7 0 St.blockReset)))) ∧
  (∀ (s : State) (e : Nat) (j : StemJob) (rest : List StemJob), (s.stem e).resv = j :: rest →
    ((s.stem e).que.length < 32 → exec (.stemGrant e) s = .next (s.setStem e { s.stem e with resv := rest, que := (s.stem e).que ++ [j] })) ∧
    (32 ≤ (s.stem e).que.length → exec (.stemGrant e) s = .next s)) ∧
  (∀ (s : State) (e : Nat) (j : StemJob) (rest : List StemJob), (s.stem e).run = none → (s.stem e).que = j :: rest →
    s.blockDown (0x50 + e) = false →
    (j.held ≠ [] → exec (.stemJobStart e) s = .next (s.setStem e { s.stem e with que := rest, run := some ⟨j, s.now, j.held⟩ })) ∧
    (j.held = [] → j.desc % 16 = 0 → s.ownFault j.core j.desc 64 0xA4 7 = none → s.poisoned (gloc j.desc) 64 = false →
    let d := s.read (gloc j.desc) 64
    let t := Stem.of (opcode j.frame) d
    Stem.fault s j.core t d t.bases = none →
    exec (.stemJobStart e) s = .next (s.setStem e { s.stem e with que := rest, run := some ⟨j, s.now, d⟩ }))) ∧
  (∀ (s : State) (e : Nat) (j : StemJob) (t0 : Nat) (d : List Byte), (s.stem e).run = some ⟨j, t0, d⟩ →
    let t := Stem.of (opcode j.frame) d
    let g := State.stemGroups (opcode j.frame) d
    (s.now < t0 + 40 + (g.1 - j.done) * g.2 → exec (.stemJobComplete e) s = .next s) ∧
    (t0 + 40 + (g.1 - j.done) * g.2 ≤ s.now →
      (∀ p, (t.touched.find? fun p => s.poisoned (gloc p.1) p.2) = some p →
        exec (.stemJobComplete e) s = .next (s.stemFault e j (faultOf 0xA7 7 p.1))) ∧
      ((∀ p ∈ t.touched, s.poisoned (gloc p.1) p.2 = false) →
        let w := (t.outputs s).foldl (fun (a : Nat × State) o =>
          let r := a.2.devWrite (gloc o.1) o.2.1
          (if a.1 = St.ok then r.1 else a.1, r.2)) (St.ok, s)
        let u := (w.2.setFlags j.core ((t.outputs s).foldl (fun b o => b ||| cvtBits o.2.2 flagVovf) 0)).setStem e { s.stem e with run := none }
        (w.1 ≠ St.ok → exec (.stemJobComplete e) s = .next (w.2.stemFault e j (remoteFault 7 0 w.1))) ∧
        (w.1 = St.ok → exec (.stemJobComplete e) s = .next (if bitOf j.frame 32 then { u with
            fresh := u.fresh + 1, sigs := u.sigs ++ [⟨u.fresh, .core j.core j.handle j.pc j.frame, .here j.core (fld j.frame 31 20), false, 1, [], u.now + 2⟩] }
          else u)))))

/-- CLIP_START of the ingest engine whose turn it is completes: the engine takes the next clip of the first batch that may go on, and fetches its descriptor; another engine's event changes nothing. CLIP_COMPLETE of a clip whose scan of its units has ended goes on to its outputs; of a clip whose outputs are all answered it completes: a clip that ended well before its deadline writes its record after its outputs and leaves its engine; one that failed, or that is at its deadline, first fills its area by writes that are awaited or gives it up, and then writes its record with its status, ST_TIMEOUT for one that is only late. While outputs are out, it changes nothing. Before its deadline CLIP_TIMEOUT changes nothing; at the deadline it completes: the clip ends with ST_TIMEOUT and its reads are dropped, or, when its outputs are on their way, it keeps an earlier failure. An event of an engine without a clip changes nothing. -/
def Obligations.ClipsStartEndAndTimeOut : Prop :=
  (∀ (s : State) (e k : Nat) (b : Batch) (a : Nat) (rest : List Nat), s.nextClip = some (b, k) → b.todo = a :: rest →
    (k ≠ e → exec (.clipStart e) s = .next s) ∧
    (k = e → ∃ t : State, exec (.clipStart e) s = .next t ∧ (t.igEngine e).run = some ⟨b.uid, a, [], s.now, s.ig.defTmo, none, 0, 3, [], false⟩ ∧
      t.ig.rot = (e + 1) % 8 ∧ t.ig.batches = s.ig.batches.map (fun x => if x.uid = b.uid then { x with todo := rest, live := x.live + 1 } else x) ∧
      t.cores = s.cores ∧ t.progs = s.progs)) ∧
  (∀ (s : State) (e : Nat), (s.igEngine e).run = none →
    exec (.clipComplete e) s = .next s ∧ exec (.clipTimeout e) s = .next s) ∧
  (∀ (s t : State) (e : Nat) (r : ClipRun) (st reason : Nat) (us : List (List Byte)), (s.igEngine e).run = some r → r.fin = none → r.desc ≠ [] →
    State.clipScan r.desc (2 * rd r.desc 0x10 4 + 2) s e = (some (st, reason, us), t) →
    exec (.clipComplete e) s = .next (t.clipRun e r st reason us)) ∧
  (∀ (s : State) (e : Nat) (r : ClipRun) (st reason dec out : Nat), (s.igEngine e).run = some r → r.fin = some (st, reason, dec, out) →
    let now := if st = St.ok ∧ r.began + r.tmo * 2400 ≤ s.now then St.timeout else st
    let pix := State.clipPix r.desc (s.clipUnits e r.desc)
    let ends (t : State) : State :=
      (t.clipRecord (rd r.desc 0x70 8) now reason dec (out - r.lost.eraseDups.length) e r.batch).clipGone e now dec pix
    (r.wait ≠ 0 → exec (.clipComplete e) s = .next s) ∧
    (r.wait = 0 → r.desc ≠ [] → now = St.ok ∨ r.fill = true → exec (.clipComplete e) s = .next (ends s)) ∧
    (r.wait = 0 → r.desc ≠ [] → clipOk r.desc = true → now ≠ St.ok → r.fill = false → ∀ n t, s.clipSpoil e r = (n, t) →
      (n = 0 → exec (.clipComplete e) s = .next (ends t)) ∧
      (n ≠ 0 → exec (.clipComplete e) s =
        .next (t.modClip e fun _ => { r with fin := some (now, reason, dec, out), wait := n, fill := true })))) ∧
  (∀ (s : State) (e : Nat) (r : ClipRun), (s.igEngine e).run = some r →
    (s.now < r.began + r.tmo * 2400 → exec (.clipTimeout e) s = .next s) ∧
    (r.began + r.tmo * 2400 ≤ s.now → r.fin = none →
      let t := s.dropConts fun c => match c with | .fetch (.clip n) _ => n == e | _ => false
      ∃ dec, exec (.clipTimeout e) s = .next (State.clipEnd { t with fresh := t.fresh + 1 } e
        { r with chn := State.clipChn r.desc (t.clipUnits e r.desc) } St.timeout 0 dec)) ∧
    (r.began + r.tmo * 2400 ≤ s.now → ∀ f, r.fin = some f → exec (.clipTimeout e) s = .next (State.clipClose
      (s.modClip e fun r => { r with fin := some (if f.1 = St.ok then St.timeout else f.1, f.2) }) e)))

/-- An atomic that is not held, whose channel does not pause and before which its unit has nothing is applied at its unit and taken off the queue. On clean memory outside regions and frozen ranges, FMIN and FMAX store the lesser or greater FP32 of memory and operand, SMIN and SMAX the lesser or greater signed 64-bit number, SWAP the operand, CAS the second operand when memory equals the first and nothing otherwise, and each answers the old value; every byte outside the target is as before. FADDC adds exactly; an XADD adds its exact addend to its element of an open region, and outside one is refused with ST_BAD_STATE. A target in a scratchpad or not aligned to its size is refused with ST_BAD_FIELD. An atomic behind another of its unit stays queued. An XADD whose window is switched out is held when fewer than 256 are. Where the slice of the region longest in a slot has passed and a region waits, the slot goes to the one that has waited longest, for a slice, and its held XADDs go on; before that, and where none waits, nothing changes. -/
def Obligations.AtomicsAreAppliedAtTheirUnits : Prop :=
  (∀ (s : State) (ix : Nat) (a : Atom), s.atoms[ix]? = some a →
    (a.held = true ∨ s.channelPaused a.op.addr = true → exec (.atomicApply ix) s = .next s) ∧
    (∀ b ∈ s.atoms.take ix, State.atomUnit b.op.addr = State.atomUnit a.op.addr → b.held = false → s.channelPaused b.op.addr = false →
      exec (.atomicApply ix) s = .next s) ∧
    (a.held = false → s.channelPaused a.op.addr = false → (∀ b ∈ s.atoms.take ix, State.atomUnit b.op.addr ≠ State.atomUnit a.op.addr) →
      (s.windowOut a.op = false → exec (.atomicApply ix) s = .next (
        let far := match a.src with | .fabric .. => true | _ => false
        let r := State.applyAtom { s with atoms := s.atoms.filter fun x => x.uid != a.uid } a.op a.uid far
        State.atomDone r.2.2 a r.1 r.2.1)) ∧
      (s.windowOut a.op = true → (s.atoms.filter fun b => b.held && State.atomUnit b.op.addr == State.atomUnit a.op.addr).length < 256 →
        exec (.atomicApply ix) s = .next { s with atoms := s.atoms.set ix { a with held := true } }))) ∧
  (∀ (s : State) (o : AtomOp) (bs : List (Byte × Bool)) (uid : Nat), o.op < 8 →
    let n := if o.op = 1 then 16 else if o.op = 2 ∨ o.op = 3 then 4 else 8
    let old := leNat (bs.map (·.1))
    let w := BitVec.ofNat 64 old
    let f (x : W64) : XF := dec32 (x.setWidth 32)
    (o.addr % n ≠ 0 ∨ (∃ c k, place o.addr = .spad c k ∧ s.inMap c = true ∧ k + n ≤ spillLo) → s.applyAtom o uid = (St.badField, 0, s)) ∧
    (o.addr % n = 0 → (∀ c k, place o.addr ≠ .spad c k) → s.readPiece o.addr n = (St.ok, bs) → s.inFrozen o.addr n = false →
      (o.op = 1 → s.regionAt o.addr = none → s.applyAtom o uid = (St.badState, 0, s)) ∧
      (o.op = 1 → ∀ key r, s.regionAt o.addr = some (key, r) → r.phase = 2 → (∀ b ∈ bs, b.2 = false) →
        let q := s.addElem key r ((o.addr - r.base) / 16) o.addend
        s.applyAtom o uid = (St.ok, q.1, q.2.countOp (State.atomUnit o.addr))) ∧
      (o.op ≠ 1 → s.inRegion o.addr n = true → s.applyAtom o uid = (St.badState, 0, s)) ∧
      (o.op ≠ 1 → s.inRegion o.addr n = false → (∃ b ∈ bs, b.2 = true) → s.applyAtom o uid = (St.poisoned, 0, s)) ∧
      (o.op ≠ 1 → s.inRegion o.addr n = false → (∀ b ∈ bs, b.2 = false) →
        let store (v : Nat) (r : W64) := (St.ok, r, (s.putAt o.addr (le n v)).countOp (State.atomUnit o.addr))
        (o.op = 2 → s.applyAtom o uid = store (enc32 (XF.min2 (f w) (f o.v1))).toNat w) ∧
        (o.op = 3 → s.applyAtom o uid = store (enc32 (XF.max2 (f w) (f o.v1))).toNat w) ∧
        (o.op = 4 → s.applyAtom o uid = store (if o.v1.toInt < w.toInt then o.v1 else w).toNat w) ∧
        (o.op = 5 → s.applyAtom o uid = store (if w.toInt < o.v1.toInt then o.v1 else w).toNat w) ∧
        (o.op = 6 → s.applyAtom o uid = store o.v1.toNat w) ∧
        (o.op = 7 → s.applyAtom o uid = store (if w = o.v1 then o.v2 else w).toNat w) ∧
        (o.op = 0 → ∃ r, s.applyAtom o uid = store ((Pair.add ⟨w.setWidth 32, w.extractLsb' 32 32⟩ (enc32 o.addend)).1.s.toNat +
          2 ^ 32 * (Pair.add ⟨w.setWidth 32, w.extractLsb' 32 32⟩ (enc32 o.addend)).1.c.toNat) r ∧
          (r = 1 ↔ (Pair.add ⟨w.setWidth 32, w.extractLsb' 32 32⟩ (enc32 o.addend)).2 = true))))) ∧
  (∀ (s : State) (a : Nat) (bs : List Byte), (∀ h c, s.site a bs.length ≠ .saved h c) → BytesOutside s (s.putAt a bs) a bs.length ∧
    (s.putAt a bs).mem.read a bs.length = bs) ∧
  (∀ (s : State) (u : Nat),
    ((s.xunit u).slots = [] ∨ (s.xunit u).wait = [] → exec (.windowSlotSwitch u) s = .next s) ∧
    (∀ out rest inn more, (s.xunit u).slots = out :: rest → (s.xunit u).wait = inn :: more →
      (s.now < SMap.getD (s.xunit u).due out 0 → exec (.windowSlotSwitch u) s = .next s) ∧
      (SMap.getD (s.xunit u).due out 0 ≤ s.now → exec (.windowSlotSwitch u) s = .next (State.unhold (s.setXunit u { s.xunit u with
        slots := rest ++ [inn], wait := more ++ [out]
        due := SMap.put (SMap.del (s.xunit u).due out) inn (s.now + s.slice * 2400) }) inn u))))

/-- A channel pauses when no other of its controller does, and nothing changes otherwise; while it pauses an atomic to it is not applied. A pause ends at its event, and the longest pause of the controller, in units of 10 ns and of at most 2 us, is kept. A corrected error that the scrubber finds in LPDDR5X is counted at the controller and logged with code 1; an uncorrectable one poisons its granule, counts, keeps its address and is logged with code 2, once per granule; memory's bytes stay as they are. -/
def Obligations.MemoryControllersPauseAndScrub : Prop :=
  (∀ (s : State) (ch : Nat) (b : Bool),
    (ch < 96 → (∀ p ∈ s.paused, p.1 % 12 ≠ ch % 12) → exec (.recalibrationPause ch b) s = .next { s with paused := SMap.put s.paused ch s.now } ∧
      ∀ a, (place a = .lp ∨ place a = .fw) → a / 256 % 96 = ch → State.channelPaused { s with paused := SMap.put s.paused ch s.now } a = true) ∧
    (96 ≤ ch ∨ (∃ p ∈ s.paused, p.1 % 12 = ch % 12) → exec (.recalibrationPause ch b) s = .next s)) ∧
  (∀ (s : State) (ch : Nat),
    (SMap.get? s.paused ch = none → exec (.recalibrationPauseEnd ch) s = .next s) ∧
    (∀ t, SMap.get? s.paused ch = some t → ∃ u : State, exec (.recalibrationPauseEnd ch) s = .next u ∧ SMap.get? u.paused ch = none ∧
      (u.mc (ch % 12)).longest.toNat = max (s.mc (ch % 12)).longest.toNat (min ((s.now - t) / 24) 200) ∧
      (u.mc (ch % 12)).ce = (s.mc (ch % 12)).ce ∧ (u.mc (ch % 12)).ue = (s.mc (ch % 12)).ue ∧ u.mem = s.mem ∧ u.cores = s.cores)) ∧
  (∀ (s : State) (a : Nat), a < fwEnd →
    let k := a / 256 % 12
    let g := a / 64 * 64
    (exec (.patrolScrub a 1) s = .next ((s.setMc k { s.mc k with ce := (s.mc k).ce + 1 }).logErr k 1 (BitVec.ofNat 64 a))) ∧
    (s.mem.granPois g = true → exec (.patrolScrub a 2) s = .next s) ∧
    (s.mem.granPois g = false → ∃ t : State, exec (.patrolScrub a 2) s = .next (t.logErr k 2 (BitVec.ofNat 64 g) St.poisoned) ∧
      t.mem.granPois g = true ∧ (∀ b, t.mem.byte b = s.mem.byte b) ∧ (∀ h, h ≠ g → t.mem.granPois h = s.mem.granPois h) ∧
      (t.mc k).ue = (s.mc k).ue + 1 ∧ (t.mc k).ueAddr = BitVec.ofNat 64 g ∧ (t.mc k).ce = (s.mc k).ce ∧ t.cores = s.cores))

/-- The rows COPY, FILL, SAVE, LOAD, KVFETCH, INGEST, REDADD, XWOPEN, XWCLOSE, WAITFLAG, GOP, BUCKET, NORM and FOLD complete: whenever the stream may run and it is its turn, a running descriptor of the row's type that has not come to its end does its next piece, and the next descriptor of a stream without a running one, while its class engine runs fewer than 16, starts and does its first piece, or ends with ST_BAD_FIELD and does nothing when its class does not accept its type, its header breaks its rules or a field is out of range; the pointer of the engine goes past the stream. The row of a stream that does not exist, that may not run or whose turn it is not changes nothing; so does a row whose type the running or the next descriptor has not. -/
def Obligations.DescriptorsRunPieceByPiece : Prop :=
  ∀ (s : State) (st : Nat) (row : DescRow), row ∈ descRows st →
    (s.stream? st = none → exec row.row s = .next s) ∧
    ∀ x, s.stream? st = some x →
      (s.ready st x = false ∨ s.turnOf st x = false → exec row.row s = .next s) ∧
      (s.ready st x = true → s.turnOf st x = true → ∀ r, x.run = some r →
        (rd r.desc 0 1 ≠ row.ty ∨ r.fin = true → exec row.row s = .next s) ∧
        (rd r.desc 0 1 = row.ty → r.fin = false → exec row.row s = .next (row.piece (s.granted st x) st))) ∧
      (s.ready st x = true → s.turnOf st x = true → x.run = none → x.queue = [] → exec row.row s = .next s) ∧
      (s.ready st x = true → s.turnOf st x = true → x.run = none → ∀ d rest, x.queue = d :: rest →
        let t := (s.granted st x).setStream st { x with run := some (runOf d s.now), queue := rest }
        let ok := State.typeClass row.ty x.cls && State.headerOk d.desc && row.check t x d.desc
        (rd d.desc 0 1 ≠ row.ty ∨ 16 ≤ s.runsOf st x → exec row.row s = .next s) ∧
        (rd d.desc 0 1 = row.ty → s.runsOf st x < 16 → ok = false → exec row.row s = .next (t.finish st St.badField)) ∧
        (rd d.desc 0 1 = row.ty → s.runsOf st x < 16 → ok = true → exec row.row s = .next (
          match ((row.begins t st).stream? st).bind (·.run) with
          | some r => if r.fin then row.begins t st else row.piece (row.begins t st) st
          | none => row.begins t st)))

/-- A running WAITFLAG completes with ST_OK and the flag's value once the flag has come to its value, counted modulo 2^32, and waits otherwise; its timeout completes it with ST_TIMEOUT and the value read. A running XWOPEN whose area keeps the rules and does not touch a frozen range completes: it opens the region with its shadow words zero and ends with ST_OK; one that breaks the rules ends with ST_BAD_FIELD and changes nothing else. A running XWCLOSE of a region that is not open ends with ST_BAD_FIELD; one of an open region completes and takes the region away. A descriptor that has ended, whose writes are answered, whose result stands and whose flag is signalled leaves its stream: the stream counts it, keeps its status, and stops when it failed with stop-on-error. The expiry of the slice of a busy stream that is at a piece boundary completes: the stream is saved and waits from now on, and the saved stream of its slice that has waited longest comes in; it changes nothing before the slice has passed, inside a piece, or where no stream of the slice waits. -/
def Obligations.FlagsRegionsAndRetiringDescriptors : Prop :=
  ∀ (s : State) (st : Nat) (x : Stream), s.stream? st = some x →
    (s.ready st x = true → s.turnOf st x = true → ∀ r, x.run = some r → r.fin = false →
      let s' := s.granted st x
      (rd r.desc 0 1 = 0xA →
        let v := s.waitValue x r.desc
        (0 ≤ (v - BitVec.ofNat 32 (rd r.desc 0x14 4)).toInt →
          exec (.waitflag st) s = .next ((s.modRun st fun q => { q with pieces := 1, value := v.toNat }).finish st St.ok)) ∧
        ((v - BitVec.ofNat 32 (rd r.desc 0x14 4)).toInt < 0 → exec (.waitflag st) s = .next s)) ∧
      (rd r.desc 0 1 = 8 →
        let base := rd r.desc 0x10 8
        let shadow := rd r.desc 0x18 8
        let count := rd r.desc 0x20 4
        let bad := s'.regionBad base shadow count (rdS r.desc 0x24 2)
        (bad ≠ none → exec (.xwopen st) s = .next (s'.finish st St.badField)) ∧
        (bad = none → 4096 ≤ s.regions.length → exec (.xwopen st) s = .next (s'.finish st St.badState)) ∧
        (bad = none → s.regions.length < 4096 → s.inFrozen shadow (8 * count) = false →
          ∃ t : State, exec (.xwopen st) s = .next t ∧ ∃ g, SMap.get? t.regions base = some g ∧
          g.phase = 2 ∧ g.count = count ∧ g.shadow = shadow ∧ g.eb = rdS r.desc 0x24 2 ∧ g.elems = [] ∧ g.adds = 0 ∧
          (s.site shadow (8 * count) = .mem → ∀ b, shadow ≤ b → b < shadow + 8 * count → t.mem.byte b = 0))) ∧
      (rd r.desc 0 1 = 9 →
        let base := rd r.desc 0x10 8
        (SMap.get? s.regions base = none → exec (.xwclose st) s = .next (s'.finish st St.badField)) ∧
        (∀ g, SMap.get? s.regions base = some g → g.phase ≠ 2 → exec (.xwclose st) s = .next (s'.finish st St.badState)) ∧
        (∀ g, SMap.get? s.regions base = some g → g.phase = 2 → exec (.xwclose st) s = .next
          (State.finish (State.modRun (s'.closeRegion base).2.2 st fun q => { q with pieces := 1, value := (s'.closeRegion base).2.1 }) st
            (s'.closeRegion base).1)))) ∧
    (∀ r, x.run = some r →
      (rd r.desc 0 1 ≠ 0xA ∨ r.fin = true ∨ rd r.desc 0x18 4 = 0 ∨ s.now < r.began + rd r.desc 0x18 4 * 2400 →
        exec (.waitflagTimeout st) s = .next s) ∧
      (rd r.desc 0 1 = 0xA → r.fin = false → rd r.desc 0x18 4 ≠ 0 → r.began + rd r.desc 0x18 4 * 2400 ≤ s.now →
        (s.waitValue x r.desc - BitVec.ofNat 32 (rd r.desc 0x14 4)).toInt < 0 → exec (.waitflagTimeout st) s =
          .next ((s.modRun st fun q => { q with value := (s.waitValue x r.desc).toNat }).finish st St.timeout)) ∧
      (r.fin = false ∨ r.wait ≠ 0 ∨ x.paused = true → exec (.descriptorComplete st) s = .next s) ∧
      (r.fin = true → r.wait = 0 → x.paused = false → r.res = 4 ∨ (r.res = 3 ∧ s.alive r.aux = false) →
        exec (.descriptorComplete st) s = .next (s.retire st x r)) ∧
      (r.status = St.ok → State.Stream.idle { x with run := none } = false → s.retire st x r = State.deliver s.sposts.length
        (s.setStream st { x with run := none, done := x.done + 1, last := St.ok, stopped := false })) ∧
      (r.status ≠ St.ok → r.struck = false → rd r.desc 1 1 / 2 % 2 = 1 → ∀ p, x.owner = .partner p →
        State.Stream.idle { x with run := none, stopped := true } = false → s.retire st x r = State.deliver s.sposts.length
        ((s.setStream st { x with run := none, done := x.done + 1, last := r.status, stopped := true }).event 3 r.status
          (BitVec.ofNat 64 st) (BitVec.ofNat 64 (portNo p))))) ∧
    (s.ready st x = true → State.Stream.idle x = false → s.midPiece st = false → x.due ≤ s.now →
      (∃ n y, (n, y) ∈ s.streams ∧ n % 16 = st % 16 ∧ y.saved = true) →
      exec (.streamSliceExpiry st) s = .next (State.bringIn (s.setStream st { x with saved := true, due := s.now }) (st % 16))) ∧
    (s.ready st x = false ∨ State.Stream.idle x = true ∨ s.midPiece st = true ∨ s.now < x.due ∨
      (∀ n y, (n, y) ∈ s.streams → n % 16 = st % 16 → y.saved = false) → exec (.streamSliceExpiry st) s = .next s)

/-- A bucket that has not filled, whose step runs, that needs a BUCKET step and has none, whose turn on its ring has not come, or that waits for the NORM step, does not start. Otherwise a bucket without norms starts and its BUCKET_START completes: its fill state clears and its step count rises by one. A poisoned area ends the step with ST_POISONED. A dense bucket of a ring of one writes the results of its own contributions; a dense bucket of a longer ring sends the segments of its first shard; a sparse bucket sends the elements whose exponent field is at least the threshold. The threshold is the smallest number from 1 to 256 that at most E / 2^k elements reach. -/
def Obligations.BucketStepsStart : Prop :=
  (∀ (s : State) (b : Nat), (s.bucket? b = none → exec (.bucketStart b) s = .next s) ∧ ∀ x, s.bucket? b = some x →
    (x.full = false ∨ x.run.isSome = true ∨ (x.df.auto = false ∧ x.go = none) ∨ s.turn b x = false ∨ s.normReady x = false →
      exec (.bucketStart b) s = .next s) ∧
    (x.full = true → x.run = none → (x.df.auto = true ∨ x.go ≠ none) → s.turn b x = true → x.df.norm = false →
      s.fetch? (.bucket b) = none →
      let spans := (List.range x.df.nspan).map fun k => (rd ([] : List Byte) (8 * k) 4, rd ([] : List Byte) (8 * k + 4) 2)
      let run : BucketRun := {
        step := x.steps, phase := 1, q := [], wide := false, side := 0, sent := 0, xt := 0, adds := 0, arrT := 0, arrSeg := 0,
        final := [], spans := spans, status := St.ok, path := if x.df.dens = 0 then 0 else 3, wrote := false,
        st := x.go.getD none, began := s.now }
      let t := State.ringTouch (State.setBucket (s.dropFetch (.bucket b)) b
        { x with full := false, go := none, steps := x.steps + 1, run := some run }) x.df.ring
      (t.contributions x.df = none → exec (.bucketStart b) s = .next (t.stepFail b St.poisoned)) ∧
      (∀ as', t.contributions x.df = some as' → x.df.dens = 0 →
        let u := State.modBRun (t.storeResiduals x.df as' 0) b fun r => { r with q := as', xt := 0, sent := 0 }
        (x.df.n = 1 → exec (.bucketStart b) s = .next (u.shardDone b (as'.map fun a => partZero.add x.df.ew a 1))) ∧
        (x.df.n ≠ 1 → exec (.bucketStart b) s = .next (State.skipEmpty x.df.n (u.sendOwn b) b))) ∧
      (∀ as', t.contributions x.df = some as' → x.df.dens ≠ 0 →
        let xt := State.threshold x.df.elems x.df.dens as'
        let sent : XF → Bool := fun a => decide (xt ≤ fld (enc32 a) 30 23)
        let u := State.modBRun (t.storeResiduals x.df as' xt) b fun r => { r with q := as', xt := xt, sent := (as'.filter sent).length }
        exec (.bucketStart b) s = .next (State.sparseAdvance
          (as'.zipIdx.foldl (fun (v : State) (a : XF × Nat) => if sent a.1 then v.sendSparse b a.2 a.1 else v) u) b)))) ∧
  (∀ (e k : Nat) (as' : List XF),
    let field : XF → Nat := fun a => fld (enc32 a) 30 23
    let reach : Nat → Nat := fun x => ((as'.map field).filter fun f => decide (x ≤ f)).length
    let xt := State.threshold e k as'
    1 ≤ xt ∧ xt ≤ 256 ∧ reach xt ≤ e / 2 ^ k ∧ ∀ x, 1 ≤ x → x < xt → e / 2 ^ k < reach x)

/-- A wide segment holds, for each element, the sixteen bytes of the element and the eight bytes of its shadow word: what a receiver reads from it is what was sent. A narrow segment whose elements are finite and fit their fields carries each partial sum exactly. -/
def Obligations.SegmentsCarryTheirParts : Prop :=
  ∀ (b ring step shard hop ix : Nat) (ew : Int) (ps : List Part), ps.length ≤ 1024 → ring < 256 →
    ((∀ p ∈ ps, p.elem < 2 ^ 128 ∧ p.shad < 2 ^ 64 ∧ p.esc = false) →
      segParts (segment b ring step shard hop ix ew true ps) ps.length = ps) ∧
    ((∀ p ∈ ps, p.esc = false ∧ p.acc.sum.natAbs ≤ 8388607) →
      (segParts (segment b ring step shard hop ix ew false ps) ps.length).map (fun p => p.acc.sum) = ps.map fun p => p.acc.sum)

/-- The events SEGMENT_ARRIVAL, SPARSE_CLOSE, RING_TIMEOUT and BUCKET_STEP_COMPLETE complete, each with the state that follows. A slot whose SEQ is not the number expected, or that comes when no dense step waits for a segment, is left alone. A slot with a poisoned header ends the step with ST_POISONED, and one whose bucket, step, shard, segment or exponent is not the one expected ends it with ST_BAD_STATE. A good slot is taken: the next number is expected, the predecessor is told how many were consumed, and each element is the arriving partial sum with the device's own contribution; the last shard's sums complete the shard, the others are sent on. A sparse close waits for every arrival word; a wait of RTMO ends the step with ST_TIMEOUT. A step that has ended badly, or whose work is sent and written, completes: its path, side entries and threshold are recorded, and its result, flag and descriptor follow. -/
def Obligations.RingsTakeSegmentsAndTimeOut : Prop :=
  ∀ (s : State) (r : Nat) (g : Ring) (b : Nat) (x : Bucket) (q : BucketRun), s.ring? r = some g → s.reducing r = some (b, x) →
    x.run = some q → s.bucket? b = some x → x.df.ring = r →
    (let slot := g.inbox + 64 + g.rxSeq % 8 * 24640
     let hd := s.read slot 64
     let sh := (g.pos + 2 * g.n - 2 - q.arrT) % g.n
     let n := x.df.segLen sh q.arrSeg
     let waits := q.phase = 1 ∧ x.df.dens = 0 ∧ q.arrT + 1 < g.n ∧ leNat (s.read (slot + 0x18) 4) = g.rxSeq
     let fits := rd hd 0 2 = b ∧ rd hd 4 4 = q.step % 2 ^ 32 ∧ rd hd 8 2 = sh ∧ rd hd 0xC 4 = q.arrSeg ∧ rdS hd 0x14 2 = x.df.ew
     (¬ waits → exec (.segmentArrival r) s = .next s) ∧
     (waits → s.poisoned slot 64 = true → exec (.segmentArrival r) s = .next (s.stepFail b St.poisoned)) ∧
     (waits → s.poisoned slot 64 = false → ¬ fits → exec (.segmentArrival r) s = .next (s.stepFail b St.badState)) ∧
     (waits → s.poisoned slot 64 = false → fits → s.poisoned slot (segBytes hd) = true →
       exec (.segmentArrival r) s = .next (s.stepFail b St.poisoned)) ∧
     (waits → s.poisoned slot 64 = false → fits → s.poisoned slot (segBytes hd) = false →
       let seq := (g.rxSeq + 1) % 2 ^ 32
       let ps := (segParts (s.read slot (segBytes hd)) n).take n
       let xs := (q.q.drop (x.df.shardLo sh + 1024 * q.arrSeg)).take n
       let out := (ps.zip xs).map fun p => p.1.add x.df.ew p.2 (q.arrT + 2)
       let wideIn := rd hd 3 1 % 2 == 1
       let took := (State.gWrite (s.setRing r { g with rxSeq := seq, lastOk := s.now })
         (State.ringDev g (g.pos + g.n - 1) * 2 ^ 48 + g.inbox) ((le 8 seq).map fun b => (b, false)) 2 none .drop).2.2
       let last := decide (q.arrT + 2 = g.n)
       let t := took.modBRun b fun q => { q with
         arrSeg := q.arrSeg + 1, path := max q.path (if wideIn then 2 else if ps.any (·.esc) then 1 else 0),
         wide := q.wide || (wideIn && !last), final := if last then q.final ++ out else q.final }
       let t := if last then t else t.emitSegment b sh (q.arrT + 2) q.arrSeg ps out xs
       let u := t.modBRun b fun q => { q with arrT := q.arrT + 1, arrSeg := 0 }
       (q.arrSeg + 1 < x.df.segs sh → exec (.segmentArrival r) s = .next t) ∧
       (x.df.segs sh ≤ q.arrSeg + 1 → exec (.segmentArrival r) s =
         .next (if last then u.shardDone b (q.final ++ out) else State.skipEmpty g.n u b)))) ∧
    (x.df.dens = 0 ∨ (q.phase = 2 ∧ s.arrived g x.df q.step = false) → exec (.sparseClose b) s = .next s) ∧
    (q.phase = 2 → x.df.dens ≠ 0 → s.arrived g x.df q.step = true → SMap.get? s.regions (x.df.sparse (q.step % 2)) = none →
      exec (.sparseClose b) s = .next (s.stepFail b St.badState)) ∧
    (q.phase = 2 → x.df.dens ≠ 0 → s.arrived g x.df q.step = true → ∀ z, SMap.get? s.regions (x.df.sparse (q.step % 2)) = some z →
      let key := x.df.sparse (q.step % 2)
      let len := x.df.shardLen g.pos
      let closed := (s.closeRegion key).2.2
      let vals := (List.range len).map fun i => (Xw.dec (leNat (closed.read (key + 16 * i) 16))).value x.df.ew
      let t := State.ringTouch (State.finishOpen (State.beginOpen (closed.zeroAt key (16 * z.count)) key z.shadow z.count z.eb) key) r
      exec (.sparseClose b) s = .next (
        if s.poisoned key (16 * len) then t.stepFail b St.poisoned
        else if z.elems.any fun e => decide (e.1 < len) && e.2.finite && e.2.exceeded then t.floatBegin b
        else t.writeShard b (vals.map fun v => (v, (enc32 v).toNat)))) ∧
    (s.now < g.lastOk + g.rtmo * 2400000 ∨ (q.phase ≠ 1 ∧ q.phase ≠ 2 ∧ g.queue = []) → exec (.ringTimeout r) s = .next s) ∧
    (g.lastOk + g.rtmo * 2400000 ≤ s.now → (q.phase = 1 ∨ q.phase = 2 ∨ g.queue ≠ []) →
      exec (.ringTimeout r) s = .next (s.stepFail b St.timeout)) ∧
    (q.phase = 1 ∨ q.phase = 2 ∨ (q.phase = 4 ∧ q.status = St.ok ∧ s.bucketQuiet x q = false) →
      exec (.bucketStepComplete b) s = .next s) ∧
    (q.phase = 4 → q.status ≠ St.ok ∨ s.bucketQuiet x q = true →
      let value := q.path + q.side % 2 ^ 28 * 16 + q.xt * 2 ^ 32
      let t := if q.status = St.ok then s else s.forget x.df.result (x.df.result + 4 * x.df.shardLen g.pos)
      let t := (t.setBucket b { x with
        run := none, lastPath := q.path, lastStatus := q.status, lastSide := q.side, lastSent := BitVec.ofNat 64 q.sent }).modRing r
        fun g => { g with order := b + 1 }
      let t := if x.df.bres = 0 then t else (t.devWrite x.df.bres (State.resultBytes q.status (q.step + 1) value)).2
      let t := if bitOf x.df.donef 31 then
        (t.signal .dev (.here (fld x.df.donef 23 12) (fld x.df.donef 11 0)) false 1 []).2 else t
      exec (.bucketStepComplete b) s = .next (match q.st with
        | some st => (t.modRun st fun d => { d with value := value, pieces := 1 }).finish st q.status
        | none => t))

/-- The events PHASE_START, PHASE_COMPLETE and PHASE_TIMEOUT complete, each with the state that follows. A phase starts only when it is ready and no phase of a lower number is. It is then stamped and live: a program phase starts its program with the step as argument, a global-operation phase starts its operation, and a program that cannot start, or a busy tree, fails the phase with ST_BAD_STATE. A live program phase completes when its program is HALTED and fails with ST_ABORTED when it is ABORTED; a global operation completes its phase with ST_OK and fails it with any other status; a phase that is not live is left alone. A phase that is still live at its timeout has its work stopped and fails with ST_TIMEOUT. Completing a phase takes it to the next step; the first failure of a run stands. -/
def Obligations.PhasesStartCompleteAndTimeOut : Prop :=
  ∀ (s : State) (sp ph : Nat), (s.stepProg sp = none → exec (.phaseStart sp ph) s = .next s ∧ exec (.phaseComplete sp ph) s = .next s ∧
      exec (.phaseTimeout sp ph) s = .next s) ∧
    ∀ x r d p, s.stepProg sp = some x → x.run = some r → x.phases[ph]? = some d → r.phases[ph]? = some p →
      (State.phaseReady x r ph = false ∨ (∃ j, j < ph ∧ State.phaseReady x r j = true) → exec (.phaseStart sp ph) s = .next s) ∧
      (State.phaseReady x r ph = true → (∀ j, j < ph → State.phaseReady x r j = false) →
        let t := State.stampPhase (s.modPhase sp ph fun p => { p with live := true, since := s.now, todo := none, res := none }) d 0 p.next
        (d.kind = 0 → ∀ g, s.prog d.handle = some g → g.st ∈ [2, 5, 6, 7] → s.placeStands g = true →
          exec (.phaseStart sp ph) s = .next (t.startProg d.handle g (BitVec.ofNat 64 p.next))) ∧
        (d.kind = 0 → ∀ g, s.prog d.handle = some g → g.st ∉ [2, 5, 6, 7] → exec (.phaseStart sp ph) s =
          .next (t.phaseFail sp ph p.next St.badState)) ∧
        (d.kind = 1 → ∀ y, s.stream? d.stream = some y → y.owner = .partner r.port → y.stopped = false → y.long = none →
          exec (.phaseStart sp ph) s = .next (State.phaseFeed (t.fetchNew (.phase sp ph) [(d.list, 64 * d.count)] 3 none) sp ph)) ∧
        (d.kind = 1 → ∀ y, s.stream? d.stream = some y → y.stopped = true → exec (.phaseStart sp ph) s =
          .next (t.phaseFail sp ph p.next St.badState)) ∧
        (d.kind = 2 → s.gopFree d.tree = true → exec (.phaseStart sp ph) s =
          .next (t.gopStart d.tree d.gkind 0 (some (State.phaseStream sp ph)) [] 0)) ∧
        (d.kind = 2 → s.gopFree d.tree = false → exec (.phaseStart sp ph) s = .next (t.phaseFail sp ph p.next St.badState))) ∧
      (p.live = false → exec (.phaseComplete sp ph) s = .next s ∧ exec (.phaseTimeout sp ph) s = .next s) ∧
      (p.live = true → d.kind = 0 → ∀ g, s.prog d.handle = some g →
        (g.st = 5 → exec (.phaseComplete sp ph) s = .next (s.phaseDone sp ph p.next d)) ∧
        (g.st = 7 → exec (.phaseComplete sp ph) s = .next (s.phaseFail sp ph p.next St.aborted)) ∧
        (g.st ≠ 5 → g.st ≠ 6 → g.st ≠ 7 → exec (.phaseComplete sp ph) s = .next s) ∧
        (g.st ≠ 5 → g.st ≠ 6 → g.st ≠ 7 → d.tmo ≠ 0 → p.since + d.tmo * 2400 ≤ s.now → exec (.phaseTimeout sp ph) s =
          .next (State.phaseFail (s.stopProgram d.handle 7) sp ph p.next St.timeout)) ∧
        (g.st ≠ 5 → g.st ≠ 6 → g.st ≠ 7 → d.tmo = 0 ∨ s.now < p.since + d.tmo * 2400 →
          exec (.phaseTimeout sp ph) s = .next s)) ∧
      (p.live = true → d.kind = 2 →
        (p.res = none → exec (.phaseComplete sp ph) s = .next s) ∧
        (p.res = some St.ok → exec (.phaseComplete sp ph) s = .next (s.phaseDone sp ph p.next d)) ∧
        (∀ e, p.res = some e → e ≠ St.ok → exec (.phaseComplete sp ph) s = .next (s.phaseFail sp ph p.next e))) ∧
      (p.live = true → d.kind = 1 → ∀ y, p.todo = some [] → s.stream? d.stream = some y →
        (y.stopped = true → exec (.phaseComplete sp ph) s = .next (s.phaseFail sp ph p.next y.last)) ∧
        (y.stopped = false → State.Stream.idle y = true → exec (.phaseComplete sp ph) s = .next (s.phaseDone sp ph p.next d)) ∧
        (y.stopped = false → State.Stream.idle y = false → exec (.phaseComplete sp ph) s = .next s)) ∧
      (∀ k e, r.fail = none → (r.phases.any fun q => q.live && q != p) = true → ∀ z u, (s.phaseFail sp ph k e).stepProg sp = some z →
        z.run = some u → u.fail = some (e, ph, k))

/-- The events PHASE_STAMP and STRAGGLER complete, each with the state that follows. A stamp of a step below the open record's, or at most the last logged one's when no record is open, is counted and changes no record. A stamp of the open record's step is combined into it; the record is logged when its end stamps reach EXPECT. A stamp of a later step first logs the open record as incomplete and opens a new one. A mark is logged at once and leaves the open record. A record with a begin stamp becomes a straggler once, when fabric time reaches its first begin plus THR, which is reported in PH_EVT and PH_LAST and by a training event. -/
def Obligations.StampsMakeRecordsAndStragglers : Prop :=
  (∀ (s : State) (ix : Nat), s.tr.stamps[ix]? = none → exec (.phaseStamp ix) s = .next s) ∧
  (∀ (s : State) (ix : Nat) (m : Stamp), s.tr.stamps[ix]? = some m →
    let t : State := { s with
      tr := { s.tr with stamps := s.tr.stamps.eraseIdx ix } }
    let x := s.phId m.phid
    let late : State := { t with
      tr := { t.tr with late := t.tr.late + 1 } }
    (m.edge = 2 → ∃ u : State, exec (.phaseStamp ix) s = .next u ∧ u.phId m.phid = x ∧ u.tr.late = s.tr.late) ∧
    (m.edge ≠ 2 → x.rcd = none → (∃ l, x.logged = some l ∧ m.step.toNat ≤ l.toNat) → exec (.phaseStamp ix) s = .next late) ∧
    (m.edge ≠ 2 → ∀ r, x.rcd = some r → m.step.toNat < r.step.toNat → exec (.phaseStamp ix) s = .next late) ∧
    (m.edge ≠ 2 → ∀ r, x.rcd = some r → m.step = r.step → (State.PhRec.take r m).nend < x.expect → exec (.phaseStamp ix) s =
      .next (t.setPhId m.phid { x with rcd := some (State.PhRec.take r m) })) ∧
    (m.edge ≠ 2 → ∀ r, x.rcd = some r → m.step = r.step → x.expect ≤ (State.PhRec.take r m).nend →
      ∃ u : State, exec (.phaseStamp ix) s = .next u ∧ u.phId m.phid = { x with rcd := none, logged := some r.step }) ∧
    (m.edge ≠ 2 → x.rcd = none → (∀ l, x.logged = some l → l.toNat < m.step.toNat) →
      (State.PhRec.take (State.PhRec.new m.step) m).nend < x.expect → exec (.phaseStamp ix) s =
        .next (t.setPhId m.phid { x with rcd := some (State.PhRec.take (State.PhRec.new m.step) m) })) ∧
    (m.edge ≠ 2 → ∀ r, x.rcd = some r → r.step.toNat < m.step.toNat → ∃ u : State, exec (.phaseStamp ix) s = .next u ∧
      ((State.PhRec.take (State.PhRec.new m.step) m).nend < x.expect → u.phId m.phid = ⟨some (State.PhRec.take (State.PhRec.new m.step) m), some r.step, x.expect, x.thr⟩) ∧
      (x.expect ≤ (State.PhRec.take (State.PhRec.new m.step) m).nend → u.phId m.phid = ⟨none, some m.step, x.expect, x.thr⟩))) ∧
  (∀ (s : State) (phid : Nat),
    (∀ r, (s.phId phid).rcd = some r →
      ((s.phId phid).thr = 0 ∨ r.nbegin = 0 ∨ r.strag = true ∨ s.ftime.toNat < r.first.toNat + (s.phId phid).thr.toNat →
        exec (.straggler phid) s = .next s) ∧
      ((s.phId phid).thr ≠ 0 → r.nbegin ≠ 0 → r.strag = false → r.first.toNat + (s.phId phid).thr.toNat ≤ s.ftime.toNat →
        ∃ u : State, exec (.straggler phid) s = .next u ∧ (u.phId phid).rcd = some { r with strag := true } ∧ u.tr.evtStrag = true ∧
          u.tr.lastPhid = BitVec.ofNat 8 phid ∧ u.tr.lastStep = r.step.setWidth 24 ∧ exec (.straggler phid) u = .next u)) ∧
    ((s.phId phid).rcd = none → exec (.straggler phid) s = .next s))

/-- A staged item replaces the staged item of its object, or is added; a full stage refuses a further one. At a commit point without waiting commits nothing changes. A commit based on another generation is refused with ST_CONFLICT and leaves the stage; an empty stage is committed without effect; a stage one of whose items fails its check is refused with that item's index and status, and nothing of it applies. Otherwise every item applies, in order, the generation rises by one (never to 0xFFFF_FFFF), the stage is emptied, the commit is answered with the new generation and the number of items, and an event reports it. -/
def Obligations.CommitsApplyStagesWhole : Prop :=
  (∀ (l : List Item) (x : Item),
    ((∃ y ∈ l, y.object = x.object) → stageItem l x = some (l.map fun y => if y.object == x.object then x else y)) ∧
    ((∀ y ∈ l, y.object ≠ x.object) → l.length < 8192 → stageItem l x = some (l ++ [x])) ∧
    ((∀ y ∈ l, y.object ≠ x.object) → 8192 ≤ l.length → stageItem l x = none)) ∧
  (∀ g : W32, State.nextGen g ≠ 0xFFFFFFFF ∧ (g.toNat + 1 < 0xFFFFFFFF → (State.nextGen g).toNat = g.toNat + 1)) ∧
  (∀ s : State, s.dc.commits = [] → exec .commitPoint s = .next s) ∧
  (∀ (s : State) (p : Port) (tag base : W32), s.dc.commits = [(p, tag, base)] →
    let t : State := { s with
      dc := { s.dc with commits := [] } }
    let g := s.dc.gen
    let stage := (s.box p).stage
    (base ≠ 0xFFFFFFFF → base ≠ g → exec .commitPoint s = .next (t.respond p tag St.conflict (State.commitBytes g 0 0xFFFF) 0 0)) ∧
    (base = 0xFFFFFFFF ∨ base = g → stage = [] → exec .commitPoint s = .next (t.respond p tag St.ok (State.commitBytes g 0 0xFFFF) 0 0)) ∧
    (base = 0xFFFFFFFF ∨ base = g → stage ≠ [] → ∀ i e, State.commitItems stage 0 stage t = .error (i, e) →
      exec .commitPoint s = .next (t.respond p tag e (State.commitBytes g 0 i) 0 0)) ∧
    (base = 0xFFFFFFFF ∨ base = g → stage ≠ [] → ∀ u, State.commitItems stage 0 stage t = .ok u →
      let v := u.takeTables
      let v : State := { v with
        dc := { v.dc with gen := State.nextGen g, lastPort := portNo p, lastTime := v.ftime } }
      let v := v.setBox p { v.box p with stage := [] }
      exec .commitPoint s = .next (State.respond (v.event 8 0 ((State.nextGen g).setWidth 64) (BitVec.ofNat 64 (portNo p))) p tag St.ok
        (State.commitBytes (State.nextGen g) stage.length 0xFFFF) 0 0))) ∧
  (∀ (all : List Item) (xs : List Item) (n : Nat) (s u : State), State.commitItems all n xs s = .ok u →
    u = xs.foldl (fun t x => t.itemApply x) s) ∧
  (∀ (all : List Item) (xs : List Item) (n i e : Nat) (s : State), State.commitItems all n xs s = .error (i, e) →
    n ≤ i ∧ i < n + xs.length ∧ e ≠ St.ok)

/-- A marked block that has become idle is reset, recorded as idle in time; one that has not by its timeout is reset as well, recorded so; a block that is not marked, or not idle, or whose timeout has not passed, is left alone. A block that has been reset becomes available again: its stream completes with ST_OK, and the value holds whether it was idle and how many requests ended. A long command whose stream does not exist or whose work has not been done is left alone. A region opening whose shadow area touches no frozen range completes with ST_OK, one whose shadow area does with ST_NOT_AUTHORISED and without the region, and a region closing with the result of the close; a step run, a global operation and a leave complete once their work has ended. -/
def Obligations.BlocksResetAndLongCommandsComplete : Prop :=
  (∀ (s : State) (b : Nat),
    (SMap.get? s.blocks b = none → exec (.blockResetIdle b) s = .next s ∧ exec (.blockResetTmo b) s = .next s ∧
      exec (.blockReinitialised b) s = .next s) ∧
    ∀ k, SMap.get? s.blocks b = some k →
      let marked : Bool → State := fun idle => { s with
        blocks := SMap.put s.blocks b { k with phase := 2, idle := idle } }
      (s.blockIdle b = false ∨ k.phase ≠ 1 → exec (.blockResetIdle b) s = .next s) ∧
      (s.blockIdle b = true → k.phase = 1 → exec (.blockResetIdle b) s = .next ((marked true).blockFall b)) ∧
      (s.now < k.since + k.tmo * 2400 ∨ s.blockIdle b = true ∨ k.phase ≠ 1 → exec (.blockResetTmo b) s = .next s) ∧
      (k.since + k.tmo * 2400 ≤ s.now → s.blockIdle b = false → k.phase = 1 →
        exec (.blockResetTmo b) s = .next ((marked false).blockFall b)) ∧
      (k.phase ≠ 2 → exec (.blockReinitialised b) s = .next s) ∧
      (k.phase = 2 →
        let t : State := { s with
          blocks := SMap.del s.blocks b }
        let t := if b ≤ 0x0B then t.setMc b { t.mc b with trained := 0xFF } else t
        exec (.blockReinitialised b) s = .next (t.endLong k.st St.ok ((if k.idle then 1 else 0) + k.count * 2 ^ 32) true))) ∧
  (∀ (s : State) (st : Nat), (s.stream? st = none → exec (.longCommandComplete st) s = .next s) ∧
    ∀ x, s.stream? st = some x → (x.long = none → exec (.longCommandComplete st) s = .next s) ∧
      (∀ b, x.long = some (.xwOpen b) → ∀ g, SMap.get? s.regions b = some g →
        (s.inFrozen g.shadow (8 * g.count) = false →
          exec (.longCommandComplete st) s = .next (State.endLong (s.finishOpen b) st St.ok 0 true)) ∧
        (s.inFrozen g.shadow (8 * g.count) = true → exec (.longCommandComplete st) s = .next (State.endLong { s with
          regions := SMap.del s.regions b } st St.notAuthorised 0 true))) ∧
      (∀ b, x.long = some (.xwClose b) → exec (.longCommandComplete st) s =
        .next (State.endLong (s.closeRegion b).2.2 st (s.closeRegion b).1 (s.closeRegion b).2.1 true)) ∧
      (∀ b, x.long = some (.stepRun b) ∨ x.long = some (.global b) →
        (x.done ≠ 1 → exec (.longCommandComplete st) s = .next s) ∧
        (x.done = 1 → exec (.longCommandComplete st) s = .next (s.endLong st x.last x.bytes.toNat true x.rlog2))) ∧
      (∀ b, x.long = some (.blockReset b) → exec (.longCommandComplete st) s = .next s) ∧
      (x.long = some .leave →
        (s.fab.devState ≠ 2 ∨ s.fab.leaving = none ∨ s.fab.outst ≠ [] ∨ s.fab.waiting ≠ [] →
          exec (.longCommandComplete st) s = .next s) ∧
        (s.fab.devState = 2 → s.fab.leaving ≠ none → s.fab.outst = [] → s.fab.waiting = [] →
          exec (.longCommandComplete st) s = .next (State.endLong (s.setFabric 3) st St.ok 0 true))) ∧
      (x.long ≠ none → x.result = State.noResult → x.owner ≠ .partner .host → ∀ e v, (s.endLong st e v true).stream? st = none))

/-- After a cold reset no command waits, no program is loaded, no stream, flag signal, atomic, region, KV pool, sequence or edit exists, every core is idle, every mailbox is free with RST set and an empty stage, the committed generation is 0, the fabric is STANDALONE, no training service is defined, and every phase identifier expects one end stamp. The registers of BAR0 listed, one or more of every block, read what their Reset columns give: DSTATE is STARTING, the host link is down, no LPDDR5X channel is trained. (That a cycle without a command takes the sequence to its end at once is the model's choice, notes/assumptions/5.md.) When such a cycle passes, steps 5 to 7 complete: DSTATE is READY, FWOK is set, every channel is trained, the power state is ACTIVE, and the host link is up. -/
def Obligations.ResetLeavesTheStatedValues : Prop :=
  let r := State.reset
  (r.pending = [] ∧ r.progs = [] ∧ r.streams = [] ∧ r.sigs = [] ∧ r.atoms = [] ∧ r.regions = [] ∧ r.kv = ⟨[], [], [], [], [], []⟩ ∧
    (∀ c, r.core c = Core.idle) ∧ Core.idle.st = 0 ∧
    (∀ p, (r.box p).stage = [] ∧ (r.box p).busy = none ∧ (r.box p).done = false ∧ (r.box p).rst = true) ∧ r.dc.gen = 0 ∧
    r.fab.devState = 0 ∧ r.tr.buckets = [] ∧ r.tr.rings = [] ∧ r.tr.norms = none ∧ r.tr.steps = [] ∧
    ∀ n, (r.phId n).expect = 1 ∧ (r.phId n).thr = 0) ∧
  (∀ x ∈ [(0x0, 0), (0x4, 4), (0x8, 0), (0x8004, 0), (0x8008, 0), (0x9000, 0), (0x9004, 0), (0xA000, 0), (0xA004, 0), (0xA008, 0),
      (0xA010, 0), (0xA018, 0x01010101), (0xA020, 0x01010101), (0x100000, 0), (0x100004, 0), (0x110000, 0), (0x110004, 0),
      (0x110008, 0), (0x110010, 0), (0x120000, 0), (0x120008, 0), (0x120010, 0), (0x120018, 0), (0x20000C, 0x485400),
      (0x200014, 0), (0x20001C, 0), (0x200020, 0x7F), (0x200024, 0x82), (0x200030, 0x3E8), (0x200038, 0), (0x200040, 0),
      (0x30000C, 0), (0x300010, 0), (0x400000, 0), (0x400004, 0), (0x400008, 0), (0x400010, 0), (0x408000, 0), (0x408008, 0),
      (0x408010, 0), (0x408018, 0), (0x408020, 0), (0x408048, 0x1FFF0000), (0x600000, 0), (0x600008, 0), (0x600010, 0),
      (0x600018, 0), (0x600020, 0), (0x800000, 0x1005), (0x800008, 0), (0x80000C, 0), (0x800010, 0), (0xA00000, 8), (0xA00008, 0),
      (0xA00100, 0), (0xA00108, 0), (0xB00000, 0x100), (0xB00008, 0), (0xB0000C, 0), (0xB00010, 0), (0xB00014, 0), (0xB00018, 0),
      (0xC00000, 0), (0xC00008, 0), (0x1151004, 0), (0x1151008, 0), (0x1151010, 0), (0x1151018, 0), (0x1151040, 0), (0x1151100, 0),
      (0x11511C0, 0), (0x1151200, 0)], r.regWord x.1 = some x.2) ∧
  ∃ t, step r = .next t ∧ t.dc.dstate = 1 ∧ t.dc.fwok = true ∧ t.pw.pstate = 3 ∧ t.pw.seq = none ∧ t.hp.link = 2 ∧
    ∀ k, k < 12 → (t.mc k).trained = 0xFF

/-- The state after reset keeps the power rule: legal power and clock states and throttle levels, and the 48 V conversion off while the input has sagged, a trip holds the device or the standby rails are not valid. -/
def Obligations.ThePowerRuleHoldsAtReset : Prop := SafePower State.reset.pw

/-- From every state that keeps the power rule, one step of the block, whatever command is at the front of its queue, or the cycle that passes when none is, gives a state that keeps it: the power state and the clock state are among those the spec names, the throttle levels are at most 15, ALERT_N is what the alert bits and their enables say, and the 48 V conversion is off while the input has sagged and not risen again, while a trip holds or has latched the device, and while the standby rails are not valid. -/
def Obligations.EveryStepKeepsThePowerRule : Prop :=
  ∀ s t : State, SafePower s.pw → step s = .next t → SafePower t.pw

/-- For every command and every state, exec answers a next state, with no fault and no refusal (errors of the spec are state: fault records, statuses, error flags; the model's choice, notes/assumptions/2.md), and so does every step. The step leaves the waiting commands as they were but for the one it took, and leaves the environment as it was: the trim words, the strap resistor, the core exclusions, the mesh test and the sizes of the trees. The queue is the model's own (notes/assumptions/1.md). -/
def Obligations.NoCommandTouchesTheQueueOrTheEnvironment : Prop :=
  (∀ (i : Instr) (s : State), ∃ t, exec i s = .next t ∧ t.pending = s.pending ∧ t.env = s.env) ∧
  ∀ s : State, ∃ t, step s = .next t ∧ t.pending = s.pending.tail ∧ t.env = s.env

/-- Let one memory be the memory when a range was saved and another the memory when the range is put back. Afterwards every byte and every granule's poison inside the range is what was saved, every one outside is as it was, and the canonical form holds. -/
def Obligations.SavedMemoryReturnsUnchanged : Prop :=
  ∀ (old new : Memory) (lo hi : Nat), old.wf = true → new.wf = true →
    let back := (new.cut lo hi).join (old.clip lo hi)
    back.wf = true ∧
      ∀ a, (lo ≤ a ∧ a < hi → back.byte a = old.byte a ∧ back.granPois a = old.granPois a) ∧
        (a < lo ∨ hi ≤ a → back.byte a = new.byte a ∧ back.granPois a = new.granPois a)

/-- On a ready core, with a frame its decoder accepts, operands that keep the alignment and format rules and lie in the core's own memory, room in the queue and the scoreboard, and, for PLOAD, TLOAD, MMAWG and CONV, no earlier attention instruction or instruction in flight whose operands conflict, these instructions complete their issue: PLOAD and TLOAD add one panel load with the panel's format, depth, columns, addresses and strides. MMA enters with one pass for each panel of its shape; each pass feeds exactly the rows of the shape that its mask names, each from its own row address to its row and tile, accumulating when ACC is set. MMAWG enters with its passes and its own panel loads, CONV behind the setting of its outputs with its passes and its tap decoder. ACCST, ACCMV and GWSET enter with their operands. GWAIT enters and marks its destination as still to be written. The core goes on at the next instruction, and the queue acts as far as it can at once. -/
def Obligations.MatrixInstructionsEnterTheirQueue : Prop :=
  ∀ (s : State) (c : Nat) (f : Frame),
    let ar (hi lo : Nat) : Nat := ((s.ctx c).getA (fld f hi lo)).toNat
    let own (a n : Nat) : Prop := s.ownFault c a n 0x43 1 = none
    let queued (kind : MKind) (foot : Foot) : State := (s.enqueue (s.ins c f) kind foot).2
    let goes (t : State) : State := s.pass (State.runMatrix 10 t c) c
    let room (n : Nat) : Prop := ((s.inFlight c s.fresh).map fun g => g.spans.length).sum + n ≤ 32
    (∀ b w, opcode f = (if b then 0x45 else 0x44) → Ready s c f (ploadRegs f) → ploadDec f = none → Fmt.ofCode (fld f 19 16) = some w →
      let kp := fld f 28 20
      let nc := fld f 32 30
      w.isPanel = true → 1 ≤ kp → kp ≤ w.kMax → ar 39 36 % 16 = 0 → ar 43 40 % 16 = 0 → (w.isMx = true → ar 47 44 % 8 = 0) →
      s.rowsFault c (ar 39 36) (ar 43 40) (if b then kp else nc) (((if b then nc else kp) * w.bits + 7) / 8) 0x43 1 = none →
      (w.isMx = true → s.rowsFault c (ar 47 44) 8 nc ((kp + 31) / 32) 0x43 1 = none) → (s.mx c).queued.length < 4 → (s.mx c).decs = [] →
      let l (u : Nat) : PanelLoad :=
        ⟨u, 0, f, (s.ctx c).pc, w, kp, nc, b, gloc (ar 39 36), ar 43 40, gloc (ar 47 44), none, s.cyc c, none, none, []⟩
      room 2 → s.conflict (s.ins c f) (l 0).foot = false → s.attAhead c s.fresh = false →
      exec (if b then .tload c f else .pload c f) s = .next (s.pass (State.modMx { s with fresh := s.fresh + 1 } c fun m => { m with
        loads := m.loads ++ [l s.fresh] }) c)) ∧
    (∀ a rows np groups kp, opcode f = 0x40 → Ready s c f (mmaRegs f) → mmaDec f = none → Fmt.ofCode (fld f 23 20) = some a →
      shapeOf (fld f 27 24) = some (rows, np, groups) →
      let mask := if bitOf f 29 then ar 47 44 else 2 ^ 64 - 1
      let tile := fld f 35 32
      np ≤ (s.untaken c).length → (s.unclaimed c).head?.map (·.kp) = some kp →
      tile + (if groups = 4 then 4 else np) ≤ 16 → ar 39 36 % 16 = 0 → ar 43 40 % 16 = 0 → (a.isMx = true → ar 51 48 % 8 = 0) →
      (∀ r, r < rows → mask.testBit r = true → own (ar 39 36 + r * ar 43 40) ((kp * a.bits + 7) / 8) ∧
        (a.isMx = true → own (ar 51 48 + r * 8) ((kp + 31) / 32))) → s.entries c < 8 → room 2 →
      ∃ specs foot, specs.length = np ∧
        exec (.mma c f) s = .next (goes (queued (.passes (fld f 31 30) specs false) foot)) ∧
        ∀ p sp, specs[p]? = some sp → sp.afmt = a ∧ sp.fresh = !bitOf f 28 ∧ sp.ix = p ∧ sp.fed = 0 ∧ ∀ r, r ∈ sp.slots.flatten ↔ ∃ k, k < rows ∧
          mask.testBit k = true ∧ r = rowSrc a (k % 16) (if groups = 4 then tile + k / 16 else tile + p)
            (gloc (ar 39 36) + k * ar 43 40) (gloc (ar 51 48) + k * 8) kp) ∧
    (∀ w a, opcode f = 0x50 → Ready s c f (mmawgRegs f) → mmawgDec f = none → Fmt.ofCode (fld f 19 16) = some w →
      Fmt.ofCode (fld f 23 20) = some a →
      let q := mmawgPlan (s.ins c f) s w a
      firstFault q.checks = none → s.entries c < 8 → (s.mx c).decs = [] → s.boardFull (s.ins c f) q.foot = false →
      s.conflict (s.ins c f) q.foot = false → s.attAhead c s.fresh = false →
      exec (.mmawg c f) s = .next (goes (State.modMx (queued (.passes (fld f 31 30) q.todo true) q.foot) c fun m => { m with
        loads := m.loads ++ (q.loads s.fresh).flatten }))) ∧
    (∀ o, opcode f = 0x59 → Ready s c f (accstRegs f) → accstDec f = none → Fmt.ofCode (fld f 19 16) = some o →
      let n := fld f 29 26 + 1
      let nc := fld f 45 43
      let mask := if bitOf f 50 then ar 49 46 % 65536 else 65535
      o.isOut = true → 1 ≤ nc → nc ≤ 4 → fld f 25 22 + n ≤ 16 → ar 33 30 % 16 = 0 → ar 37 34 % 16 = 0 → ar 41 38 % 16 = 0 →
      (∀ q r, q < n → r < 16 → mask.testBit r = true → own (ar 33 30 + q * ar 41 38 + r * ar 37 34) (nc * o.bytes)) → s.entries c < 8 →
      room 1 →
      let rows := (List.range n).flatMap fun q => ((List.range 16).filter mask.testBit).map fun r => ar 33 30 + q * ar 41 38 + r * ar 37 34
      exec (.accst c f) s = .next (goes (queued
        (.accst (fld f 21 20) (fld f 25 22) n nc o (gloc (ar 33 30)) (ar 37 34) (ar 41 38) mask (bitOf f 42))
        ⟨hull (rows.flatMap fun a => rowSpan a 0 1 (nc * o.bytes) true), []⟩))) ∧
    (opcode f = 0x5A → Ready s c f [] → Zero f [(127, 33), (19, 16)] → fld f 31 26 % 2 = 0 → s.entries c < 8 → room 0 →
      exec (.accmv c f) s = .next (goes (queued (.accmv (fld f 21 20) (fld f 25 22) (fld f 31 26) (bitOf f 32))
        ⟨[], [(fld f 31 26, true), (fld f 31 26 + 1, true)]⟩))) ∧
    (opcode f = 0x48 → Ready s c f [fld f 19 16, fld f 23 20] → Zero f [(127, 68)] → fld f 35 24 ≤ 4080 → ar 19 16 % 16 = 0 →
      ar 23 20 % 16 = 0 → (∀ k, k < 16 → (fld f 51 36).testBit k = true → own (ar 19 16 + k * ar 23 20) 1) → s.entries c < 8 → room 0 →
      exec (.gwset c f) s = .next (goes (queued (.gwset (gloc (ar 19 16)) (ar 23 20) (fld f 51 36) (fld f 35 24) (fld f 67 52))
        Foot.none))) ∧
    (opcode f = 0x49 → Ready s c f [fld f 19 16] → Zero f [(127, 20)] → s.entries c < 8 →
      exec (.gwait c f) s = .next (goes (State.modCtx (queued (.gwait (fld f 19 16)) Foot.none) c fun x => { x with
        pend := x.pend ++ [(fld f 19 16, s.fresh)] }))) ∧
    (∀ wf xf, opcode f = 0xA0 → Ready s c f (convRegs f) → convDec f = none → ar 19 16 % 16 = 0 → s.ownFault c (ar 19 16) 64 0xA4 1 = none →
      s.attAhead c s.fresh = false → s.conflict (s.ins c f) ⟨[⟨gloc (ar 19 16), gloc (ar 19 16) + 64, false⟩], []⟩ = false →
      s.poisoned (gloc (ar 19 16)) 64 = false →
      let d := s.read (gloc (ar 19 16)) 64
      let q := convPlan (s.ins c f) s d wf xf
      convDescFault d = none → Fmt.ofCode (rd d 0x13 1) = some wf → Fmt.ofCode (rd d 0xF 1) = some xf → firstFault q.checks = none →
      s.entries c < 8 → s.boardFull (s.ins c f) q.foot = false → s.conflict (s.ins c f) q.foot = false →
      let bias := if fld f 51 50 = 2 then some (gloc (ar 35 32)) else none
      let t := queued (.convInit (fld f 49 48) (convRows (s.ins c f) s d) bias (wf == .int8)) q.foot
      let v := (t.enqueue (s.ins c f) (.passes (fld f 49 48) q.todo true) q.foot).2
      exec (.conv c f) s = .next (goes (State.modMx v c fun m => { m with
        decs := m.decs ++ [⟨t.fresh, v.cyc c, [], q.loads t.fresh⟩] })))

/-- On a ready core, with a frame its decoder accepts and nothing in the way (descriptors and operands that find no fault and hold no poison, no conflict with an instruction in flight, no BOLLARD that still waits for an access outside the core's own memory, nothing earlier of their pipeline, and room for what is handed over) these instructions complete their issue: ATTF and ATTB begin their attention instruction, whose first walk latches its resident record and whose other entries wait. KVOP hands over its edit, after every earlier write of the core. HALO SEND whose consumer has released the stripe writes it and then sets the partner's flag; HALO WAIT goes on when its stripe has arrived; HALO RELEASE sets the partner's flag when no stem job that reads the stripe is left. A stem instruction sends its reservation. An ATOM on this device queues at its unit and marks its destination; one for another device goes out as a request. SPOST hands its descriptor to a stream of its program. BFILL adds to the bucket's fill and makes the bucket full when nothing is missing. OPTIM has its effect. The core goes on at the next instruction. -/
def Obligations.HandedOverInstructionsComplete : Prop :=
  ∀ (s : State) (c : Nat) (f : Frame),
    let ar (hi lo : Nat) : Nat := ((s.ctx c).getA (fld f hi lo)).toNat
    let i := s.ins c f
    let work := s.works c (s.core c).holder
    let next : State := { s with fresh := s.fresh + 1 }
    (∀ b q r, opcode f = (if b then 0x91 else 0x90) → Ready s c f (attRegs f) → attDec b f = none →
      let n := fld f 39 32 + 1
      let gd := ar 19 16
      let gl := ar 23 20
      gd % 64 = 0 → gl % 16 = 0 → s.ownFault c gd 128 0x93 4 = none → s.ownFault c gl (32 * n) 0x93 4 = none →
      s.fenced c = false → s.busyUnit i = false → s.conflict i ⟨[⟨gloc gd, gloc gd + 128, false⟩, ⟨gloc gl, gloc gl + 32 * n, false⟩], []⟩ = false →
      s.poisoned (gloc gd) 128 = false → s.poisoned (gloc gl) (32 * n) = false →
      let d := s.read (gloc gd) 128
      let bs := (List.range n).map fun k => s.read (gloc gl + 32 * k) 32
      let es := bs.map AttEntry.of
      descFault s c b (fld f 40 40) d = none →
      (∀ k x, bs[k]? = some x → entryCheck s c b (fld f 40 40) d x (if k = 0 then none else es[k - 1]?) = none) →
      ∀ e rest, es = e :: rest → s.kvPool (AttDesc.of d).pool = some q → s.kvSeq e.seq = some r → r.resident = true →
      (b = true → fld f 40 40 = 1 → e.page < (r.len + 15) / 16) →
      let a : Attn := ⟨s.fresh, f, (s.ctx c).pc, b, fld f 40 40, AttDesc.of d, es, ⟨2, r.len, r.ver⟩ :: rest.map fun _ => ⟨0, 0, 0⟩⟩
      Starts s i 40 (Foot.union [⟨[⟨gloc gd, gloc gd + 128, false⟩, ⟨gloc gl, gloc gl + 32 * n, false⟩], []⟩, s.attnFoot a]) →
      ∃ t : State, exec (if b then .attb c f else .attf c f) s = .next (s.pass t c) ∧ t.attn c = some a ∧
        t.kv.latches = s.kv.latches ++ [⟨.walk s.fresh 0, e.seq, r.len, r.ver, r.pages⟩] ∧
        ∀ x, (x < a.desc.ring ∨ a.desc.ring + a.desc.rslots * 32 * q.hdim * q.fmt.bytes + 4096 ≤ x) →
          (x < a.desc.park ∨ a.desc.park + (a.desc.npark + 1) * 128 * q.hdim ≤ x) → t.mem.byte x = s.mem.byte x) ∧
    (opcode f = 0x94 → Ready s c f [fld f 19 16] → Zero f [(127, 32)] →
      let g := ar 19 16
      let b := s.read (gloc g) 16
      g % 16 = 0 → s.ownFault c g 32 0x93 4 = none → s.editsOut c (s.core c).holder + s.queuedOps i 0x94 < 8 →
      Starts s i 41 ⟨[⟨gloc g, gloc g + 32, true⟩], []⟩ → s.poisoned (gloc g) 16 = false →
      let after := work.filterMap fun w => if (w.writes || w.out) && decide (w.uid < s.fresh) then some w.uid else none
      exec (.kvop c f) s = .next (s.pass { next with kv := { s.kv with
        edits := s.kv.edits ++ [⟨s.fresh, .core c (s.core c).holder (gloc g) (fld f 31 20),
          after, rd b 0 1, rd b 4 4, rd b 8 4, rd b 1 3 != 0 || rd b 0xC 4 != 0, if after.isEmpty then s.fresh + 1 else 0⟩] } } c)) ∧
    (opcode f = 0xA4 → Ready s c f (haloRegs f) → haloDec f = none →
      let g := ar 23 20
      let d := s.read (gloc g) 32
      let k : W32 := BitVec.ofNat 32 (ar 27 24)
      let flag := (s.ctx c).flag (rd d 0x14 2)
      let n := rd d 0x10 4
      g % 16 = 0 → s.ownFault c g 32 0xA4 0 = none → s.conflict i ⟨[⟨gloc g, gloc g + 32, false⟩], []⟩ = false →
      s.poisoned (gloc g) 32 = false →
      (fld f 17 16 = 0 → haloFault s d 0 = none → ar 31 28 % 16 = 0 → s.ownFault c (ar 31 28) n 0xA4 0 = none →
        0 ≤ (flag - (k - 1)).toInt → s.fenced c = false → s.conflict i ⟨[⟨gloc (ar 31 28), gloc (ar 31 28) + n, false⟩], []⟩ = false →
        let dst := rd d 8 8 + k.toNat % 2 * n
        let w := next.gWrite dst (s.mem.readP (gloc (ar 31 28)) n) 1 (some (s.core c).holder)
          (.halo c (s.core c).holder s.fresh (s.ctx c).pc f (BitVec.ofNat 64 dst))
        w.1 = St.ok → exec (.haloSend c f) s = .next (s.pass (haloSignal i w.2.2 d k [s.fresh]) c)) ∧
      (fld f 17 16 = 1 → haloFault s d 1 = none → 0 ≤ (flag - (k + 1)).toInt → exec (.haloWait c f) s = .next (s.pass s c)) ∧
      (fld f 17 16 = 2 → haloFault s d 1 = none → s.fenced c = false →
        let a := gloc (rd d 8 8) + k.toNat % 2 * n
        s.stemsRead c (s.core c).holder a (a + n) = false → s.conflict i ⟨[⟨a, a + n, true⟩], []⟩ = false → exec (.haloRelease c f) s = .next (s.pass (haloSignal i s d k []) c))) ∧
    (Ready s c f [fld f 19 16] → Zero f [(127, 33)] → (work.filter fun w => w.unit == 7).length < 4 →
      let t : State := { next with sreq := s.sreq ++ [⟨s.fresh, c, (s.core c).holder, f, (s.ctx c).pc, ar 19 16, [], 0⟩] }
      (opcode f = 0xA8 → exec (.sconv c f) s = .next (s.pass t c)) ∧ (opcode f = 0xA9 → exec (.swgrad c f) s = .next (s.pass t c)) ∧
      (opcode f = 0xAA → exec (.spool c f) s = .next (s.pass t c)) ∧ (opcode f = 0xAB → exec (.snorm c f) s = .next (s.pass t c))) ∧
    (opcode f = 0x21 → Ready s c f ([fld f 32 29, fld f 36 33, fld f 40 37] ++ if bitOf f 45 then [fld f 44 41] else []) →
      Zero f [(127, 55), (22, 20)] → fld f 19 16 < 8 →
      let g := ar 32 29
      let n := atomBytes (fld f 19 16)
      let o : AtomOp := ⟨gloc g, fld f 19 16, fld f 24 23, fld f 28 25, atomEa f, (s.ctx c).getA (fld f 36 33), (s.ctx c).getA (fld f 40 37)⟩
      let dst := if bitOf f 45 then some (fld f 44 41) else none
      let marked (t : State) : State := match dst with
        | some r => t.modCtx c fun x => { x with pend := x.pend ++ [(r, s.fresh)] }
        | none => t
      atomFields o.op o.okind o.ofmt o.ea = true → g % n = 0 → gvalid g = true → s.atomsOut c (s.core c).holder + s.queuedOps i 0x21 < 64 → Starts s i 50 (scalarFoot s c g n true) →
      (gdev g = s.fab.devnum ∧ ownTouch c (gloc g) n = true) ∨ s.fenced c = false →
      (gdev g = s.fab.devnum → (∀ k x, place (gloc g) ≠ .spad k x ∨ spillLo < x + n) → s.site (gloc g) n ≠ .no →
        exec (.atom c f) s = .next (s.pass (marked { next with
          atoms := s.atoms ++ [⟨s.fresh, .core c (s.core c).holder (s.ctx c).pc f dst, o, false⟩] }) c)) ∧
      (gdev g ≠ s.fab.devnum → s.fenced c = false → ∀ t, next.request { pktBlank with
          op := 3
          dst := BitVec.ofNat 16 (gdev g)
          addr := BitVec.ofNat 64 g
          len := 16
          aop := BitVec.ofNat 16 (o.op + o.okind * 16 + o.ofmt * 64)
          ea := BitVec.ofInt 16 o.ea
          data := le 8 o.v1.toNat ++ le 8 o.v2.toNat } 2 (some (s.core c).holder)
          (.atom c (s.core c).holder s.fresh (s.ctx c).pc f (BitVec.ofNat 64 g) dst) = .ok t →
        exec (.atom c f) s = .next (s.pass (marked t) c))) ∧
    (∀ y, opcode f = 0x20 → Ready s c f [fld f 19 16, fld f 23 20] → Zero f [(127, 25)] →
      let sr := ar 19 16
      let g := ar 23 20
      g % 64 = 0 → s.ownFault c g 64 0x23 5 = none → sr < 2 ^ 24 → s.stream? sr = some y → y.owner = .prog (s.core c).holder → y.stopped = false →
      Starts s i 50 ⟨[⟨gloc g, gloc g + 64, false⟩], []⟩ → s.spostsOut c (s.core c).holder + s.queuedOps i 0x20 < 8 →
      let rel := if bitOf f 24 then work.filterMap (fun w => if w.writes && decide (w.uid < s.fresh) then some w.uid else none) else []
      let t : State := { next with sposts := s.sposts ++ [⟨s.fresh, c, (s.core c).holder, (s.ctx c).pc, f, sr, s.read (gloc g) 64, rel⟩] }
      exec (.spost c f) s = .next (s.pass (State.deliver (s.sposts.length + 1) t) c)) ∧
    (∀ x, opcode f = 0xB0 → Ready s c f [fld f 19 16] → Zero f [(127, 28)] → s.busy i (·.writes) = false →
      let n := ar 19 16
      s.bucket? (fld f 27 20) = some x → 0 < n →
      (x.fill + n < x.df.valid → exec (.bfill c f) s = .next (s.pass (s.setBucket (fld f 27 20) { x with fill := x.fill + n }) c)) ∧
      (x.fill + n = x.df.valid → x.full = false → exec (.bfill c f) s =
        .next (s.pass (s.setBucket (fld f 27 20) { x with fill := 0, full := true }) c))) ∧
    (opcode f = 0xB4 → Ready s c f (optimRegs f) → optimDec f = none → s.uploading i = false → (optimOp i s).Clear i s →
      exec (.optim c f) s = .next (s.pass ((optimOp i s).act s) c))
end

