-- ==== Sys2Proof/Laws/Tables.lean ====
section
/-! SUPPORT. Sys2Proof/Laws/Tables.lean: what the operations on sparse tables do, whether or not a table is sorted, and that they keep
a sorted table sorted. -/

namespace Sys2Proof.Machine

variable {α : Type}

@[simp] theorem SMap.get?_nil (k : Nat) : SMap.get? ([] : SMap α) k = none := rfl

theorem SMap.get?_cons (i : Nat) (x : α) (m : SMap α) (k : Nat) :
    SMap.get? ((i, x) :: m) k = if k = i then some x else SMap.get? m k := rfl

@[simp] theorem SMap.get?_put_same (m : SMap α) (k : Nat) (v : α) : SMap.get? (SMap.put m k v) k = some v := by
  induction m with
  | nil => simp [SMap.put, SMap.get?]
  | cons p m ih =>
    obtain ⟨i, x⟩ := p
    simp only [SMap.put]
    split
    · simp [SMap.get?]
    · split
      · simp [SMap.get?]
      · rename_i h1 h2
        simp [SMap.get?, h2, ih]

@[simp] theorem SMap.get?_put_other (m : SMap α) (k j : Nat) (v : α) (h : j ≠ k) :
    SMap.get? (SMap.put m k v) j = SMap.get? m j := by
  induction m with
  | nil => simp [SMap.put, SMap.get?, h]
  | cons p m ih =>
    obtain ⟨i, x⟩ := p
    simp only [SMap.put]
    split
    · simp [SMap.get?, h]
    · split
      · rename_i h1 h2
        subst h2
        simp [SMap.get?, h]
      · simp [SMap.get?, ih]

@[simp] theorem SMap.get?_del_same (m : SMap α) (k : Nat) : SMap.get? (SMap.del m k) k = none := by
  induction m with
  | nil => rfl
  | cons p m ih =>
    obtain ⟨i, x⟩ := p
    by_cases h : i = k
    · subst h
      simpa [SMap.del] using ih
    · have h' : k ≠ i := fun e => h e.symm
      simpa [SMap.del, SMap.get?, h, h'] using ih

@[simp] theorem SMap.get?_del_other (m : SMap α) (k j : Nat) (h : j ≠ k) :
    SMap.get? (SMap.del m k) j = SMap.get? m j := by
  induction m with
  | nil => rfl
  | cons p m ih =>
    obtain ⟨i, x⟩ := p
    by_cases hi : i = k
    · subst hi
      simpa [SMap.del, SMap.get?, h] using ih
    · have e : SMap.del ((i, x) :: m) k = (i, x) :: SMap.del m k := by simp [SMap.del, hi]
      rw [e, SMap.get?_cons, SMap.get?_cons, ih]

@[simp] theorem SMap.getD_setD_same [DecidableEq α] (m : SMap α) (k : Nat) (d v : α) :
    SMap.getD (SMap.setD m k d v) k d = v := by
  unfold SMap.setD SMap.getD
  split <;> simp_all

@[simp] theorem SMap.getD_setD_other [DecidableEq α] (m : SMap α) (k j : Nat) (d e v : α) (h : j ≠ k) :
    SMap.getD (SMap.setD m k d v) j e = SMap.getD m j e := by
  unfold SMap.setD SMap.getD
  split <;> simp [h]

/-! ## Sorted tables -/

/-- A sorted table whose indices all lie above `k`. -/
def SMap.above (k : Nat) : SMap α → Bool
  | [] => true
  | (i, _) :: _ => decide (k < i)

theorem SMap.sorted_cons (i : Nat) (x : α) (m : SMap α) :
    SMap.sorted ((i, x) :: m) = (SMap.above i m && SMap.sorted m) := by
  cases m with
  | nil => rfl
  | cons p m => rfl

theorem SMap.above_of_le (i j : Nat) (m : SMap α) (h : i ≤ j) (a : SMap.above j m = true) : SMap.above i m = true := by
  cases m with
  | nil => rfl
  | cons p m =>
    simp only [SMap.above, decide_eq_true_eq] at a ⊢
    omega

theorem SMap.above_put (i k : Nat) (m : SMap α) (v : α) (h : i < k) (a : SMap.above i m = true) :
    SMap.above i (SMap.put m k v) = true := by
  cases m with
  | nil => simpa [SMap.put, SMap.above] using h
  | cons p m =>
    obtain ⟨j, x⟩ := p
    simp only [SMap.put]
    split
    · simpa [SMap.above] using h
    · split <;> simp_all [SMap.above]

theorem SMap.sorted_put (m : SMap α) (k : Nat) (v : α) (h : SMap.sorted m = true) : SMap.sorted (SMap.put m k v) = true := by
  induction m with
  | nil => rfl
  | cons p m ih =>
    obtain ⟨i, x⟩ := p
    rw [SMap.sorted_cons, Bool.and_eq_true] at h
    simp only [SMap.put]
    split
    · rename_i hk
      rw [SMap.sorted_cons, SMap.sorted_cons, h.1, h.2]
      simpa [SMap.above] using hk
    · split
      · rename_i h1 h2
        subst h2
        simp [SMap.sorted_cons, h.1, h.2]
      · rw [SMap.sorted_cons, ih h.2, SMap.above_put i k m v (by omega) h.1]
        rfl

theorem SMap.above_filter (i : Nat) (m : SMap α) (q : Nat × α → Bool) (s : SMap.sorted m = true) (a : SMap.above i m = true) :
    SMap.above i (m.filter q) = true := by
  induction m with
  | nil => rfl
  | cons p m ih =>
    obtain ⟨j, x⟩ := p
    rw [SMap.sorted_cons, Bool.and_eq_true] at s
    rw [List.filter_cons]
    split
    · simpa [SMap.above] using a
    · have hj : i ≤ j := by
        simp only [SMap.above, decide_eq_true_eq] at a
        omega
      exact ih s.2 (SMap.above_of_le i j m hj s.1)

theorem SMap.sorted_filter (m : SMap α) (q : Nat × α → Bool) (h : SMap.sorted m = true) :
    SMap.sorted (m.filter q) = true := by
  induction m with
  | nil => rfl
  | cons p m ih =>
    obtain ⟨i, x⟩ := p
    rw [SMap.sorted_cons, Bool.and_eq_true] at h
    rw [List.filter_cons]
    split
    · rw [SMap.sorted_cons, ih h.2, SMap.above_filter i m q h.2 h.1]
      rfl
    · exact ih h.2

theorem SMap.sorted_setD [DecidableEq α] (m : SMap α) (k : Nat) (d v : α) (h : SMap.sorted m = true) :
    SMap.sorted (SMap.setD m k d v) = true := by
  unfold SMap.setD
  split
  · exact SMap.sorted_filter m _ h
  · exact SMap.sorted_put m k v h

/-- Entries of a table after `put` are the entry put or entries of the table. -/
theorem SMap.mem_put (m : SMap α) (k : Nat) (v : α) (p : Nat × α) (h : p ∈ SMap.put m k v) : p = (k, v) ∨ p ∈ m := by
  induction m with
  | nil => simpa [SMap.put] using h
  | cons q m ih =>
    obtain ⟨i, x⟩ := q
    simp only [SMap.put] at h
    split at h
    · simpa using h
    · split at h
      · rcases List.mem_cons.mp h with e | e
        · exact .inl e
        · exact .inr (List.mem_cons_of_mem _ e)
      · rcases List.mem_cons.mp h with e | e
        · exact .inr (e ▸ List.mem_cons_self)
        · rcases ih e with e | e
          · exact .inl e
          · exact .inr (List.mem_cons_of_mem _ e)

/-- A table without its default entries keeps none of them. -/
theorem SMap.noDefault_setD [DecidableEq α] (m : SMap α) (k : Nat) (g : Nat → α) (v : α)
    (h : ∀ p ∈ m, p.2 ≠ g p.1) : ∀ p ∈ SMap.setD m k (g k) v, p.2 ≠ g p.1 := by
  intro p hp
  unfold SMap.setD at hp
  split at hp
  · exact h p (List.mem_filter.mp hp).1
  · rename_i hv
    rcases SMap.mem_put m k v p hp with e | e
    · subst e
      exact hv
    · exact h p e

end Sys2Proof.Machine
end

