-- ==== Sys2Proof/Laws/Memory.lean ====
section
/-! SUPPORT. Sys2Proof/Laws/Memory.lean: reading after writing, which bytes and marks a write leaves alone, and that every operation on
memory keeps its canonical form. -/

namespace Sys2Proof.Machine

namespace Memory

/-! ## Bytes -/

@[simp] theorem setByte_undef (m : Memory) (a : Nat) (v : Byte) : (m.setByte a v).undef = m.undef := rfl
@[simp] theorem setByte_pois (m : Memory) (a : Nat) (v : Byte) : (m.setByte a v).pois = m.pois := rfl
@[simp] theorem mark_undef (m : Memory) (g : Nat) (v : Bool) : (m.mark g v).undef = m.undef := rfl
@[simp] theorem mark_cells (m : Memory) (g : Nat) (v : Bool) : (m.mark g v).cells = m.cells := rfl

theorem dflt_of_undef {m n : Memory} (h : n.undef = m.undef) (a : Nat) : n.dflt a = m.dflt a := by
  simp [dflt, undefAt, h]

theorem dfltPois_of_undef {m n : Memory} (h : n.undef = m.undef) (a : Nat) : n.dfltPois a = m.dfltPois a := by
  simp [dfltPois, undefAt, h]

@[simp] theorem byte_setByte_same (m : Memory) (a : Nat) (v : Byte) : (m.setByte a v).byte a = v := by
  simp [byte, setByte, dflt, undefAt]

@[simp] theorem byte_setByte_other (m : Memory) (a b : Nat) (v : Byte) (h : b ≠ a) : (m.setByte a v).byte b = m.byte b := by
  simp [byte, setByte, dflt, undefAt, h]

@[simp] theorem byte_mark (m : Memory) (g : Nat) (v : Bool) (b : Nat) : (m.mark g v).byte b = m.byte b := rfl

@[simp] theorem granPois_setByte (m : Memory) (a : Nat) (v : Byte) (g : Nat) : (m.setByte a v).granPois g = m.granPois g := rfl

@[simp] theorem granPois_mark_same (m : Memory) (g : Nat) (v : Bool) : (m.mark g v).granPois g = v := by
  simp [granPois, mark, dfltPois, undefAt]

@[simp] theorem granPois_mark_other (m : Memory) (g k : Nat) (v : Bool) (h : k ≠ g) : (m.mark g v).granPois k = m.granPois k := by
  simp [granPois, mark, dfltPois, undefAt, h]

@[simp] theorem write_undef (m : Memory) (a : Nat) (bs : List Byte) : (m.write a bs).undef = m.undef := by
  induction bs generalizing m a with
  | nil => rfl
  | cons b bs ih => simp [write, ih]

@[simp] theorem write_granPois (m : Memory) (a : Nat) (bs : List Byte) (g : Nat) : (m.write a bs).granPois g = m.granPois g := by
  induction bs generalizing m a with
  | nil => rfl
  | cons b bs ih => simp [write, ih]

theorem byte_write_outside (m : Memory) (a b : Nat) (bs : List Byte) (h : b < a ∨ a + bs.length ≤ b) :
    (m.write a bs).byte b = m.byte b := by
  induction bs generalizing m a with
  | nil => rfl
  | cons x bs ih =>
    have hl : (x :: bs).length = bs.length + 1 := rfl
    rw [write, ih _ _ (by omega), byte_setByte_other _ _ _ _ (by omega)]

theorem byte_write_inside (m : Memory) (a i : Nat) (bs : List Byte) (h : i < bs.length) :
    (m.write a bs).byte (a + i) = bs[i] := by
  induction bs generalizing m a i with
  | nil => simp at h
  | cons x bs ih =>
    cases i with
    | zero => rw [write, byte_write_outside _ _ _ _ (by omega)]; simp
    | succ i =>
      have e : a + (i + 1) = a + 1 + i := by omega
      rw [write, e, ih _ _ _ (by simpa using h)]
      rfl

/-- Memory reads back what was written. -/
theorem read_write (m : Memory) (a : Nat) (bs : List Byte) : (m.write a bs).read a bs.length = bs := by
  apply List.ext_getElem
  · simp [read]
  · intro i h1 h2
    simp [read, byte_write_inside m a i bs h2]

/-! ## Poison marks do not touch bytes -/

theorem foldl_byte {β : Type} (l : List β) (g : Memory → β → Memory) (h : ∀ m x b, (g m x).byte b = m.byte b) (m : Memory) (b : Nat) :
    (l.foldl g m).byte b = m.byte b := by
  induction l generalizing m with
  | nil => rfl
  | cons x l ih => rw [List.foldl_cons, ih, h]

@[simp] theorem byte_taint (m : Memory) (a n b : Nat) : (m.taint a n).byte b = m.byte b :=
  foldl_byte (granules a n) (fun m g => m.mark g true) (fun _ _ _ => rfl) m b

@[simp] theorem byte_clean (m : Memory) (a n b : Nat) : (m.clean a n).byte b = m.byte b :=
  foldl_byte _ _ (fun m x b => by split <;> rfl) _ _

theorem byte_store_outside (m : Memory) (a b : Nat) (bs : List Byte) (p : Bool) (h : b < a ∨ a + bs.length ≤ b) :
    (m.store a bs p).byte b = m.byte b := by
  unfold store
  split <;> simp [byte_write_outside m a b bs h]

theorem byte_store_inside (m : Memory) (a i : Nat) (bs : List Byte) (p : Bool) (h : i < bs.length) :
    (m.store a bs p).byte (a + i) = bs[i] := by
  unfold store
  split <;> simp [byte_write_inside m a i bs h]

theorem byte_storeP_outside (m : Memory) (a b : Nat) (bs : List (Byte × Bool)) (h : b < a ∨ a + bs.length ≤ b) :
    (m.storeP a bs).byte b = m.byte b := by
  unfold storeP
  rw [foldl_byte]
  · exact byte_write_outside _ _ _ _ (by simpa using h)
  · intro m x b
    split
    · rfl
    · split <;> rfl

theorem byte_storeP_inside (m : Memory) (a i : Nat) (bs : List (Byte × Bool)) (h : i < bs.length) :
    (m.storeP a bs).byte (a + i) = bs[i].1 := by
  unfold storeP
  rw [foldl_byte]
  · rw [byte_write_inside _ _ _ _ (by simpa using h)]
    simp
  · intro m x b
    split
    · rfl
    · split <;> rfl

/-! ## The canonical form -/

/-- The canonical form, as statements. -/
theorem wf_iff (m : Memory) : m.wf = true ↔
    (SMap.sorted m.cells = true ∧ ∀ p ∈ m.cells, p.2 ≠ m.dflt p.1) ∧
    (SMap.sorted m.pois = true ∧ ∀ p ∈ m.pois, p.2 ≠ m.dfltPois p.1) := by
  simp only [wf, Bool.and_eq_true, List.all_eq_true, Bool.not_eq_true', beq_eq_false_iff_ne]
  tauto

theorem wf_setByte (m : Memory) (a : Nat) (v : Byte) (h : m.wf = true) : (m.setByte a v).wf = true := by
  rw [wf_iff] at h ⊢
  exact ⟨⟨SMap.sorted_setD _ _ _ _ h.1.1, SMap.noDefault_setD _ _ m.dflt _ h.1.2⟩, h.2⟩

theorem wf_mark (m : Memory) (g : Nat) (v : Bool) (h : m.wf = true) : (m.mark g v).wf = true := by
  rw [wf_iff] at h ⊢
  exact ⟨h.1, ⟨SMap.sorted_setD _ _ _ _ h.2.1, SMap.noDefault_setD _ _ m.dfltPois _ h.2.2⟩⟩

theorem wf_write (m : Memory) (a : Nat) (bs : List Byte) (h : m.wf = true) : (m.write a bs).wf = true := by
  induction bs generalizing m a with
  | nil => exact h
  | cons b bs ih => exact ih _ _ (wf_setByte m a b h)

theorem wf_foldl {β : Type} (l : List β) (g : Memory → β → Memory) (hg : ∀ m x, m.wf = true → (g m x).wf = true) (m : Memory)
    (h : m.wf = true) : (l.foldl g m).wf = true := by
  induction l generalizing m with
  | nil => exact h
  | cons x l ih => exact ih _ (hg m x h)

theorem wf_taint (m : Memory) (a n : Nat) (h : m.wf = true) : (m.taint a n).wf = true :=
  wf_foldl _ _ (fun m g h => wf_mark m g true h) _ h

theorem wf_clean (m : Memory) (a n : Nat) (h : m.wf = true) : (m.clean a n).wf = true :=
  wf_foldl _ _ (fun m g h => by split; exact wf_mark m g false h; exact h) _ h

theorem wf_store (m : Memory) (a : Nat) (bs : List Byte) (p : Bool) (h : m.wf = true) : (m.store a bs p).wf = true := by
  unfold store
  split
  · exact wf_taint _ _ _ (wf_write _ _ _ h)
  · exact wf_clean _ _ _ (wf_write _ _ _ h)

theorem wf_storeP (m : Memory) (a : Nat) (bs : List (Byte × Bool)) (h : m.wf = true) : (m.storeP a bs).wf = true := by
  unfold storeP
  refine wf_foldl _ _ (fun m g h => ?_) _ (wf_write _ _ _ h)
  split
  · exact wf_mark m g true h
  · split
    · exact wf_mark m g false h
    · exact h

/-! ## Ranges: cutting, keeping, forgetting, joining -/

theorem find?_flatMap_same {β γ : Type} (l : List β) (g : β → List β) (q : β → Bool) (r : β → γ)
    (hsome : ∀ u, q u = true → ∃ v, (g u).find? q = some v ∧ r v = r u) (hnone : ∀ u, q u = false → (g u).find? q = none) :
    ((l.flatMap g).find? q).map r = (l.find? q).map r := by
  induction l with
  | nil => rfl
  | cons u l ih =>
    rw [List.flatMap_cons, List.find?_append, List.find?_cons]
    cases hu : q u with
    | true =>
      obtain ⟨v, hv, hr⟩ := hsome u hu
      simp [hv, hr]
    | false => simpa [hnone u hu] using ih

theorem find?_flatMap_none {β : Type} (l : List β) (g : β → List β) (q : β → Bool) (h : ∀ u, (g u).find? q = none) :
    (l.flatMap g).find? q = none := by
  induction l with
  | nil => rfl
  | cons u l ih => rw [List.flatMap_cons, List.find?_append, h, ih]; rfl

/-- Outside the range that is cut, an address lies in a range of the same seed as before. -/
theorem undefAt_cut_outside (m : Memory) (lo hi a : Nat) (h : inside lo hi a = false) :
    ((m.cut lo hi).undefAt a).map (·.seed) = (m.undefAt a).map (·.seed) := by
  refine find?_flatMap_same _ _ _ _ (fun u hu => ?_) (fun u hu => ?_)
  · simp only [Bool.and_eq_true, decide_eq_true_eq] at hu
    simp only [inside, Bool.and_eq_false_iff, decide_eq_false_iff_not, Nat.not_le, Nat.not_lt] at h
    by_cases hl : a < lo
    · refine ⟨⟨u.lo, min u.hi lo, u.seed⟩, ?_, rfl⟩
      have e : u.lo < min u.hi lo := by omega
      simp [cutUndef, e]
      omega
    · refine ⟨⟨max u.lo hi, u.hi, u.seed⟩, ?_, rfl⟩
      have e : max u.lo hi < u.hi := by omega
      have e2 : ¬ (u.lo ≤ a ∧ a < min u.hi lo) := by omega
      by_cases e1 : u.lo < min u.hi lo <;> simp [cutUndef, e, e1] <;> omega
  · simp only [Bool.and_eq_false_iff, decide_eq_false_iff_not, Nat.not_le, Nat.not_lt] at hu
    rw [List.find?_eq_none]
    intro v hv
    simp only [cutUndef, List.mem_filter, List.mem_cons, List.not_mem_nil, or_false, decide_eq_true_eq] at hv
    simp only [Bool.and_eq_true, decide_eq_true_eq, not_and, Nat.not_lt]
    rcases hv with ⟨rfl | rfl, hv⟩ <;> intro <;> dsimp only at * <;> omega

/-- Inside the range that is cut, nothing is undefined. -/
theorem undefAt_cut_inside (m : Memory) (lo hi a : Nat) (h : inside lo hi a = true) : (m.cut lo hi).undefAt a = none := by
  refine find?_flatMap_none _ _ _ (fun u => ?_)
  simp only [inside, Bool.and_eq_true, decide_eq_true_eq] at h
  rw [List.find?_eq_none]
  intro v hv
  simp only [cutUndef, List.mem_filter, List.mem_cons, List.not_mem_nil, or_false, decide_eq_true_eq] at hv
  simp only [Bool.and_eq_true, decide_eq_true_eq, not_and, Nat.not_lt]
  rcases hv with ⟨rfl | rfl, hv⟩ <;> intro <;> dsimp only at * <;> omega

/-- The same for the range that is kept. -/
theorem undefAt_clip_inside (m : Memory) (lo hi a : Nat) (h : inside lo hi a = true) :
    ((m.clip lo hi).undefAt a).map (·.seed) = (m.undefAt a).map (·.seed) := by
  simp only [inside, Bool.and_eq_true, decide_eq_true_eq] at h
  refine find?_flatMap_same _ _ _ _ (fun u hu => ?_) (fun u hu => ?_)
  · simp only [Bool.and_eq_true, decide_eq_true_eq] at hu
    refine ⟨⟨max u.lo lo, min u.hi hi, u.seed⟩, ?_, rfl⟩
    have e : max u.lo lo < min u.hi hi := by omega
    simp [clipUndef, e]
    omega
  · simp only [Bool.and_eq_false_iff, decide_eq_false_iff_not, Nat.not_le, Nat.not_lt] at hu
    rw [List.find?_eq_none]
    intro v hv
    simp only [clipUndef, List.mem_filter, List.mem_cons, List.not_mem_nil, or_false, decide_eq_true_eq] at hv
    simp only [Bool.and_eq_true, decide_eq_true_eq, not_and, Nat.not_lt]
    rcases hv with ⟨rfl, hv⟩
    intro
    dsimp only at *
    omega

theorem dflt_of_seed {m n : Memory} (a : Nat) (h : (n.undefAt a).map (·.seed) = (m.undefAt a).map (·.seed)) : n.dflt a = m.dflt a := by
  unfold dflt
  cases hn : n.undefAt a <;> cases hm : m.undefAt a <;> simp_all

theorem dfltPois_of_seed {m n : Memory} (a : Nat) (h : (n.undefAt a).map (·.seed) = (m.undefAt a).map (·.seed)) :
    n.dfltPois a = m.dfltPois a := by
  unfold dfltPois
  cases hn : n.undefAt a <;> cases hm : m.undefAt a <;> simp_all

/-- A memory with part of another's listing is canonical where both have the same seeds on that part. -/
theorem wf_filter (m : Memory) (q : Nat → Bool) (u : List Undef) (h : m.wf = true)
    (hs : ∀ a, q a = true → ((Memory.undefAt ⟨[], u, []⟩ a).map (·.seed)) = (m.undefAt a).map (·.seed)) :
    Memory.wf ⟨m.cells.filter fun p => q p.1, u, m.pois.filter fun p => q p.1⟩ = true := by
  rw [wf_iff] at h ⊢
  refine ⟨⟨SMap.sorted_filter _ _ h.1.1, fun p hp => ?_⟩, ⟨SMap.sorted_filter _ _ h.2.1, fun p hp => ?_⟩⟩
  · have hq := List.mem_filter.mp hp
    exact (dflt_of_seed (n := ⟨m.cells.filter fun p => q p.1, u, m.pois.filter fun p => q p.1⟩) p.1 (hs p.1 hq.2)) ▸ h.1.2 p hq.1
  · have hq := List.mem_filter.mp hp
    exact (dfltPois_of_seed (n := ⟨m.cells.filter fun p => q p.1, u, m.pois.filter fun p => q p.1⟩) p.1 (hs p.1 hq.2)) ▸ h.2.2 p hq.1

theorem wf_cut (m : Memory) (lo hi : Nat) (h : m.wf = true) : (m.cut lo hi).wf = true :=
  wf_filter m (fun a => !inside lo hi a) _ h fun a ha => undefAt_cut_outside m lo hi a (by simpa using ha)

theorem wf_clip (m : Memory) (lo hi : Nat) (h : m.wf = true) : (m.clip lo hi).wf = true :=
  wf_filter m (inside lo hi) _ h fun a ha => undefAt_clip_inside m lo hi a ha

theorem wf_forget (m : Memory) (lo hi seed : Nat) (h : m.wf = true) : (m.forget lo hi seed).wf = true := by
  unfold forget
  split
  · exact h
  · refine wf_filter m (fun a => !inside lo hi a) _ h fun a ha => ?_
    have hi' : inside lo hi a = false := by simpa using ha
    have e : Memory.undefAt ⟨[], ⟨lo, hi, seed⟩ :: (m.cut lo hi).undef, []⟩ a = (m.cut lo hi).undefAt a := by
      unfold undefAt
      rw [List.find?_cons]
      simp only [inside] at hi'
      simp only [hi']
    rw [e]
    exact undefAt_cut_outside m lo hi a hi'

/-- Bytes of a range that is forgotten are free; the others are as before. -/
theorem byte_forget_outside (m : Memory) (lo hi seed a : Nat) (h : a < lo ∨ hi ≤ a) : (m.forget lo hi seed).byte a = m.byte a := by
  unfold forget
  split
  · rfl
  · have hi' : inside lo hi a = false := by simp [inside]; omega
    have e : ∀ c p, Memory.undefAt ⟨c, ⟨lo, hi, seed⟩ :: (m.cut lo hi).undef, p⟩ a = (m.cut lo hi).undefAt a := by
      intro c p
      unfold undefAt
      rw [List.find?_cons]
      simp only [inside] at hi'
      simp only [hi']
    have d : ∀ c p, Memory.dflt ⟨c, ⟨lo, hi, seed⟩ :: (m.cut lo hi).undef, p⟩ a = m.dflt a := fun c p =>
      dflt_of_seed (m := m) a (by rw [e c p]; exact undefAt_cut_outside m lo hi a hi')
    have g : SMap.get? (m.cells.filter fun p => !inside lo hi p.1) a = SMap.get? m.cells a := by
      generalize m.cells = l
      induction l with
      | nil => rfl
      | cons p l ih =>
        obtain ⟨i, x⟩ := p
        rw [List.filter_cons]
        split
        · rw [SMap.get?_cons, SMap.get?_cons, ih]
        · rename_i hn
          have : a ≠ i := fun e => hn (by subst e; simpa using hi')
          rw [SMap.get?_cons, ih, if_neg this]
    show SMap.getD (m.cells.filter fun p => !inside lo hi p.1) a _ = SMap.getD m.cells a _
    rw [SMap.getD, SMap.getD, g]
    exact congrArg _ (d _ _)

theorem sorted_foldl_put {β : Type} (l m : SMap β) (h : SMap.sorted m = true) :
    SMap.sorted (l.foldl (fun l p => SMap.put l p.1 p.2) m) = true := by
  induction l generalizing m with
  | nil => exact h
  | cons p l ih => exact ih _ (SMap.sorted_put _ _ _ h)

theorem mem_foldl_put {β : Type} (l m : SMap β) (p : Nat × β) (h : p ∈ l.foldl (fun l p => SMap.put l p.1 p.2) m) : p ∈ l ∨ p ∈ m := by
  induction l generalizing m with
  | nil => exact .inr h
  | cons q l ih =>
    rcases ih _ h with e | e
    · exact .inl (List.mem_cons_of_mem _ e)
    · rcases SMap.mem_put _ _ _ _ e with e | e
      · exact .inl (e ▸ List.mem_cons_self)
      · exact .inr e

theorem undefAt_join (m n : Memory) (a : Nat) : (m.join n).undefAt a = (n.undefAt a).or (m.undefAt a) := by
  simp [undefAt, join, List.find?_append]

/-- Two memories join into a canonical one when `n` alone defines what lies in its ranges: nothing `m` lists lies in an
undefined range of `n`, and nothing `n` lists outside those lies in one of `m`. -/
theorem wf_join (m n : Memory) (hm : m.wf = true) (hn : n.wf = true)
    (h1 : ∀ p ∈ m.cells, n.undefAt p.1 = none) (h2 : ∀ p ∈ n.cells, n.undefAt p.1 = none → m.undefAt p.1 = none)
    (h3 : ∀ p ∈ m.pois, n.undefAt p.1 = none) (h4 : ∀ p ∈ n.pois, n.undefAt p.1 = none → m.undefAt p.1 = none) :
    (m.join n).wf = true := by
  have left : ∀ a, n.undefAt a = none → (m.join n).undefAt a = m.undefAt a := fun a h => by rw [undefAt_join, h]; rfl
  have right : ∀ a, (n.undefAt a = none → m.undefAt a = none) → (m.join n).undefAt a = n.undefAt a := fun a h => by
    rw [undefAt_join]
    cases hu : n.undefAt a with
    | none => exact h hu
    | some u => rfl
  rw [wf_iff] at hm hn ⊢
  refine ⟨⟨sorted_foldl_put _ _ hm.1.1, fun p hp => ?_⟩, ⟨sorted_foldl_put _ _ hm.2.1, fun p hp => ?_⟩⟩
  · rcases mem_foldl_put _ _ _ hp with e | e
    · rw [dflt_of_seed (m := n) p.1 (by rw [right p.1 (h2 p e)])]
      exact hn.1.2 p e
    · rw [dflt_of_seed (m := m) p.1 (by rw [left p.1 (h1 p e)])]
      exact hm.1.2 p e
  · rcases mem_foldl_put _ _ _ hp with e | e
    · rw [dfltPois_of_seed (m := n) p.1 (by rw [right p.1 (h4 p e)])]
      exact hn.2.2 p e
    · rw [dfltPois_of_seed (m := m) p.1 (by rw [left p.1 (h3 p e)])]
      exact hm.2.2 p e

end Memory

theorem reset_memory_wf : State.reset.mem.wf = true := by decide

end Sys2Proof.Machine
end

