-- ==== Sys2Proof/Laws/State.lean ====
section
/-! SUPPORT. Sys2Proof/Laws/State.lean: what each update of the state leaves alone, field by field, and what a core's registers read after
a write. -/

namespace Sys2Proof.Machine

namespace State

variable (s : State)

/-! ## Updates and the fields they leave alone -/

@[simp] theorem emit_pending (o : Out) : (s.emit o).pending = s.pending := rfl
@[simp] theorem emit_now (o : Out) : (s.emit o).now = s.now := rfl
@[simp] theorem emit_fresh (o : Out) : (s.emit o).fresh = s.fresh := rfl
@[simp] theorem emit_mem (o : Out) : (s.emit o).mem = s.mem := rfl
@[simp] theorem emit_cores (o : Out) : (s.emit o).cores = s.cores := rfl
@[simp] theorem emit_progs (o : Out) : (s.emit o).progs = s.progs := rfl
@[simp] theorem emit_rot (o : Out) : (s.emit o).rot = s.rot := rfl
@[simp] theorem emit_sigs (o : Out) : (s.emit o).sigs = s.sigs := rfl
@[simp] theorem emit_atoms (o : Out) : (s.emit o).atoms = s.atoms := rfl
@[simp] theorem emit_regions (o : Out) : (s.emit o).regions = s.regions := rfl
@[simp] theorem emit_xunits (o : Out) : (s.emit o).xunits = s.xunits := rfl
@[simp] theorem emit_mcs (o : Out) : (s.emit o).mcs = s.mcs := rfl
@[simp] theorem emit_paused (o : Out) : (s.emit o).paused = s.paused := rfl
@[simp] theorem emit_nb (o : Out) : (s.emit o).nb = s.nb := rfl
@[simp] theorem emit_slice (o : Out) : (s.emit o).slice = s.slice := rfl
@[simp] theorem emit_turns (o : Out) : (s.emit o).turns = s.turns := rfl
@[simp] theorem emit_sterr (o : Out) : (s.emit o).sterr = s.sterr := rfl
@[simp] theorem emit_streams (o : Out) : (s.emit o).streams = s.streams := rfl
@[simp] theorem emit_sposts (o : Out) : (s.emit o).sposts = s.sposts := rfl
@[simp] theorem emit_kv (o : Out) : (s.emit o).kv = s.kv := rfl
@[simp] theorem emit_stems (o : Out) : (s.emit o).stems = s.stems := rfl
@[simp] theorem emit_sreq (o : Out) : (s.emit o).sreq = s.sreq := rfl
@[simp] theorem emit_ig (o : Out) : (s.emit o).ig = s.ig := rfl
@[simp] theorem emit_fab (o : Out) : (s.emit o).fab = s.fab := rfl
@[simp] theorem emit_tr (o : Out) : (s.emit o).tr = s.tr := rfl
@[simp] theorem emit_hp (o : Out) : (s.emit o).hp = s.hp := rfl
@[simp] theorem emit_mbx (o : Out) : (s.emit o).mbx = s.mbx := rfl
@[simp] theorem emit_dc (o : Out) : (s.emit o).dc = s.dc := rfl
@[simp] theorem emit_pw (o : Out) : (s.emit o).pw = s.pw := rfl
@[simp] theorem emit_blocks (o : Out) : (s.emit o).blocks = s.blocks := rfl
@[simp] theorem emit_tru (o : Out) : (s.emit o).tru = s.tru := rfl
@[simp] theorem emit_env (o : Out) : (s.emit o).env = s.env := rfl

@[simp] theorem setCore_pending (c : Nat) (k : Core) : (s.setCore c k).pending = s.pending := rfl
@[simp] theorem setCore_now (c : Nat) (k : Core) : (s.setCore c k).now = s.now := rfl
@[simp] theorem setCore_fresh (c : Nat) (k : Core) : (s.setCore c k).fresh = s.fresh := rfl
@[simp] theorem setCore_mem (c : Nat) (k : Core) : (s.setCore c k).mem = s.mem := rfl
@[simp] theorem setCore_progs (c : Nat) (k : Core) : (s.setCore c k).progs = s.progs := rfl
@[simp] theorem setCore_rot (c : Nat) (k : Core) : (s.setCore c k).rot = s.rot := rfl
@[simp] theorem setCore_sigs (c : Nat) (k : Core) : (s.setCore c k).sigs = s.sigs := rfl
@[simp] theorem setCore_atoms (c : Nat) (k : Core) : (s.setCore c k).atoms = s.atoms := rfl
@[simp] theorem setCore_regions (c : Nat) (k : Core) : (s.setCore c k).regions = s.regions := rfl
@[simp] theorem setCore_xunits (c : Nat) (k : Core) : (s.setCore c k).xunits = s.xunits := rfl
@[simp] theorem setCore_mcs (c : Nat) (k : Core) : (s.setCore c k).mcs = s.mcs := rfl
@[simp] theorem setCore_paused (c : Nat) (k : Core) : (s.setCore c k).paused = s.paused := rfl
@[simp] theorem setCore_nb (c : Nat) (k : Core) : (s.setCore c k).nb = s.nb := rfl
@[simp] theorem setCore_slice (c : Nat) (k : Core) : (s.setCore c k).slice = s.slice := rfl
@[simp] theorem setCore_turns (c : Nat) (k : Core) : (s.setCore c k).turns = s.turns := rfl
@[simp] theorem setCore_sterr (c : Nat) (k : Core) : (s.setCore c k).sterr = s.sterr := rfl
@[simp] theorem setCore_streams (c : Nat) (k : Core) : (s.setCore c k).streams = s.streams := rfl
@[simp] theorem setCore_sposts (c : Nat) (k : Core) : (s.setCore c k).sposts = s.sposts := rfl
@[simp] theorem setCore_kv (c : Nat) (k : Core) : (s.setCore c k).kv = s.kv := rfl
@[simp] theorem setCore_stems (c : Nat) (k : Core) : (s.setCore c k).stems = s.stems := rfl
@[simp] theorem setCore_sreq (c : Nat) (k : Core) : (s.setCore c k).sreq = s.sreq := rfl
@[simp] theorem setCore_ig (c : Nat) (k : Core) : (s.setCore c k).ig = s.ig := rfl
@[simp] theorem setCore_fab (c : Nat) (k : Core) : (s.setCore c k).fab = s.fab := rfl
@[simp] theorem setCore_tr (c : Nat) (k : Core) : (s.setCore c k).tr = s.tr := rfl
@[simp] theorem setCore_hp (c : Nat) (k : Core) : (s.setCore c k).hp = s.hp := rfl
@[simp] theorem setCore_mbx (c : Nat) (k : Core) : (s.setCore c k).mbx = s.mbx := rfl
@[simp] theorem setCore_dc (c : Nat) (k : Core) : (s.setCore c k).dc = s.dc := rfl
@[simp] theorem setCore_pw (c : Nat) (k : Core) : (s.setCore c k).pw = s.pw := rfl
@[simp] theorem setCore_blocks (c : Nat) (k : Core) : (s.setCore c k).blocks = s.blocks := rfl
@[simp] theorem setCore_tru (c : Nat) (k : Core) : (s.setCore c k).tru = s.tru := rfl
@[simp] theorem setCore_env (c : Nat) (k : Core) : (s.setCore c k).env = s.env := rfl
@[simp] theorem setCore_out (c : Nat) (k : Core) : (s.setCore c k).out = s.out := rfl

@[simp] theorem modCore_pending (c : Nat) (g : Core → Core) : (s.modCore c g).pending = s.pending := rfl
@[simp] theorem modCore_now (c : Nat) (g : Core → Core) : (s.modCore c g).now = s.now := rfl
@[simp] theorem modCore_fresh (c : Nat) (g : Core → Core) : (s.modCore c g).fresh = s.fresh := rfl
@[simp] theorem modCore_mem (c : Nat) (g : Core → Core) : (s.modCore c g).mem = s.mem := rfl
@[simp] theorem modCore_progs (c : Nat) (g : Core → Core) : (s.modCore c g).progs = s.progs := rfl
@[simp] theorem modCore_rot (c : Nat) (g : Core → Core) : (s.modCore c g).rot = s.rot := rfl
@[simp] theorem modCore_sigs (c : Nat) (g : Core → Core) : (s.modCore c g).sigs = s.sigs := rfl
@[simp] theorem modCore_atoms (c : Nat) (g : Core → Core) : (s.modCore c g).atoms = s.atoms := rfl
@[simp] theorem modCore_regions (c : Nat) (g : Core → Core) : (s.modCore c g).regions = s.regions := rfl
@[simp] theorem modCore_xunits (c : Nat) (g : Core → Core) : (s.modCore c g).xunits = s.xunits := rfl
@[simp] theorem modCore_mcs (c : Nat) (g : Core → Core) : (s.modCore c g).mcs = s.mcs := rfl
@[simp] theorem modCore_paused (c : Nat) (g : Core → Core) : (s.modCore c g).paused = s.paused := rfl
@[simp] theorem modCore_nb (c : Nat) (g : Core → Core) : (s.modCore c g).nb = s.nb := rfl
@[simp] theorem modCore_slice (c : Nat) (g : Core → Core) : (s.modCore c g).slice = s.slice := rfl
@[simp] theorem modCore_turns (c : Nat) (g : Core → Core) : (s.modCore c g).turns = s.turns := rfl
@[simp] theorem modCore_sterr (c : Nat) (g : Core → Core) : (s.modCore c g).sterr = s.sterr := rfl
@[simp] theorem modCore_streams (c : Nat) (g : Core → Core) : (s.modCore c g).streams = s.streams := rfl
@[simp] theorem modCore_sposts (c : Nat) (g : Core → Core) : (s.modCore c g).sposts = s.sposts := rfl
@[simp] theorem modCore_kv (c : Nat) (g : Core → Core) : (s.modCore c g).kv = s.kv := rfl
@[simp] theorem modCore_stems (c : Nat) (g : Core → Core) : (s.modCore c g).stems = s.stems := rfl
@[simp] theorem modCore_sreq (c : Nat) (g : Core → Core) : (s.modCore c g).sreq = s.sreq := rfl
@[simp] theorem modCore_ig (c : Nat) (g : Core → Core) : (s.modCore c g).ig = s.ig := rfl
@[simp] theorem modCore_fab (c : Nat) (g : Core → Core) : (s.modCore c g).fab = s.fab := rfl
@[simp] theorem modCore_tr (c : Nat) (g : Core → Core) : (s.modCore c g).tr = s.tr := rfl
@[simp] theorem modCore_hp (c : Nat) (g : Core → Core) : (s.modCore c g).hp = s.hp := rfl
@[simp] theorem modCore_mbx (c : Nat) (g : Core → Core) : (s.modCore c g).mbx = s.mbx := rfl
@[simp] theorem modCore_dc (c : Nat) (g : Core → Core) : (s.modCore c g).dc = s.dc := rfl
@[simp] theorem modCore_pw (c : Nat) (g : Core → Core) : (s.modCore c g).pw = s.pw := rfl
@[simp] theorem modCore_blocks (c : Nat) (g : Core → Core) : (s.modCore c g).blocks = s.blocks := rfl
@[simp] theorem modCore_tru (c : Nat) (g : Core → Core) : (s.modCore c g).tru = s.tru := rfl
@[simp] theorem modCore_env (c : Nat) (g : Core → Core) : (s.modCore c g).env = s.env := rfl
@[simp] theorem modCore_out (c : Nat) (g : Core → Core) : (s.modCore c g).out = s.out := rfl

@[simp] theorem modCtx_pending (c : Nat) (g : Ctx → Ctx) : (s.modCtx c g).pending = s.pending := rfl
@[simp] theorem modCtx_now (c : Nat) (g : Ctx → Ctx) : (s.modCtx c g).now = s.now := rfl
@[simp] theorem modCtx_fresh (c : Nat) (g : Ctx → Ctx) : (s.modCtx c g).fresh = s.fresh := rfl
@[simp] theorem modCtx_mem (c : Nat) (g : Ctx → Ctx) : (s.modCtx c g).mem = s.mem := rfl
@[simp] theorem modCtx_progs (c : Nat) (g : Ctx → Ctx) : (s.modCtx c g).progs = s.progs := rfl
@[simp] theorem modCtx_rot (c : Nat) (g : Ctx → Ctx) : (s.modCtx c g).rot = s.rot := rfl
@[simp] theorem modCtx_sigs (c : Nat) (g : Ctx → Ctx) : (s.modCtx c g).sigs = s.sigs := rfl
@[simp] theorem modCtx_atoms (c : Nat) (g : Ctx → Ctx) : (s.modCtx c g).atoms = s.atoms := rfl
@[simp] theorem modCtx_regions (c : Nat) (g : Ctx → Ctx) : (s.modCtx c g).regions = s.regions := rfl
@[simp] theorem modCtx_xunits (c : Nat) (g : Ctx → Ctx) : (s.modCtx c g).xunits = s.xunits := rfl
@[simp] theorem modCtx_mcs (c : Nat) (g : Ctx → Ctx) : (s.modCtx c g).mcs = s.mcs := rfl
@[simp] theorem modCtx_paused (c : Nat) (g : Ctx → Ctx) : (s.modCtx c g).paused = s.paused := rfl
@[simp] theorem modCtx_nb (c : Nat) (g : Ctx → Ctx) : (s.modCtx c g).nb = s.nb := rfl
@[simp] theorem modCtx_slice (c : Nat) (g : Ctx → Ctx) : (s.modCtx c g).slice = s.slice := rfl
@[simp] theorem modCtx_turns (c : Nat) (g : Ctx → Ctx) : (s.modCtx c g).turns = s.turns := rfl
@[simp] theorem modCtx_sterr (c : Nat) (g : Ctx → Ctx) : (s.modCtx c g).sterr = s.sterr := rfl
@[simp] theorem modCtx_streams (c : Nat) (g : Ctx → Ctx) : (s.modCtx c g).streams = s.streams := rfl
@[simp] theorem modCtx_sposts (c : Nat) (g : Ctx → Ctx) : (s.modCtx c g).sposts = s.sposts := rfl
@[simp] theorem modCtx_kv (c : Nat) (g : Ctx → Ctx) : (s.modCtx c g).kv = s.kv := rfl
@[simp] theorem modCtx_stems (c : Nat) (g : Ctx → Ctx) : (s.modCtx c g).stems = s.stems := rfl
@[simp] theorem modCtx_sreq (c : Nat) (g : Ctx → Ctx) : (s.modCtx c g).sreq = s.sreq := rfl
@[simp] theorem modCtx_ig (c : Nat) (g : Ctx → Ctx) : (s.modCtx c g).ig = s.ig := rfl
@[simp] theorem modCtx_fab (c : Nat) (g : Ctx → Ctx) : (s.modCtx c g).fab = s.fab := rfl
@[simp] theorem modCtx_tr (c : Nat) (g : Ctx → Ctx) : (s.modCtx c g).tr = s.tr := rfl
@[simp] theorem modCtx_hp (c : Nat) (g : Ctx → Ctx) : (s.modCtx c g).hp = s.hp := rfl
@[simp] theorem modCtx_mbx (c : Nat) (g : Ctx → Ctx) : (s.modCtx c g).mbx = s.mbx := rfl
@[simp] theorem modCtx_dc (c : Nat) (g : Ctx → Ctx) : (s.modCtx c g).dc = s.dc := rfl
@[simp] theorem modCtx_pw (c : Nat) (g : Ctx → Ctx) : (s.modCtx c g).pw = s.pw := rfl
@[simp] theorem modCtx_blocks (c : Nat) (g : Ctx → Ctx) : (s.modCtx c g).blocks = s.blocks := rfl
@[simp] theorem modCtx_tru (c : Nat) (g : Ctx → Ctx) : (s.modCtx c g).tru = s.tru := rfl
@[simp] theorem modCtx_env (c : Nat) (g : Ctx → Ctx) : (s.modCtx c g).env = s.env := rfl
@[simp] theorem modCtx_out (c : Nat) (g : Ctx → Ctx) : (s.modCtx c g).out = s.out := rfl

@[simp] theorem store_pending (a : Nat) (bs : List Byte) (p : Bool) : (s.store a bs p).pending = s.pending := rfl
@[simp] theorem store_now (a : Nat) (bs : List Byte) (p : Bool) : (s.store a bs p).now = s.now := rfl
@[simp] theorem store_fresh (a : Nat) (bs : List Byte) (p : Bool) : (s.store a bs p).fresh = s.fresh := rfl
@[simp] theorem store_cores (a : Nat) (bs : List Byte) (p : Bool) : (s.store a bs p).cores = s.cores := rfl
@[simp] theorem store_progs (a : Nat) (bs : List Byte) (p : Bool) : (s.store a bs p).progs = s.progs := rfl
@[simp] theorem store_rot (a : Nat) (bs : List Byte) (p : Bool) : (s.store a bs p).rot = s.rot := rfl
@[simp] theorem store_sigs (a : Nat) (bs : List Byte) (p : Bool) : (s.store a bs p).sigs = s.sigs := rfl
@[simp] theorem store_atoms (a : Nat) (bs : List Byte) (p : Bool) : (s.store a bs p).atoms = s.atoms := rfl
@[simp] theorem store_regions (a : Nat) (bs : List Byte) (p : Bool) : (s.store a bs p).regions = s.regions := rfl
@[simp] theorem store_xunits (a : Nat) (bs : List Byte) (p : Bool) : (s.store a bs p).xunits = s.xunits := rfl
@[simp] theorem store_mcs (a : Nat) (bs : List Byte) (p : Bool) : (s.store a bs p).mcs = s.mcs := rfl
@[simp] theorem store_paused (a : Nat) (bs : List Byte) (p : Bool) : (s.store a bs p).paused = s.paused := rfl
@[simp] theorem store_nb (a : Nat) (bs : List Byte) (p : Bool) : (s.store a bs p).nb = s.nb := rfl
@[simp] theorem store_slice (a : Nat) (bs : List Byte) (p : Bool) : (s.store a bs p).slice = s.slice := rfl
@[simp] theorem store_turns (a : Nat) (bs : List Byte) (p : Bool) : (s.store a bs p).turns = s.turns := rfl
@[simp] theorem store_sterr (a : Nat) (bs : List Byte) (p : Bool) : (s.store a bs p).sterr = s.sterr := rfl
@[simp] theorem store_streams (a : Nat) (bs : List Byte) (p : Bool) : (s.store a bs p).streams = s.streams := rfl
@[simp] theorem store_sposts (a : Nat) (bs : List Byte) (p : Bool) : (s.store a bs p).sposts = s.sposts := rfl
@[simp] theorem store_kv (a : Nat) (bs : List Byte) (p : Bool) : (s.store a bs p).kv = s.kv := rfl
@[simp] theorem store_stems (a : Nat) (bs : List Byte) (p : Bool) : (s.store a bs p).stems = s.stems := rfl
@[simp] theorem store_sreq (a : Nat) (bs : List Byte) (p : Bool) : (s.store a bs p).sreq = s.sreq := rfl
@[simp] theorem store_ig (a : Nat) (bs : List Byte) (p : Bool) : (s.store a bs p).ig = s.ig := rfl
@[simp] theorem store_fab (a : Nat) (bs : List Byte) (p : Bool) : (s.store a bs p).fab = s.fab := rfl
@[simp] theorem store_tr (a : Nat) (bs : List Byte) (p : Bool) : (s.store a bs p).tr = s.tr := rfl
@[simp] theorem store_hp (a : Nat) (bs : List Byte) (p : Bool) : (s.store a bs p).hp = s.hp := rfl
@[simp] theorem store_mbx (a : Nat) (bs : List Byte) (p : Bool) : (s.store a bs p).mbx = s.mbx := rfl
@[simp] theorem store_dc (a : Nat) (bs : List Byte) (p : Bool) : (s.store a bs p).dc = s.dc := rfl
@[simp] theorem store_pw (a : Nat) (bs : List Byte) (p : Bool) : (s.store a bs p).pw = s.pw := rfl
@[simp] theorem store_blocks (a : Nat) (bs : List Byte) (p : Bool) : (s.store a bs p).blocks = s.blocks := rfl
@[simp] theorem store_tru (a : Nat) (bs : List Byte) (p : Bool) : (s.store a bs p).tru = s.tru := rfl
@[simp] theorem store_env (a : Nat) (bs : List Byte) (p : Bool) : (s.store a bs p).env = s.env := rfl
@[simp] theorem store_out (a : Nat) (bs : List Byte) (p : Bool) : (s.store a bs p).out = s.out := rfl

@[simp] theorem forget_pending (lo hi : Nat) : (s.forget lo hi).pending = s.pending := rfl
@[simp] theorem forget_now (lo hi : Nat) : (s.forget lo hi).now = s.now := rfl
@[simp] theorem forget_cores (lo hi : Nat) : (s.forget lo hi).cores = s.cores := rfl
@[simp] theorem forget_progs (lo hi : Nat) : (s.forget lo hi).progs = s.progs := rfl
@[simp] theorem forget_rot (lo hi : Nat) : (s.forget lo hi).rot = s.rot := rfl
@[simp] theorem forget_sigs (lo hi : Nat) : (s.forget lo hi).sigs = s.sigs := rfl
@[simp] theorem forget_atoms (lo hi : Nat) : (s.forget lo hi).atoms = s.atoms := rfl
@[simp] theorem forget_regions (lo hi : Nat) : (s.forget lo hi).regions = s.regions := rfl
@[simp] theorem forget_xunits (lo hi : Nat) : (s.forget lo hi).xunits = s.xunits := rfl
@[simp] theorem forget_mcs (lo hi : Nat) : (s.forget lo hi).mcs = s.mcs := rfl
@[simp] theorem forget_paused (lo hi : Nat) : (s.forget lo hi).paused = s.paused := rfl
@[simp] theorem forget_nb (lo hi : Nat) : (s.forget lo hi).nb = s.nb := rfl
@[simp] theorem forget_slice (lo hi : Nat) : (s.forget lo hi).slice = s.slice := rfl
@[simp] theorem forget_turns (lo hi : Nat) : (s.forget lo hi).turns = s.turns := rfl
@[simp] theorem forget_sterr (lo hi : Nat) : (s.forget lo hi).sterr = s.sterr := rfl
@[simp] theorem forget_streams (lo hi : Nat) : (s.forget lo hi).streams = s.streams := rfl
@[simp] theorem forget_sposts (lo hi : Nat) : (s.forget lo hi).sposts = s.sposts := rfl
@[simp] theorem forget_kv (lo hi : Nat) : (s.forget lo hi).kv = s.kv := rfl
@[simp] theorem forget_stems (lo hi : Nat) : (s.forget lo hi).stems = s.stems := rfl
@[simp] theorem forget_sreq (lo hi : Nat) : (s.forget lo hi).sreq = s.sreq := rfl
@[simp] theorem forget_ig (lo hi : Nat) : (s.forget lo hi).ig = s.ig := rfl
@[simp] theorem forget_fab (lo hi : Nat) : (s.forget lo hi).fab = s.fab := rfl
@[simp] theorem forget_tr (lo hi : Nat) : (s.forget lo hi).tr = s.tr := rfl
@[simp] theorem forget_hp (lo hi : Nat) : (s.forget lo hi).hp = s.hp := rfl
@[simp] theorem forget_mbx (lo hi : Nat) : (s.forget lo hi).mbx = s.mbx := rfl
@[simp] theorem forget_dc (lo hi : Nat) : (s.forget lo hi).dc = s.dc := rfl
@[simp] theorem forget_pw (lo hi : Nat) : (s.forget lo hi).pw = s.pw := rfl
@[simp] theorem forget_blocks (lo hi : Nat) : (s.forget lo hi).blocks = s.blocks := rfl
@[simp] theorem forget_tru (lo hi : Nat) : (s.forget lo hi).tru = s.tru := rfl
@[simp] theorem forget_env (lo hi : Nat) : (s.forget lo hi).env = s.env := rfl
@[simp] theorem forget_out (lo hi : Nat) : (s.forget lo hi).out = s.out := rfl

@[simp] theorem setProg_pending (h : Nat) (p : Prog) : (s.setProg h p).pending = s.pending := rfl
@[simp] theorem setProg_now (h : Nat) (p : Prog) : (s.setProg h p).now = s.now := rfl
@[simp] theorem setProg_fresh (h : Nat) (p : Prog) : (s.setProg h p).fresh = s.fresh := rfl
@[simp] theorem setProg_mem (h : Nat) (p : Prog) : (s.setProg h p).mem = s.mem := rfl
@[simp] theorem setProg_cores (h : Nat) (p : Prog) : (s.setProg h p).cores = s.cores := rfl
@[simp] theorem setProg_rot (h : Nat) (p : Prog) : (s.setProg h p).rot = s.rot := rfl
@[simp] theorem setProg_sigs (h : Nat) (p : Prog) : (s.setProg h p).sigs = s.sigs := rfl
@[simp] theorem setProg_atoms (h : Nat) (p : Prog) : (s.setProg h p).atoms = s.atoms := rfl
@[simp] theorem setProg_regions (h : Nat) (p : Prog) : (s.setProg h p).regions = s.regions := rfl
@[simp] theorem setProg_xunits (h : Nat) (p : Prog) : (s.setProg h p).xunits = s.xunits := rfl
@[simp] theorem setProg_mcs (h : Nat) (p : Prog) : (s.setProg h p).mcs = s.mcs := rfl
@[simp] theorem setProg_paused (h : Nat) (p : Prog) : (s.setProg h p).paused = s.paused := rfl
@[simp] theorem setProg_nb (h : Nat) (p : Prog) : (s.setProg h p).nb = s.nb := rfl
@[simp] theorem setProg_slice (h : Nat) (p : Prog) : (s.setProg h p).slice = s.slice := rfl
@[simp] theorem setProg_turns (h : Nat) (p : Prog) : (s.setProg h p).turns = s.turns := rfl
@[simp] theorem setProg_sterr (h : Nat) (p : Prog) : (s.setProg h p).sterr = s.sterr := rfl
@[simp] theorem setProg_streams (h : Nat) (p : Prog) : (s.setProg h p).streams = s.streams := rfl
@[simp] theorem setProg_sposts (h : Nat) (p : Prog) : (s.setProg h p).sposts = s.sposts := rfl
@[simp] theorem setProg_kv (h : Nat) (p : Prog) : (s.setProg h p).kv = s.kv := rfl
@[simp] theorem setProg_stems (h : Nat) (p : Prog) : (s.setProg h p).stems = s.stems := rfl
@[simp] theorem setProg_sreq (h : Nat) (p : Prog) : (s.setProg h p).sreq = s.sreq := rfl
@[simp] theorem setProg_ig (h : Nat) (p : Prog) : (s.setProg h p).ig = s.ig := rfl
@[simp] theorem setProg_fab (h : Nat) (p : Prog) : (s.setProg h p).fab = s.fab := rfl
@[simp] theorem setProg_tr (h : Nat) (p : Prog) : (s.setProg h p).tr = s.tr := rfl
@[simp] theorem setProg_hp (h : Nat) (p : Prog) : (s.setProg h p).hp = s.hp := rfl
@[simp] theorem setProg_mbx (h : Nat) (p : Prog) : (s.setProg h p).mbx = s.mbx := rfl
@[simp] theorem setProg_dc (h : Nat) (p : Prog) : (s.setProg h p).dc = s.dc := rfl
@[simp] theorem setProg_pw (h : Nat) (p : Prog) : (s.setProg h p).pw = s.pw := rfl
@[simp] theorem setProg_blocks (h : Nat) (p : Prog) : (s.setProg h p).blocks = s.blocks := rfl
@[simp] theorem setProg_tru (h : Nat) (p : Prog) : (s.setProg h p).tru = s.tru := rfl
@[simp] theorem setProg_env (h : Nat) (p : Prog) : (s.setProg h p).env = s.env := rfl
@[simp] theorem setProg_out (h : Nat) (p : Prog) : (s.setProg h p).out = s.out := rfl

@[simp] theorem setBox_pending (p : Port) (b : Mailbox) : (s.setBox p b).pending = s.pending := rfl
@[simp] theorem setBox_now (p : Port) (b : Mailbox) : (s.setBox p b).now = s.now := rfl
@[simp] theorem setBox_fresh (p : Port) (b : Mailbox) : (s.setBox p b).fresh = s.fresh := rfl
@[simp] theorem setBox_mem (p : Port) (b : Mailbox) : (s.setBox p b).mem = s.mem := rfl
@[simp] theorem setBox_cores (p : Port) (b : Mailbox) : (s.setBox p b).cores = s.cores := rfl
@[simp] theorem setBox_progs (p : Port) (b : Mailbox) : (s.setBox p b).progs = s.progs := rfl
@[simp] theorem setBox_rot (p : Port) (b : Mailbox) : (s.setBox p b).rot = s.rot := rfl
@[simp] theorem setBox_sigs (p : Port) (b : Mailbox) : (s.setBox p b).sigs = s.sigs := rfl
@[simp] theorem setBox_atoms (p : Port) (b : Mailbox) : (s.setBox p b).atoms = s.atoms := rfl
@[simp] theorem setBox_regions (p : Port) (b : Mailbox) : (s.setBox p b).regions = s.regions := rfl
@[simp] theorem setBox_xunits (p : Port) (b : Mailbox) : (s.setBox p b).xunits = s.xunits := rfl
@[simp] theorem setBox_mcs (p : Port) (b : Mailbox) : (s.setBox p b).mcs = s.mcs := rfl
@[simp] theorem setBox_paused (p : Port) (b : Mailbox) : (s.setBox p b).paused = s.paused := rfl
@[simp] theorem setBox_nb (p : Port) (b : Mailbox) : (s.setBox p b).nb = s.nb := rfl
@[simp] theorem setBox_slice (p : Port) (b : Mailbox) : (s.setBox p b).slice = s.slice := rfl
@[simp] theorem setBox_turns (p : Port) (b : Mailbox) : (s.setBox p b).turns = s.turns := rfl
@[simp] theorem setBox_sterr (p : Port) (b : Mailbox) : (s.setBox p b).sterr = s.sterr := rfl
@[simp] theorem setBox_streams (p : Port) (b : Mailbox) : (s.setBox p b).streams = s.streams := rfl
@[simp] theorem setBox_sposts (p : Port) (b : Mailbox) : (s.setBox p b).sposts = s.sposts := rfl
@[simp] theorem setBox_kv (p : Port) (b : Mailbox) : (s.setBox p b).kv = s.kv := rfl
@[simp] theorem setBox_stems (p : Port) (b : Mailbox) : (s.setBox p b).stems = s.stems := rfl
@[simp] theorem setBox_sreq (p : Port) (b : Mailbox) : (s.setBox p b).sreq = s.sreq := rfl
@[simp] theorem setBox_ig (p : Port) (b : Mailbox) : (s.setBox p b).ig = s.ig := rfl
@[simp] theorem setBox_fab (p : Port) (b : Mailbox) : (s.setBox p b).fab = s.fab := rfl
@[simp] theorem setBox_tr (p : Port) (b : Mailbox) : (s.setBox p b).tr = s.tr := rfl
@[simp] theorem setBox_hp (p : Port) (b : Mailbox) : (s.setBox p b).hp = s.hp := rfl
@[simp] theorem setBox_dc (p : Port) (b : Mailbox) : (s.setBox p b).dc = s.dc := rfl
@[simp] theorem setBox_pw (p : Port) (b : Mailbox) : (s.setBox p b).pw = s.pw := rfl
@[simp] theorem setBox_blocks (p : Port) (b : Mailbox) : (s.setBox p b).blocks = s.blocks := rfl
@[simp] theorem setBox_tru (p : Port) (b : Mailbox) : (s.setBox p b).tru = s.tru := rfl
@[simp] theorem setBox_env (p : Port) (b : Mailbox) : (s.setBox p b).env = s.env := rfl
@[simp] theorem setBox_out (p : Port) (b : Mailbox) : (s.setBox p b).out = s.out := rfl

@[simp] theorem setFlags_pending (c : Nat) (w : W32) : (s.setFlags c w).pending = s.pending := rfl
@[simp] theorem setFlags_now (c : Nat) (w : W32) : (s.setFlags c w).now = s.now := rfl
@[simp] theorem setFlags_fresh (c : Nat) (w : W32) : (s.setFlags c w).fresh = s.fresh := rfl
@[simp] theorem setFlags_mem (c : Nat) (w : W32) : (s.setFlags c w).mem = s.mem := rfl
@[simp] theorem setFlags_progs (c : Nat) (w : W32) : (s.setFlags c w).progs = s.progs := rfl
@[simp] theorem setFlags_rot (c : Nat) (w : W32) : (s.setFlags c w).rot = s.rot := rfl
@[simp] theorem setFlags_sigs (c : Nat) (w : W32) : (s.setFlags c w).sigs = s.sigs := rfl
@[simp] theorem setFlags_atoms (c : Nat) (w : W32) : (s.setFlags c w).atoms = s.atoms := rfl
@[simp] theorem setFlags_regions (c : Nat) (w : W32) : (s.setFlags c w).regions = s.regions := rfl
@[simp] theorem setFlags_xunits (c : Nat) (w : W32) : (s.setFlags c w).xunits = s.xunits := rfl
@[simp] theorem setFlags_mcs (c : Nat) (w : W32) : (s.setFlags c w).mcs = s.mcs := rfl
@[simp] theorem setFlags_paused (c : Nat) (w : W32) : (s.setFlags c w).paused = s.paused := rfl
@[simp] theorem setFlags_nb (c : Nat) (w : W32) : (s.setFlags c w).nb = s.nb := rfl
@[simp] theorem setFlags_slice (c : Nat) (w : W32) : (s.setFlags c w).slice = s.slice := rfl
@[simp] theorem setFlags_turns (c : Nat) (w : W32) : (s.setFlags c w).turns = s.turns := rfl
@[simp] theorem setFlags_sterr (c : Nat) (w : W32) : (s.setFlags c w).sterr = s.sterr := rfl
@[simp] theorem setFlags_streams (c : Nat) (w : W32) : (s.setFlags c w).streams = s.streams := rfl
@[simp] theorem setFlags_sposts (c : Nat) (w : W32) : (s.setFlags c w).sposts = s.sposts := rfl
@[simp] theorem setFlags_kv (c : Nat) (w : W32) : (s.setFlags c w).kv = s.kv := rfl
@[simp] theorem setFlags_stems (c : Nat) (w : W32) : (s.setFlags c w).stems = s.stems := rfl
@[simp] theorem setFlags_sreq (c : Nat) (w : W32) : (s.setFlags c w).sreq = s.sreq := rfl
@[simp] theorem setFlags_ig (c : Nat) (w : W32) : (s.setFlags c w).ig = s.ig := rfl
@[simp] theorem setFlags_fab (c : Nat) (w : W32) : (s.setFlags c w).fab = s.fab := rfl
@[simp] theorem setFlags_tr (c : Nat) (w : W32) : (s.setFlags c w).tr = s.tr := rfl
@[simp] theorem setFlags_hp (c : Nat) (w : W32) : (s.setFlags c w).hp = s.hp := rfl
@[simp] theorem setFlags_mbx (c : Nat) (w : W32) : (s.setFlags c w).mbx = s.mbx := rfl
@[simp] theorem setFlags_dc (c : Nat) (w : W32) : (s.setFlags c w).dc = s.dc := rfl
@[simp] theorem setFlags_pw (c : Nat) (w : W32) : (s.setFlags c w).pw = s.pw := rfl
@[simp] theorem setFlags_blocks (c : Nat) (w : W32) : (s.setFlags c w).blocks = s.blocks := rfl
@[simp] theorem setFlags_tru (c : Nat) (w : W32) : (s.setFlags c w).tru = s.tru := rfl
@[simp] theorem setFlags_env (c : Nat) (w : W32) : (s.setFlags c w).env = s.env := rfl
@[simp] theorem setFlags_out (c : Nat) (w : W32) : (s.setFlags c w).out = s.out := rfl

@[simp] theorem setSel_pending (c v : Nat) (w : W64) : (s.setSel c v w).pending = s.pending := rfl
@[simp] theorem setSel_now (c v : Nat) (w : W64) : (s.setSel c v w).now = s.now := rfl
@[simp] theorem setSel_fresh (c v : Nat) (w : W64) : (s.setSel c v w).fresh = s.fresh := rfl
@[simp] theorem setSel_mem (c v : Nat) (w : W64) : (s.setSel c v w).mem = s.mem := rfl
@[simp] theorem setSel_progs (c v : Nat) (w : W64) : (s.setSel c v w).progs = s.progs := rfl
@[simp] theorem setSel_rot (c v : Nat) (w : W64) : (s.setSel c v w).rot = s.rot := rfl
@[simp] theorem setSel_sigs (c v : Nat) (w : W64) : (s.setSel c v w).sigs = s.sigs := rfl
@[simp] theorem setSel_atoms (c v : Nat) (w : W64) : (s.setSel c v w).atoms = s.atoms := rfl
@[simp] theorem setSel_regions (c v : Nat) (w : W64) : (s.setSel c v w).regions = s.regions := rfl
@[simp] theorem setSel_xunits (c v : Nat) (w : W64) : (s.setSel c v w).xunits = s.xunits := rfl
@[simp] theorem setSel_mcs (c v : Nat) (w : W64) : (s.setSel c v w).mcs = s.mcs := rfl
@[simp] theorem setSel_paused (c v : Nat) (w : W64) : (s.setSel c v w).paused = s.paused := rfl
@[simp] theorem setSel_nb (c v : Nat) (w : W64) : (s.setSel c v w).nb = s.nb := rfl
@[simp] theorem setSel_slice (c v : Nat) (w : W64) : (s.setSel c v w).slice = s.slice := rfl
@[simp] theorem setSel_turns (c v : Nat) (w : W64) : (s.setSel c v w).turns = s.turns := rfl
@[simp] theorem setSel_sterr (c v : Nat) (w : W64) : (s.setSel c v w).sterr = s.sterr := rfl
@[simp] theorem setSel_streams (c v : Nat) (w : W64) : (s.setSel c v w).streams = s.streams := rfl
@[simp] theorem setSel_sposts (c v : Nat) (w : W64) : (s.setSel c v w).sposts = s.sposts := rfl
@[simp] theorem setSel_kv (c v : Nat) (w : W64) : (s.setSel c v w).kv = s.kv := rfl
@[simp] theorem setSel_stems (c v : Nat) (w : W64) : (s.setSel c v w).stems = s.stems := rfl
@[simp] theorem setSel_sreq (c v : Nat) (w : W64) : (s.setSel c v w).sreq = s.sreq := rfl
@[simp] theorem setSel_ig (c v : Nat) (w : W64) : (s.setSel c v w).ig = s.ig := rfl
@[simp] theorem setSel_fab (c v : Nat) (w : W64) : (s.setSel c v w).fab = s.fab := rfl
@[simp] theorem setSel_tr (c v : Nat) (w : W64) : (s.setSel c v w).tr = s.tr := rfl
@[simp] theorem setSel_hp (c v : Nat) (w : W64) : (s.setSel c v w).hp = s.hp := rfl
@[simp] theorem setSel_mbx (c v : Nat) (w : W64) : (s.setSel c v w).mbx = s.mbx := rfl
@[simp] theorem setSel_dc (c v : Nat) (w : W64) : (s.setSel c v w).dc = s.dc := rfl
@[simp] theorem setSel_pw (c v : Nat) (w : W64) : (s.setSel c v w).pw = s.pw := rfl
@[simp] theorem setSel_blocks (c v : Nat) (w : W64) : (s.setSel c v w).blocks = s.blocks := rfl
@[simp] theorem setSel_tru (c v : Nat) (w : W64) : (s.setSel c v w).tru = s.tru := rfl
@[simp] theorem setSel_env (c v : Nat) (w : W64) : (s.setSel c v w).env = s.env := rfl
@[simp] theorem setSel_out (c v : Nat) (w : W64) : (s.setSel c v w).out = s.out := rfl

@[simp] theorem advance_pending (c pc : Nat) : (s.advance c pc).pending = s.pending := rfl
@[simp] theorem advance_now (c pc : Nat) : (s.advance c pc).now = s.now := rfl
@[simp] theorem advance_fresh (c pc : Nat) : (s.advance c pc).fresh = s.fresh := rfl
@[simp] theorem advance_mem (c pc : Nat) : (s.advance c pc).mem = s.mem := rfl
@[simp] theorem advance_progs (c pc : Nat) : (s.advance c pc).progs = s.progs := rfl
@[simp] theorem advance_rot (c pc : Nat) : (s.advance c pc).rot = s.rot := rfl
@[simp] theorem advance_sigs (c pc : Nat) : (s.advance c pc).sigs = s.sigs := rfl
@[simp] theorem advance_atoms (c pc : Nat) : (s.advance c pc).atoms = s.atoms := rfl
@[simp] theorem advance_regions (c pc : Nat) : (s.advance c pc).regions = s.regions := rfl
@[simp] theorem advance_xunits (c pc : Nat) : (s.advance c pc).xunits = s.xunits := rfl
@[simp] theorem advance_mcs (c pc : Nat) : (s.advance c pc).mcs = s.mcs := rfl
@[simp] theorem advance_paused (c pc : Nat) : (s.advance c pc).paused = s.paused := rfl
@[simp] theorem advance_nb (c pc : Nat) : (s.advance c pc).nb = s.nb := rfl
@[simp] theorem advance_slice (c pc : Nat) : (s.advance c pc).slice = s.slice := rfl
@[simp] theorem advance_turns (c pc : Nat) : (s.advance c pc).turns = s.turns := rfl
@[simp] theorem advance_sterr (c pc : Nat) : (s.advance c pc).sterr = s.sterr := rfl
@[simp] theorem advance_streams (c pc : Nat) : (s.advance c pc).streams = s.streams := rfl
@[simp] theorem advance_sposts (c pc : Nat) : (s.advance c pc).sposts = s.sposts := rfl
@[simp] theorem advance_kv (c pc : Nat) : (s.advance c pc).kv = s.kv := rfl
@[simp] theorem advance_stems (c pc : Nat) : (s.advance c pc).stems = s.stems := rfl
@[simp] theorem advance_sreq (c pc : Nat) : (s.advance c pc).sreq = s.sreq := rfl
@[simp] theorem advance_ig (c pc : Nat) : (s.advance c pc).ig = s.ig := rfl
@[simp] theorem advance_fab (c pc : Nat) : (s.advance c pc).fab = s.fab := rfl
@[simp] theorem advance_tr (c pc : Nat) : (s.advance c pc).tr = s.tr := rfl
@[simp] theorem advance_hp (c pc : Nat) : (s.advance c pc).hp = s.hp := rfl
@[simp] theorem advance_mbx (c pc : Nat) : (s.advance c pc).mbx = s.mbx := rfl
@[simp] theorem advance_dc (c pc : Nat) : (s.advance c pc).dc = s.dc := rfl
@[simp] theorem advance_pw (c pc : Nat) : (s.advance c pc).pw = s.pw := rfl
@[simp] theorem advance_blocks (c pc : Nat) : (s.advance c pc).blocks = s.blocks := rfl
@[simp] theorem advance_tru (c pc : Nat) : (s.advance c pc).tru = s.tru := rfl
@[simp] theorem advance_env (c pc : Nat) : (s.advance c pc).env = s.env := rfl
@[simp] theorem advance_out (c pc : Nat) : (s.advance c pc).out = s.out := rfl

@[simp] theorem wait_pending (c : Nat) (f : Frame) : (s.wait c f).pending = s.pending := rfl
@[simp] theorem wait_now (c : Nat) (f : Frame) : (s.wait c f).now = s.now := rfl
@[simp] theorem wait_fresh (c : Nat) (f : Frame) : (s.wait c f).fresh = s.fresh := rfl
@[simp] theorem wait_mem (c : Nat) (f : Frame) : (s.wait c f).mem = s.mem := rfl
@[simp] theorem wait_progs (c : Nat) (f : Frame) : (s.wait c f).progs = s.progs := rfl
@[simp] theorem wait_rot (c : Nat) (f : Frame) : (s.wait c f).rot = s.rot := rfl
@[simp] theorem wait_sigs (c : Nat) (f : Frame) : (s.wait c f).sigs = s.sigs := rfl
@[simp] theorem wait_atoms (c : Nat) (f : Frame) : (s.wait c f).atoms = s.atoms := rfl
@[simp] theorem wait_regions (c : Nat) (f : Frame) : (s.wait c f).regions = s.regions := rfl
@[simp] theorem wait_xunits (c : Nat) (f : Frame) : (s.wait c f).xunits = s.xunits := rfl
@[simp] theorem wait_mcs (c : Nat) (f : Frame) : (s.wait c f).mcs = s.mcs := rfl
@[simp] theorem wait_paused (c : Nat) (f : Frame) : (s.wait c f).paused = s.paused := rfl
@[simp] theorem wait_nb (c : Nat) (f : Frame) : (s.wait c f).nb = s.nb := rfl
@[simp] theorem wait_slice (c : Nat) (f : Frame) : (s.wait c f).slice = s.slice := rfl
@[simp] theorem wait_turns (c : Nat) (f : Frame) : (s.wait c f).turns = s.turns := rfl
@[simp] theorem wait_sterr (c : Nat) (f : Frame) : (s.wait c f).sterr = s.sterr := rfl
@[simp] theorem wait_streams (c : Nat) (f : Frame) : (s.wait c f).streams = s.streams := rfl
@[simp] theorem wait_sposts (c : Nat) (f : Frame) : (s.wait c f).sposts = s.sposts := rfl
@[simp] theorem wait_kv (c : Nat) (f : Frame) : (s.wait c f).kv = s.kv := rfl
@[simp] theorem wait_stems (c : Nat) (f : Frame) : (s.wait c f).stems = s.stems := rfl
@[simp] theorem wait_sreq (c : Nat) (f : Frame) : (s.wait c f).sreq = s.sreq := rfl
@[simp] theorem wait_ig (c : Nat) (f : Frame) : (s.wait c f).ig = s.ig := rfl
@[simp] theorem wait_fab (c : Nat) (f : Frame) : (s.wait c f).fab = s.fab := rfl
@[simp] theorem wait_tr (c : Nat) (f : Frame) : (s.wait c f).tr = s.tr := rfl
@[simp] theorem wait_hp (c : Nat) (f : Frame) : (s.wait c f).hp = s.hp := rfl
@[simp] theorem wait_mbx (c : Nat) (f : Frame) : (s.wait c f).mbx = s.mbx := rfl
@[simp] theorem wait_dc (c : Nat) (f : Frame) : (s.wait c f).dc = s.dc := rfl
@[simp] theorem wait_pw (c : Nat) (f : Frame) : (s.wait c f).pw = s.pw := rfl
@[simp] theorem wait_blocks (c : Nat) (f : Frame) : (s.wait c f).blocks = s.blocks := rfl
@[simp] theorem wait_tru (c : Nat) (f : Frame) : (s.wait c f).tru = s.tru := rfl
@[simp] theorem wait_env (c : Nat) (f : Frame) : (s.wait c f).env = s.env := rfl
@[simp] theorem wait_out (c : Nat) (f : Frame) : (s.wait c f).out = s.out := rfl

theorem event_frame (cls st : Nat) (x y : W64) : s.event cls st x y = { s with dc := (s.event cls st x y).dc, out := (s.event cls st x y).out } := by
  unfold event
  dsimp only
  split
  · rfl
  · split <;> rfl

@[simp] theorem event_pending (cls st : Nat) (x y : W64) : (s.event cls st x y).pending = s.pending := by rw [event_frame]
@[simp] theorem event_now (cls st : Nat) (x y : W64) : (s.event cls st x y).now = s.now := by rw [event_frame]
@[simp] theorem event_fresh (cls st : Nat) (x y : W64) : (s.event cls st x y).fresh = s.fresh := by rw [event_frame]
@[simp] theorem event_mem (cls st : Nat) (x y : W64) : (s.event cls st x y).mem = s.mem := by rw [event_frame]
@[simp] theorem event_cores (cls st : Nat) (x y : W64) : (s.event cls st x y).cores = s.cores := by rw [event_frame]
@[simp] theorem event_progs (cls st : Nat) (x y : W64) : (s.event cls st x y).progs = s.progs := by rw [event_frame]
@[simp] theorem event_rot (cls st : Nat) (x y : W64) : (s.event cls st x y).rot = s.rot := by rw [event_frame]
@[simp] theorem event_sigs (cls st : Nat) (x y : W64) : (s.event cls st x y).sigs = s.sigs := by rw [event_frame]
@[simp] theorem event_atoms (cls st : Nat) (x y : W64) : (s.event cls st x y).atoms = s.atoms := by rw [event_frame]
@[simp] theorem event_regions (cls st : Nat) (x y : W64) : (s.event cls st x y).regions = s.regions := by rw [event_frame]
@[simp] theorem event_xunits (cls st : Nat) (x y : W64) : (s.event cls st x y).xunits = s.xunits := by rw [event_frame]
@[simp] theorem event_mcs (cls st : Nat) (x y : W64) : (s.event cls st x y).mcs = s.mcs := by rw [event_frame]
@[simp] theorem event_paused (cls st : Nat) (x y : W64) : (s.event cls st x y).paused = s.paused := by rw [event_frame]
@[simp] theorem event_nb (cls st : Nat) (x y : W64) : (s.event cls st x y).nb = s.nb := by rw [event_frame]
@[simp] theorem event_slice (cls st : Nat) (x y : W64) : (s.event cls st x y).slice = s.slice := by rw [event_frame]
@[simp] theorem event_turns (cls st : Nat) (x y : W64) : (s.event cls st x y).turns = s.turns := by rw [event_frame]
@[simp] theorem event_sterr (cls st : Nat) (x y : W64) : (s.event cls st x y).sterr = s.sterr := by rw [event_frame]
@[simp] theorem event_streams (cls st : Nat) (x y : W64) : (s.event cls st x y).streams = s.streams := by rw [event_frame]
@[simp] theorem event_sposts (cls st : Nat) (x y : W64) : (s.event cls st x y).sposts = s.sposts := by rw [event_frame]
@[simp] theorem event_kv (cls st : Nat) (x y : W64) : (s.event cls st x y).kv = s.kv := by rw [event_frame]
@[simp] theorem event_stems (cls st : Nat) (x y : W64) : (s.event cls st x y).stems = s.stems := by rw [event_frame]
@[simp] theorem event_sreq (cls st : Nat) (x y : W64) : (s.event cls st x y).sreq = s.sreq := by rw [event_frame]
@[simp] theorem event_ig (cls st : Nat) (x y : W64) : (s.event cls st x y).ig = s.ig := by rw [event_frame]
@[simp] theorem event_fab (cls st : Nat) (x y : W64) : (s.event cls st x y).fab = s.fab := by rw [event_frame]
@[simp] theorem event_tr (cls st : Nat) (x y : W64) : (s.event cls st x y).tr = s.tr := by rw [event_frame]
@[simp] theorem event_hp (cls st : Nat) (x y : W64) : (s.event cls st x y).hp = s.hp := by rw [event_frame]
@[simp] theorem event_mbx (cls st : Nat) (x y : W64) : (s.event cls st x y).mbx = s.mbx := by rw [event_frame]
@[simp] theorem event_pw (cls st : Nat) (x y : W64) : (s.event cls st x y).pw = s.pw := by rw [event_frame]
@[simp] theorem event_blocks (cls st : Nat) (x y : W64) : (s.event cls st x y).blocks = s.blocks := by rw [event_frame]
@[simp] theorem event_tru (cls st : Nat) (x y : W64) : (s.event cls st x y).tru = s.tru := by rw [event_frame]
@[simp] theorem event_env (cls st : Nat) (x y : W64) : (s.event cls st x y).env = s.env := by rw [event_frame]

theorem logErrSev_frame (v src code : Nat) (a : W64) (st : Nat) (d : List Byte) : s.logErrSev v src code a st d =
    { s with tru := (s.logErrSev v src code a st d).tru, dc := (s.logErrSev v src code a st d).dc, out := (s.logErrSev v src code a st d).out } := by
  unfold logErrSev
  dsimp only
  split
  · rfl
  · unfold event
    dsimp only
    split
    · rfl
    · split <;> rfl

@[simp] theorem logErrSev_pending (v src code : Nat) (a : W64) (st : Nat) (d : List Byte) : (s.logErrSev v src code a st d).pending = s.pending := by rw [logErrSev_frame]
@[simp] theorem logErrSev_now (v src code : Nat) (a : W64) (st : Nat) (d : List Byte) : (s.logErrSev v src code a st d).now = s.now := by rw [logErrSev_frame]
@[simp] theorem logErrSev_fresh (v src code : Nat) (a : W64) (st : Nat) (d : List Byte) : (s.logErrSev v src code a st d).fresh = s.fresh := by rw [logErrSev_frame]
@[simp] theorem logErrSev_mem (v src code : Nat) (a : W64) (st : Nat) (d : List Byte) : (s.logErrSev v src code a st d).mem = s.mem := by rw [logErrSev_frame]
@[simp] theorem logErrSev_cores (v src code : Nat) (a : W64) (st : Nat) (d : List Byte) : (s.logErrSev v src code a st d).cores = s.cores := by rw [logErrSev_frame]
@[simp] theorem logErrSev_progs (v src code : Nat) (a : W64) (st : Nat) (d : List Byte) : (s.logErrSev v src code a st d).progs = s.progs := by rw [logErrSev_frame]
@[simp] theorem logErrSev_rot (v src code : Nat) (a : W64) (st : Nat) (d : List Byte) : (s.logErrSev v src code a st d).rot = s.rot := by rw [logErrSev_frame]
@[simp] theorem logErrSev_sigs (v src code : Nat) (a : W64) (st : Nat) (d : List Byte) : (s.logErrSev v src code a st d).sigs = s.sigs := by rw [logErrSev_frame]
@[simp] theorem logErrSev_atoms (v src code : Nat) (a : W64) (st : Nat) (d : List Byte) : (s.logErrSev v src code a st d).atoms = s.atoms := by rw [logErrSev_frame]
@[simp] theorem logErrSev_regions (v src code : Nat) (a : W64) (st : Nat) (d : List Byte) : (s.logErrSev v src code a st d).regions = s.regions := by rw [logErrSev_frame]
@[simp] theorem logErrSev_xunits (v src code : Nat) (a : W64) (st : Nat) (d : List Byte) : (s.logErrSev v src code a st d).xunits = s.xunits := by rw [logErrSev_frame]
@[simp] theorem logErrSev_mcs (v src code : Nat) (a : W64) (st : Nat) (d : List Byte) : (s.logErrSev v src code a st d).mcs = s.mcs := by rw [logErrSev_frame]
@[simp] theorem logErrSev_paused (v src code : Nat) (a : W64) (st : Nat) (d : List Byte) : (s.logErrSev v src code a st d).paused = s.paused := by rw [logErrSev_frame]
@[simp] theorem logErrSev_nb (v src code : Nat) (a : W64) (st : Nat) (d : List Byte) : (s.logErrSev v src code a st d).nb = s.nb := by rw [logErrSev_frame]
@[simp] theorem logErrSev_slice (v src code : Nat) (a : W64) (st : Nat) (d : List Byte) : (s.logErrSev v src code a st d).slice = s.slice := by rw [logErrSev_frame]
@[simp] theorem logErrSev_turns (v src code : Nat) (a : W64) (st : Nat) (d : List Byte) : (s.logErrSev v src code a st d).turns = s.turns := by rw [logErrSev_frame]
@[simp] theorem logErrSev_sterr (v src code : Nat) (a : W64) (st : Nat) (d : List Byte) : (s.logErrSev v src code a st d).sterr = s.sterr := by rw [logErrSev_frame]
@[simp] theorem logErrSev_streams (v src code : Nat) (a : W64) (st : Nat) (d : List Byte) : (s.logErrSev v src code a st d).streams = s.streams := by rw [logErrSev_frame]
@[simp] theorem logErrSev_sposts (v src code : Nat) (a : W64) (st : Nat) (d : List Byte) : (s.logErrSev v src code a st d).sposts = s.sposts := by rw [logErrSev_frame]
@[simp] theorem logErrSev_kv (v src code : Nat) (a : W64) (st : Nat) (d : List Byte) : (s.logErrSev v src code a st d).kv = s.kv := by rw [logErrSev_frame]
@[simp] theorem logErrSev_stems (v src code : Nat) (a : W64) (st : Nat) (d : List Byte) : (s.logErrSev v src code a st d).stems = s.stems := by rw [logErrSev_frame]
@[simp] theorem logErrSev_sreq (v src code : Nat) (a : W64) (st : Nat) (d : List Byte) : (s.logErrSev v src code a st d).sreq = s.sreq := by rw [logErrSev_frame]
@[simp] theorem logErrSev_ig (v src code : Nat) (a : W64) (st : Nat) (d : List Byte) : (s.logErrSev v src code a st d).ig = s.ig := by rw [logErrSev_frame]
@[simp] theorem logErrSev_fab (v src code : Nat) (a : W64) (st : Nat) (d : List Byte) : (s.logErrSev v src code a st d).fab = s.fab := by rw [logErrSev_frame]
@[simp] theorem logErrSev_tr (v src code : Nat) (a : W64) (st : Nat) (d : List Byte) : (s.logErrSev v src code a st d).tr = s.tr := by rw [logErrSev_frame]
@[simp] theorem logErrSev_hp (v src code : Nat) (a : W64) (st : Nat) (d : List Byte) : (s.logErrSev v src code a st d).hp = s.hp := by rw [logErrSev_frame]
@[simp] theorem logErrSev_mbx (v src code : Nat) (a : W64) (st : Nat) (d : List Byte) : (s.logErrSev v src code a st d).mbx = s.mbx := by rw [logErrSev_frame]
@[simp] theorem logErrSev_pw (v src code : Nat) (a : W64) (st : Nat) (d : List Byte) : (s.logErrSev v src code a st d).pw = s.pw := by rw [logErrSev_frame]
@[simp] theorem logErrSev_blocks (v src code : Nat) (a : W64) (st : Nat) (d : List Byte) : (s.logErrSev v src code a st d).blocks = s.blocks := by rw [logErrSev_frame]
@[simp] theorem logErrSev_env (v src code : Nat) (a : W64) (st : Nat) (d : List Byte) : (s.logErrSev v src code a st d).env = s.env := by rw [logErrSev_frame]

/-! ## Cores -/

@[simp] theorem core_setCore_same (c : Nat) (k : Core) : (s.setCore c k).core c = k := SMap.getD_setD_same _ _ _ _
@[simp] theorem core_setCore_other (c d : Nat) (k : Core) (h : d ≠ c) : (s.setCore c k).core d = s.core d :=
  SMap.getD_setD_other _ _ _ _ _ _ h
@[simp] theorem core_modCore_same (c : Nat) (g : Core → Core) : (s.modCore c g).core c = g (s.core c) := core_setCore_same _ _ _
@[simp] theorem core_modCore_other (c d : Nat) (g : Core → Core) (h : d ≠ c) : (s.modCore c g).core d = s.core d :=
  core_setCore_other _ _ _ _ h
@[simp] theorem core_modCtx_same (c : Nat) (g : Ctx → Ctx) : (s.modCtx c g).core c = { s.core c with ctx := g (s.core c).ctx } :=
  core_modCore_same _ _ _
@[simp] theorem core_modCtx_other (c d : Nat) (g : Ctx → Ctx) (h : d ≠ c) : (s.modCtx c g).core d = s.core d :=
  core_modCore_other _ _ _ _ h
@[simp] theorem ctx_modCtx_same (c : Nat) (g : Ctx → Ctx) : (s.modCtx c g).ctx c = g (s.ctx c) := by simp [ctx]
@[simp] theorem ctx_modCtx_other (c d : Nat) (g : Ctx → Ctx) (h : d ≠ c) : (s.modCtx c g).ctx d = s.ctx d := by simp [ctx, h]
@[simp] theorem core_emit (c : Nat) (o : Out) : (s.emit o).core c = s.core c := rfl
@[simp] theorem core_store (c a : Nat) (bs : List Byte) (p : Bool) : (s.store a bs p).core c = s.core c := rfl
@[simp] theorem core_setProg (c h : Nat) (p : Prog) : (s.setProg h p).core c = s.core c := rfl
@[simp] theorem prog_setProg_same (h : Nat) (p : Prog) : (s.setProg h p).prog h = some p := SMap.get?_put_same _ _ _
@[simp] theorem prog_setProg_other (h k : Nat) (p : Prog) (e : k ≠ h) : (s.setProg h p).prog k = s.prog k :=
  SMap.get?_put_other _ _ _ _ e
@[simp] theorem core_advance_same (c pc : Nat) : (s.advance c pc).core c =
    { s.core c with ctx := { (s.core c).ctx with pc := pc, hold := none }, issued := (s.core c).step != 0 } :=
  core_modCore_same _ _ _
@[simp] theorem core_advance_other (c d pc : Nat) (h : d ≠ c) : (s.advance c pc).core d = s.core d := core_modCore_other _ _ _ _ h
@[simp] theorem ctx_advance_same (c pc : Nat) : (s.advance c pc).ctx c = { s.ctx c with pc := pc, hold := none } := by
  simp [ctx]
@[simp] theorem core_wait_other (c d : Nat) (f : Frame) (h : d ≠ c) : (s.wait c f).core d = s.core d := core_modCtx_other _ _ _ _ h

end State

/-! ## Registers -/

namespace Ctx

variable (x : Ctx)

@[simp] theorem getA_setA_same (i : Nat) (v : W64) (h : i < 16) : (x.setA i v).getA i = v := by
  simp [getA, setA, h]
@[simp] theorem getA_setA_other (i j : Nat) (v : W64) (h : j ≠ i) : (x.setA i v).getA j = x.getA j := by
  simp [getA, setA, Ne.symm h]
@[simp] theorem getL_setL_same (i : Nat) (v : W64) (h : i < 8) : (x.setL i v).getL i = v := by
  simp [getL, setL, h]
@[simp] theorem getL_setL_other (i j : Nat) (v : W64) (h : j ≠ i) : (x.setL i v).getL j = x.getL j := by
  simp [getL, setL, Ne.symm h]
@[simp] theorem getA_setL (i j : Nat) (v : W64) : (x.setL i v).getA j = x.getA j := rfl
@[simp] theorem getL_setA (i j : Nat) (v : W64) : (x.setA i v).getL j = x.getL j := rfl
@[simp] theorem flag_setFlag_same (n : Nat) (v : W32) : (x.setFlag n v).flag n = v := SMap.getD_setD_same _ _ _ _
@[simp] theorem flag_setFlag_other (n k : Nat) (v : W32) (h : k ≠ n) : (x.setFlag n v).flag k = x.flag k :=
  SMap.getD_setD_other _ _ _ _ _ _ h
@[simp] theorem getV_setV_same (n : Nat) (v : BitVec 1024) : (x.setV n v).getV n = v := SMap.getD_setD_same _ _ _ _
@[simp] theorem getV_setV_other (n k : Nat) (v : BitVec 1024) (h : k ≠ n) : (x.setV n v).getV k = x.getV k :=
  SMap.getD_setD_other _ _ _ _ _ _ h

/-- A predicate reads back what was written (R171). -/
theorem getP_setP_same (i : Nat) (v : Bool) (h : i < 8) : (x.setP i v).getP i = v := by
  have : i = 0 ∨ i = 1 ∨ i = 2 ∨ i = 3 ∨ i = 4 ∨ i = 5 ∨ i = 6 ∨ i = 7 := by omega
  rcases this with rfl | rfl | rfl | rfl | rfl | rfl | rfl | rfl <;> cases v <;> simp [getP, setP]

theorem getP_setP_other (i j : Nat) (v : Bool) (h : i < 8) (hj : j ≠ i) : (x.setP i v).getP j = x.getP j := by
  by_cases hb : j < 8
  · have h1 : i = 0 ∨ i = 1 ∨ i = 2 ∨ i = 3 ∨ i = 4 ∨ i = 5 ∨ i = 6 ∨ i = 7 := by omega
    have h2 : j = 0 ∨ j = 1 ∨ j = 2 ∨ j = 3 ∨ j = 4 ∨ j = 5 ∨ j = 6 ∨ j = 7 := by omega
    rcases h1 with rfl | rfl | rfl | rfl | rfl | rfl | rfl | rfl <;>
      rcases h2 with rfl | rfl | rfl | rfl | rfl | rfl | rfl | rfl <;> first | contradiction | (cases v <;> simp [getP, setP])
  · simp [getP, BitVec.getLsbD_of_ge _ _ (Nat.le_of_not_lt hb)]

end Ctx

/-! ## Mailboxes -/

theorem portNo_inj (p q : Port) (h : portNo p = portNo q) : p = q := by
  cases p <;> cases q <;> first | rfl | (simp [portNo] at h)

@[simp] theorem State.box_setBox_same (s : State) (p : Port) (b : Mailbox) : (s.setBox p b).box p = b := SMap.getD_setD_same _ _ _ _
@[simp] theorem State.box_setBox_other (s : State) (p q : Port) (b : Mailbox) (h : q ≠ p) : (s.setBox p b).box q = s.box q :=
  SMap.getD_setD_other _ _ _ _ _ _ fun e => h (portNo_inj _ _ e)

end Sys2Proof.Machine
end

