-- ==== Sys2Proof/Laws/Issue.lean ====
section
/-! SUPPORT. Sys2Proof/Laws/Issue.lean: what issuing an instruction comes to when its core is ready for it. -/

namespace Sys2Proof.Machine

theorem decodeCheck_of_zero {f : Frame} {rs : List (Nat × Nat)} {good : Bool} (cause : Nat) (z : Zero f rs) (g : good = true) :
    decodeCheck f cause rs good = none := by
  have : rs.all (fun r => fld f r.1 r.2 == 0) = true := by simpa [List.all_eq_true] using z.2
  simp [decodeCheck, z.1, this, g]

theorem State.startOp_ready {s : State} {c : Nat} {f : Frame} {regs : List Nat} (R : Ready s c f regs) (op : Nat) (h : opcode f = op)
    (run : State → State) : s.startOp op c f run = run s := by
  have e : (match (s.core c).ctx.hold with | some w => w.frame == f | none => true) = true := by
    have q := R.front
    unfold State.ctx at q
    cases hw : (s.core c).ctx.hold with
    | none => rfl
    | some w => simpa using q w hw
  unfold startOp start
  simp only [h, if_true, R.runs, R.clock, R.fresh, decide_true, Bool.not_false, Bool.and_true, Bool.true_and]
  exact if_pos e

/-- An instruction whose core is ready comes to what its meaning answers. -/
theorem State.issueCore_ready {s : State} {c : Nat} {f : Frame} {regs : List Nat} (R : Ready s c f regs) (body : Ins → State → IRes) :
    ∃ p, s.prog (s.core c).holder = some p ∧ s.issueCore c f none regs body =
      match body (s.ins c f) s with
      | .hold => s.wait c f
      | .queue lane foot dst => s.intoQueue c f lane foot dst
      | .done t => s.pass t c
      | .stop t => t
      | .jump t a => if a < 0 || (p.textLen : Int) ≤ a then t.fault c (s.ctx c).pc f (faultOf 6 0 a.toNat) else t.advance c a.toNat
      | .fault t i => t.fault c (s.ctx c).pc f i := by
  obtain ⟨p, hp, ht⟩ := R.text
  refine ⟨p, hp, ?_⟩
  have hd : (drain f && !(s.works c (s.core c).holder).isEmpty) = false := by
    cases h : drain f with
    | false => rfl
    | true => simp [R.drained h]
  unfold issueCore
  simp only [hp, R.clean, R.pred, hd, R.regs, Nat.not_le.mpr ht, if_false, Bool.not_true, Bool.false_eq_true]
  rfl

theorem State.issueCore_done {s t : State} {c : Nat} {f : Frame} {regs : List Nat} (R : Ready s c f regs) {body : Ins → State → IRes}
    (h : body (s.ins c f) s = .done t) : s.issueCore c f none regs body = s.pass t c := by
  obtain ⟨p, -, e⟩ := State.issueCore_ready R body
  rw [e, h]

theorem State.issueCore_fault {s t : State} {c : Nat} {f : Frame} {regs : List Nat} {x : FaultInfo} (R : Ready s c f regs)
    {body : Ins → State → IRes} (h : body (s.ins c f) s = .fault t x) :
    s.issueCore c f none regs body = t.fault c (s.ctx c).pc f x := by
  obtain ⟨p, -, e⟩ := State.issueCore_ready R body
  rw [e, h]

theorem State.issueCore_hold {s : State} {c : Nat} {f : Frame} {regs : List Nat} (R : Ready s c f regs)
    {body : Ins → State → IRes} (h : body (s.ins c f) s = .hold) : s.issueCore c f none regs body = s.wait c f := by
  obtain ⟨p, -, e⟩ := State.issueCore_ready R body
  rw [e, h]

theorem State.issueCore_stop {s t : State} {c : Nat} {f : Frame} {regs : List Nat} (R : Ready s c f regs)
    {body : Ins → State → IRes} (h : body (s.ins c f) s = .stop t) : s.issueCore c f none regs body = t := by
  obtain ⟨p, -, e⟩ := State.issueCore_ready R body
  rw [e, h]

/-- A panel load only reads. -/
theorem PanelLoad.foot_reads (l : PanelLoad) : (∀ x ∈ l.foot.spans, x.wr = false) ∧ l.foot.vregs = [] := by
  have row : ∀ (b st n k : Nat), ∀ x ∈ rowSpan b st n k false, x.wr = false := by
    intro b st n k x hx
    unfold rowSpan at hx
    split at hx
    · cases hx
    · rw [List.mem_singleton] at hx; rw [hx]
  refine ⟨fun x hx => ?_, rfl⟩
  unfold PanelLoad.foot at hx
  simp only at hx
  split at hx
  · cases hx
  · rcases List.mem_append.mp hx with h | h
    · exact row _ _ _ _ x h
    · split at h
      · exact row _ _ _ _ x h
      · cases h

/-- An instruction of a unit's queue that finds the scoreboard and its pipeline free starts at once (R179, R180). -/
theorem State.admit_clear {s : State} {i : Ins} {lane : Nat} {f : Foot} (dst : List Nat) (go : IRes) (h : Starts s i lane f) :
    s.enterUnit i lane f dst go = go := by
  simp [State.enterUnit, h.1, h.2]

/-- What an instruction of the vector or row engine that nothing stops does. -/
theorem VOp.run_clear {v : VOp} {i : Ins} {s : State} (C : VOp.Clear v i s) : v.run i s = .done (v.act s) := by
  simp [VOp.run, C.sound, C.late, C.clean, C.open', State.admit_clear _ _ C.free]

/-- Where an instruction enters the matrix queue. -/
theorem State.enter_room {s : State} {i : Ins} {kind : MKind} {foot : Foot} (h : s.entries i.c < 8) (g : s.boardFull i foot = false) :
    s.enter i kind foot = .done (State.runMatrix 10 (s.enqueue i kind foot).2 i.c) := by
  unfold State.enter
  exact if_neg (by rw [g]; simp; exact h)

end Sys2Proof.Machine
end

