-- ==== Sys2Proof/Laws/Places.lean ====
section
/-! SUPPORT. Sys2Proof/Laws/Places.lean: where the addresses of a core's own memory lie (R24), and where accesses to them are served. -/

namespace Sys2Proof.Machine

theorem place_of_spad {c a : Nat} (hc : c < 3072) (h1 : spadOf c ≤ a) (h2 : a < spadOf c + spadSize) : place a = .spad c (a - spadOf c) := by
  have v1 : lpEnd = 1529008357376 := rfl
  have v2 : fwEnd = 1546188226560 := rfl
  have v3 : deckBase = 35184372088832 := rfl
  have v4 : spadBase = 36283883716608 := rfl
  have v5 : nCores = 3072 := rfl
  have v6 : deckSize = 3145728 := rfl
  have v7 : spadSize = 262144 := rfl
  simp only [place, spadOf, v1, v2, v3, v4, v5, v6, v7] at *
  rw [if_neg (by omega), if_neg (by omega), if_neg (by simp only [Bool.and_eq_true, decide_eq_true_eq]; omega),
    if_pos (by simp only [Bool.and_eq_true, decide_eq_true_eq]; omega)]
  have d : (a - 36283883716608) / 262144 = c := by omega
  have m : (a - 36283883716608) % 262144 = a - (36283883716608 + c * 262144) := by omega
  rw [d, m]

theorem place_of_deck {c a : Nat} (hc : c < 3072) (h1 : deckOf c ≤ a) (h2 : a < deckOf c + deckSize) : place a = .deck c (a - deckOf c) := by
  have v1 : lpEnd = 1529008357376 := rfl
  have v2 : fwEnd = 1546188226560 := rfl
  have v3 : deckBase = 35184372088832 := rfl
  have v5 : nCores = 3072 := rfl
  have v6 : deckSize = 3145728 := rfl
  simp only [place, deckOf, v1, v2, v3, v5, v6] at *
  rw [if_neg (by omega), if_neg (by omega), if_pos (by simp only [Bool.and_eq_true, decide_eq_true_eq]; omega)]
  have d : (a - 35184372088832) / 3145728 = c := by omega
  have m : (a - 35184372088832) % 3145728 = a - (35184372088832 + c * 3145728) := by omega
  rw [d, m]

/-- An access to a core's own memory is served in place while the program that has the core is switched in, or none has it. -/
theorem State.site_own {s : State} {c a n : Nat} (hm : s.inMap c = true) (hf : s.fab.fcu = 0) (h : ownRange c a n = true) (hn : 0 < n)
    (hs : ∀ h, s.servedBy c = some h → s.savedOf h c = none) : s.site a n = .mem ∧ State.mcOf a = none := by
  have v6 : deckSize = 3145728 := rfl
  have v7 : spadSize = 262144 := rfl
  have v8 : spillLo = 228352 := rfl
  have hc : c < 3072 := by
    unfold State.inMap at hm
    rw [Bool.and_eq_true, decide_eq_true_eq] at hm
    exact hm.1
  have served : ∀ use off : Nat, (match s.servedBy c with
      | none => State.Site.mem
      | some h =>
        match s.savedOf h c with
        | none => .mem
        | some v => if v.mem.isNone then .mem else if off + n ≤ use then .saved h c else .no) = .mem := by
    intro use off
    cases hq : s.servedBy c with
    | none => rfl
    | some q => simp only [hs q hq]
  simp only [ownRange, Bool.or_eq_true, Bool.and_eq_true, decide_eq_true_eq] at h
  rcases h with ⟨h1, h2⟩ | ⟨h1, h2⟩
  · have hp : place a = .spad c (a - spadOf c) := place_of_spad hc h1 (by omega)
    refine ⟨?_, by unfold State.mcOf; rw [hp]⟩
    unfold State.site
    rw [hp]
    have e5 : ¬ spillLo < a - spadOf c + n := by omega
    simp only [hm, e5, Bool.not_true, decide_false, Bool.or_self, Bool.false_eq_true, if_false]
    exact served _ _
  · have hp : place a = .deck c (a - deckOf c) := place_of_deck hc h1 (by omega)
    refine ⟨?_, by unfold State.mcOf; rw [hp]⟩
    unfold State.site
    rw [hp]
    have e5 : ¬ s.deckOpen < a - deckOf c + n := by
      unfold State.deckOpen
      rw [hf]
      omega
    simp only [hm, e5, Bool.not_true, decide_false, Bool.or_self, Bool.false_eq_true, if_false]
    exact served _ _

end Sys2Proof.Machine
end

