-- ==== Sys2Proof/Tests/Slice0.lean ====
section
/-! SUPPORT. Sys2Proof/Tests/Slice0.lean: ill-formed commands that the checks refuse, small tests of one step each with values
worked out by hand from the rule named, and for each statement a state and operands that meet its hypotheses. -/

set_option Elab.async false

namespace Sys2Proof.Tests

open Sys2Proof.Machine

/-! ## Small states -/

/-- The state that a command answers. -/
def after (i : Instr) (s : State) : State := match exec i s with | .next t => t | _ => s

/-- The device once its reset sequence has ended, with memory that reads as zero where nothing is listed. -/
def quiet : State :=
  { State.reset with
    mem := ⟨[], [], []⟩, dc := { Dc.reset with dstate := 1, fwok := true }, hp := { HostPort.reset with link := 2 }
    pw := { Power.reset with pstate := 3, seq := none }
    mcs := (List.range 12).map fun k => (k, { Mc.reset with trained := 0xFF }) }

/-- A program of 64 frames, running on core 0 alone. -/
def prog : Prog :=
  { st := 3, streets := 1, avenues := 1, entry := 0, textLen := 1024, spadUse := 0x10000, deckUse := 0x10000, save := 0x100000,
    saveLen := 0x60000, place := some (0, 0), slot := some 0, order := 0, arg := 0, recs := [], nfault := 0, runFrom := some 0,
    runCyc := 0, slice := 1000, still := 0, fail := false, switches := 0, saved := [], seed := 0 }

/-- Core 0 runs program 1 with the context given; its pc is 0x20. -/
def core (x : Ctx) : State :=
  { quiet with cores := [(0, { Core.idle with st := 1, holder := 1, ctx := { x with pc := 0x20 } })], progs := [(1, prog)] }

/-- The context of core 0. -/
def ctx (s : State) : Ctx := s.ctx 0

/-- A frame: its opcode, always executed, and fields `(low bit, value)`. -/
def frame (op : Nat) (fs : List (Nat × Nat)) : Frame := BitVec.ofNat 128 (fs.foldl (fun n p => n + p.2 * 2 ^ p.1) op)

/-- `Ready` as a check. -/
def readyB (s : State) (c : Nat) (f : Frame) (rs : List Nat) : Bool :=
  (s.core c).st == 1 && s.clocked c && !(s.core c).issued && (match (s.ctx c).hold with | none => true | some w => w.frame == f) &&
  (match s.prog (s.core c).holder with | none => false | some p => decide ((s.ctx c).pc < p.textLen)) &&
  !s.poisoned (textBase (s.core c).holder + (s.ctx c).pc) 16 && executes (s.ctx c) f &&
  (!drain f || (s.works c (s.core c).holder).isEmpty) && !State.regPending (s.ctx c) rs

theorem ready_of {s : State} {c : Nat} {f : Frame} {rs : List Nat} (h : readyB s c f rs = true) : Ready s c f rs := by
  simp only [readyB, Bool.and_eq_true, Bool.not_eq_true', beq_iff_eq, Bool.or_eq_true, List.isEmpty_iff] at h
  obtain ⟨⟨⟨⟨⟨⟨⟨⟨h1, h8⟩, h9⟩, h2⟩, h3⟩, h4⟩, h5⟩, h6⟩, h7⟩ := h
  refine ⟨h1, h8, h9, fun w hw => ?_, ?_, h4, h5, fun _ => ?_, h7⟩
  · rw [hw] at h2
    exact beq_iff_eq.1 h2
  · revert h3
    cases s.prog (s.core c).holder with
    | none => intro h3; cases h3
    | some p => exact fun h3 => ⟨p, rfl, of_decide_eq_true h3⟩
  · rename_i h10
    rcases h6 with h6 | h6
    · rw [h10] at h6
      cases h6
    · exact h6

/-- `Zero` as a check. -/
def zeroB (f : Frame) (rs : List (Nat × Nat)) : Bool := fld f 9 8 == 0 && rs.all fun r => fld f r.1 r.2 == 0

theorem zero_of {f : Frame} {rs : List (Nat × Nat)} (h : zeroB f rs = true) : Zero f rs := by
  simp only [zeroB, Bool.and_eq_true, beq_iff_eq, List.all_eq_true] at h
  exact h

/-! ## Ill-formed commands -/

def mbx (n : Nat) : MbxCmd := ⟨.host, 0, 0, 0, zeros n⟩
def pkt (n vl : Nat) : Packet := { pktBlank with data := zeros n, vl := vl }

theorem test_wf_core_number : (Instr.nop 3072 0).wf = false ∧ (Instr.nop 3071 0).wf = true := by decide
theorem test_wf_core_opcode : (Instr.nop 0 1).wf = false ∧ (Instr.seti 0 (frame 3 [])).wf = false := by decide
theorem test_wf_illegal_opcode : (Instr.illegalOpcode 0 (frame 0xCF [])).wf = false ∧ (Instr.unassignedOpcode 0 (frame 0xD0 [])).wf = false := by decide
theorem test_wf_halo_mode : (Instr.haloSend 0 (frame 0xA4 [(16, 1)])).wf = false ∧ (Instr.haloWait 0 (frame 0xA4 [(16, 2)])).wf = false ∧
    (Instr.haloRelease 0 (frame 0xA4 [(16, 0)])).wf = false := by decide
theorem test_wf_core_event : (Instr.passStart 3072).wf = false ∧ (Instr.walkComplete 0 1024).wf = false ∧ (Instr.stemReservation 3072).wf = false ∧
    (Instr.coreRetire 3072).wf = false ∧ (Instr.coDbgctlStep 3072 0).wf = false := by decide
theorem test_wf_payload : (Instr.cmdCommit (mbx 241)).wf = false ∧ (Instr.cmdCommit (mbx 240)).wf = true ∧
    (Instr.unassignedMailboxOpcode 0x200 (mbx 241)).wf = false := by decide +kernel
theorem test_wf_packet : (Instr.read 36 (pkt 0 0)).wf = false ∧ (Instr.write 0 (pkt 257 0)).wf = false ∧ (Instr.flag 0 (pkt 0 6)).wf = false := by
  decide +kernel
theorem test_wf_flit : (Instr.payloadFlit 0 (zeros 255)).wf = false ∧ (Instr.idleFlit 36 (zeros 256)).wf = false ∧
    (Instr.linkDown 36).wf = false ∧ (Instr.ackTimer 35).wf = true := by decide +kernel
theorem test_wf_stream : (Instr.copy (2 ^ 24)).wf = false ∧ (Instr.longCommandComplete (2 ^ 24)).wf = false := by decide
theorem test_wf_block : (Instr.blockResetIdle 0xC).wf = false ∧ (Instr.blockResetTmo 0x22).wf = false ∧ (Instr.blockReinitialised 0x60).wf = false := by
  decide
theorem test_wf_service : (Instr.discover ⟨2, 0, 0⟩).wf = false ∧ (Instr.mbxCmd ⟨0, 0, 0⟩ (zeros 257)).wf = false ∧
    (Instr.imgData ⟨0, 0, 0⟩ 0 (zeros 1025)).wf = false ∧ (Instr.imgReqRetry (2 ^ 32)).wf = false ∧ (Instr.conIn ⟨0, 0, 0⟩ (zeros 1025)).wf = false ∧
    (Instr.mctpMailboxCommand (zeros 257)).wf = false ∧ (Instr.arpRequest 2 0).wf = false ∧ (Instr.icmpEchoRequest 2 []).wf = false := by decide +kernel
theorem test_wf_units : (Instr.kvPageSpill 16).wf = false ∧ (Instr.frameRelease 16 0).wf = false ∧ (Instr.stemGrant 16).wf = false ∧
    (Instr.clipStart 8).wf = false ∧ (Instr.windowSlotSwitch 3084).wf = false ∧ (Instr.recalibrationPause 96 false).wf = false ∧
    (Instr.droopStop 48).wf = false ∧ (Instr.snapshotDrainLimit 8).wf = false ∧ (Instr.programSliceExpiry 1024).wf = false := by decide
theorem test_wf_sequences : (Instr.recordEviction (2 ^ 20)).wf = false ∧ (Instr.editLogSlotFree (2 ^ 32)).wf = false ∧
    (Instr.recordEviction (2 ^ 20 - 1)).wf = true := by decide
theorem test_wf_scrub : (Instr.patrolScrub (2 ^ 48) 1).wf = false ∧ (Instr.patrolScrub 0 3).wf = false := by decide
theorem test_wf_requests : (Instr.requestTimeout 65536).wf = false := by decide
theorem test_wf_training : (Instr.bucketStart 256).wf = false ∧ (Instr.segmentArrival 16).wf = false ∧ (Instr.phaseStart 4 0).wf = false ∧
    (Instr.phaseComplete 0 16).wf = false ∧ (Instr.straggler 256).wf = false := by decide
theorem test_wf_host : (Instr.bar0AccessInvalid true (2 ^ 26) 4).wf = false ∧ (Instr.bar0AccessInvalid true 0 0).wf = false ∧
    (Instr.plazaRead 0 0).wf = false ∧ (Instr.plazaWrite 0 []).wf = false ∧ (Instr.pzBaseWrite 3 0).wf = false ∧
    (Instr.pzFlushRead 4 8).wf = false ∧ (Instr.pzFlushRead 0 2).wf = false ∧ (Instr.apertureRead 0 (2 ^ 42) 4).wf = false ∧
    (Instr.apertureWrite 0 0 []).wf = false ∧ (Instr.flushAddressRead 0 4096).wf = false ∧ (Instr.registerWrite 2 4 0).wf = false ∧
    (Instr.registerWrite 0 2 0).wf = false ∧ (Instr.registerWrite (2 ^ 26) 4 0).wf = false := by decide

/-! ## Scalar instructions and control flow (R167 to R190) -/

/-- A context whose a-registers hold the given values. -/
def regs (vs : List (Nat × Nat)) : Ctx := vs.foldl (fun x v => x.setA v.1 (BitVec.ofNat 64 v.2)) Ctx.start

def nopF : Frame := frame 0x00 []
def setiF : Frame := frame 0x02 [(16, 3), (64, 0x1234)]
def saluF : Frame := frame 0x03 [(16, 1), (21, 2), (26, 3), (32, 1)]
def scmpF : Frame := frame 0x04 [(16, 5), (20, 2), (25, 3), (31, 4)]
def plogF : Frame := frame 0x05 [(16, 1), (19, 2), (22, 3), (25, 3), (27, 1)]
def frdF : Frame := frame 0x12 [(16, 4), (20, 7), (32, 1)]
def timeF : Frame := frame 0xC1 [(16, 6), (20, 1)]

/-- R172: 5 - 9 wraps. -/
theorem test_salu_subtracts : (ctx (after (.salu 0 saluF) (core (regs [(2, 5), (3, 9)])))).getA 1 = 0xFFFFFFFFFFFFFFFC := by decide +kernel
/-- R172: MULHU of two large numbers is the upper half, and the next frame follows. -/
theorem test_salu_mulhu : (let t := after (.salu 0 (frame 0x03 [(16, 2), (21, 2), (26, 3), (32, 0xD)])) (core (regs [(2, 2 ^ 63), (3, 6)]))
    (ctx t).getA 2 = 3 ∧ (ctx t).pc = 0x30) := by decide +kernel
/-- R173: an unsigned comparison sets its predicate. -/
theorem test_scmp_unsigned : (ctx (after (.scmp 0 scmpF) (core (regs [(2, 1), (3, 2 ^ 64 - 1)])))).getP 5 = true := by decide +kernel
/-- R173: AND-NOT inverted: NOT (p2 AND NOT p3). -/
theorem test_plog_andnot : (ctx (after (.plog 0 plogF) (core ((Ctx.start.setP 2 true).setP 1 true)))).getP 1 = false := by decide +kernel
theorem test_seti : (ctx (after (.seti 0 setiF) (core Ctx.start))).getA 3 = 0x1234 := by decide +kernel
/-- R185: FRD with CLR takes the flag. -/
theorem test_frd_clears : (let x := ctx (after (.frd 0 frdF) (core (Ctx.start.setFlag 7 9))); x.getA 4 = 9 ∧ x.flag 7 = 0) := by decide +kernel
theorem test_time_cycles : (ctx (after (.time 0 timeF) (core { Ctx.start with cycles := 77 }))).getA 6 = 77 := by decide +kernel
/-- R195: a TRAP faults its program with cause 0x07 and its CODE in the detail, and the core shows the record. -/
theorem test_trap_faults : (let t := after (.trap 0 (frame 0x17 [(16, 0xBEEF)])) (core Ctx.start)
    (t.prog 1).map (·.fail) = some true ∧ rd (t.core 0).fault 0 1 = 7 ∧ rd (t.core 0).fault 0x2C 4 = 0xBEEF) := by decide +kernel
/-- R165, R178: the last core's HALT halts the program. -/
theorem test_halt : (let t := after (.halt 0 (frame 0x01 [])) (core Ctx.start); (t.prog 1).map (·.st) = some 5 ∧ (t.core 0).st = 3) := by decide +kernel

theorem witness_ScalarInstructionResults :
    (Ready (core Ctx.start) 0 nopF [] ∧ opcode nopF = 0x00 ∧ Zero nopF [(127, 16)]) ∧
    (Ready (core Ctx.start) 0 setiF (selRegs (fld setiF 20 16)) ∧ opcode setiF = 0x02 ∧ Zero setiF [(63, 21)] ∧ fld setiF 20 16 < 0x18) ∧
    (Ready (core Ctx.start) 0 saluF (selRegs (fld saluF 20 16) ++ selRegs (fld saluF 25 21) ++
        if bitOf saluF 31 then [] else selRegs (fld saluF 30 26)) ∧ opcode saluF = 0x03 ∧ Zero saluF [(63, 36)] ∧ fld saluF 35 32 < 14 ∧
      fld saluF 20 16 < 0x18 ∧ fld saluF 25 21 ≤ 0x18 ∧ fld saluF 30 26 ≤ 0x18 ∧ (bitOf saluF 31 = true → fld saluF 30 26 = 0)) ∧
    (Ready (core Ctx.start) 0 scmpF (selRegs (fld scmpF 24 20) ++ if bitOf scmpF 30 then [] else selRegs (fld scmpF 29 25)) ∧
      opcode scmpF = 0x04 ∧ Zero scmpF [(63, 35), (19, 19)] ∧ fld scmpF 34 31 < 6 ∧ fld scmpF 24 20 ≤ 0x18 ∧ fld scmpF 29 25 ≤ 0x18 ∧
      (bitOf scmpF 30 = true → fld scmpF 29 25 = 0)) ∧
    (Ready (core Ctx.start) 0 plogF [] ∧ opcode plogF = 0x05 ∧ Zero plogF [(127, 28)]) ∧
    (Ready (core Ctx.start) 0 frdF [fld frdF 19 16] ∧ opcode frdF = 0x12 ∧ Zero frdF [(127, 33)]) ∧
    (Ready (core Ctx.start) 0 timeF [fld timeF 19 16] ∧ opcode timeF = 0xC1 ∧ Zero timeF [(127, 21)]) := by
  refine ⟨⟨ready_of ?_, ?_, zero_of ?_⟩, ⟨ready_of ?_, ?_, zero_of ?_, ?_⟩,
    ⟨ready_of ?_, ?_, zero_of ?_, ?_, ?_, ?_, ?_, ?_⟩, ⟨ready_of ?_, ?_, zero_of ?_, ?_, ?_, ?_, ?_⟩,
    ⟨ready_of ?_, ?_, zero_of ?_⟩, ⟨ready_of ?_, ?_, zero_of ?_⟩, ⟨ready_of ?_, ?_, zero_of ?_⟩⟩ <;> decide +kernel

def brF : Frame := frame 0x08 [(16, 2 ^ 32 - 1), (48, 5), (52, 1)]
def briF : Frame := frame 0x09 [(16, 3)]
def lendF : Frame := frame 0x0B [(16, 2), (20, 2 ^ 32 - 2)]

/-- R175: BR by -1 frame with LINK writes the offset of the following frame. -/
theorem test_br_links : (let x := ctx (after (.br 0 brF) (core Ctx.start)); x.pc = 0x10 ∧ x.getA 5 = 0x30) := by decide +kernel
/-- R175: BR by -3 frames from 0x20 leaves the text: cause 0x06. -/
theorem test_br_below_text : rd ((after (.br 0 (frame 0x08 [(16, 2 ^ 32 - 3)])) (core Ctx.start)).core 0).fault 0 1 = 6 := by decide +kernel
theorem test_bri : (ctx (after (.bri 0 briF) (core (regs [(3, 0x3F0)])))).pc = 0x3F0 := by decide +kernel
/-- R176: LEND with count 2 counts down and goes back; with 1 it falls through. -/
theorem test_lend : (let x := ctx (after (.lend 0 lendF) (core (Ctx.start.setL 2 2))); x.pc = 0 ∧ x.getL 2 = 1) ∧
    (let x := ctx (after (.lend 0 lendF) (core (Ctx.start.setL 2 1))); x.pc = 0x30 ∧ x.getL 2 = 0) := by decide +kernel

theorem witness_BranchesGoToTheirTargets : (core Ctx.start).prog ((core Ctx.start).core 0).holder = some prog ∧
    (Ready (core Ctx.start) 0 brF (if bitOf brF 52 then [fld brF 51 48] else []) ∧ opcode brF = 0x08 ∧ Zero brF [(127, 53)]) ∧
    (Ready (core Ctx.start) 0 briF (fld briF 19 16 :: if bitOf briF 20 then [fld briF 24 21] else []) ∧ opcode briF = 0x09 ∧ Zero briF [(127, 25)]) ∧
    (Ready (core Ctx.start) 0 lendF [16 + fld lendF 18 16] ∧ opcode lendF = 0x0B ∧ Zero lendF [(127, 52), (19, 19)]) := by
  refine ⟨rfl, ⟨ready_of ?_, ?_, zero_of ?_⟩, ⟨ready_of ?_, ?_, zero_of ?_⟩, ready_of ?_, ?_, zero_of ?_⟩ <;>
    decide +kernel

def sldF : Frame := frame 0x06 [(16, 1), (21, 2), (25, 1), (27, 1), (64, 8)]
def sstF : Frame := frame 0x07 [(16, 1), (21, 2), (25, 3), (64, 2 ^ 64 - 8)]
def near : Ctx := regs [(1, 0x1122334455667788), (2, spadOf 0 + 16)]

/-- R174: SLD of two bytes, sign-extended. -/
theorem test_sld_sign_extends : (let s := (core near).store (spadOf 0 + 24) (le 2 0x8001); (ctx (after (.sld 0 sldF) s)).getA 1 = 0xFFFFFFFFFFFF8001) := by
  decide +kernel
/-- R174: SST of eight bytes, least significant first. -/
theorem test_sst : ((after (.sst 0 sstF) (core near)).mem.read (spadOf 0 + 8) 8) = [0x88, 0x77, 0x66, 0x55, 0x44, 0x33, 0x22, 0x11] := by
  decide +kernel
/-- R174: an unaligned address is the alignment fault 0x04. -/
theorem test_sst_unaligned : rd ((after (.sst 0 (frame 0x07 [(16, 1), (21, 2), (25, 3), (64, 4)])) (core near)).core 0).fault 0 1 = 4 := by
  decide +kernel

/-- The request that a load or store of another device becomes goes out. -/
def goesOut (r : Sent × State) : Bool := match r.1 with | .out => true | _ => false
def sstFarF : Frame := frame 0x07 [(16, 1), (21, 2), (25, 3), (64, 8)]
def far : State := { core (regs [(1, 0x1122), (2, 2 ^ 48 * 9)]) with
  fab := { Fabric.reset with devState := 1, devnum := 4, members := [(9, true)], routes := [(9, 0x20)], links := [(5, { Link.down with state := 2, credits := [(1, 64)] })] } }
def far0 : State := { far with fresh := far.fresh + 1 }

theorem witness_LocalScalarLoadAndStore :
    (let s := core near; let f := sldF
     let g := ((s.ctx 0).getA (fld f 24 21) + f.extractLsb' 64 64).toNat; let n := 2 ^ fld f 26 25
     g % n = 0 ∧ gvalid g = true ∧ gdev g = s.fab.devnum ∧ s.fab.fcu = 0 ∧ s.inMap 0 = true ∧ ownRange 0 (gloc g) n = true ∧
     (s.servedBy 0).all (fun h => s.savedOf h 0 == none) = true ∧ opcode f = 0x06 ∧ fld f 20 16 < 0x18 ∧
     (s.mem.readP (gloc g) n).all (fun b => !b.2) = true ∧ s.loadsOut 0 1 + s.queuedOps (s.ins 0 f) 6 < 16 ∧
     Starts s (s.ins 0 f) 60 ⟨[⟨gloc g, gloc g + n, false⟩], []⟩) ∧
    (let s := core near; let f := sstF
     let g := ((s.ctx 0).getA (fld f 24 21) + f.extractLsb' 64 64).toNat; let n := 2 ^ fld f 26 25
     g % n = 0 ∧ ownRange 0 (gloc g) n = true ∧ Starts s (s.ins 0 f) 60 ⟨[⟨gloc g, gloc g + n, true⟩], []⟩ ∧
     opcode f = 0x07 ∧ fld f 20 16 ≤ 0x18 ∧ bitOf f 27 = false ∧ s.inFrozen (gloc g) n = false ∧ s.inRegion (gloc g) n = false) ∧
    (let f := sldF
     let g := ((far.ctx 0).getA (fld f 24 21) + f.extractLsb' 64 64).toNat; let n := 2 ^ fld f 26 25
     g % n = 0 ∧ gvalid g = true ∧ gdev g ≠ far.fab.devnum ∧ far.fenced 0 = false ∧ Starts far (far.ins 0 f) 60 Foot.none ∧
     far.loadsOut 0 1 + far.queuedOps (far.ins 0 f) 6 < 16 ∧
     goesOut (far0.gReadPiece g n 1 (some 1) (.load 0 1 far.fresh 0x20 f (BitVec.ofNat 64 g) (fld f 20 16) n (bitOf f 27))) = true) ∧
    (let f := sstFarF
     let g := ((far.ctx 0).getA (fld f 24 21) + f.extractLsb' 64 64).toNat; let n := 2 ^ fld f 26 25
     opcode f = 0x07 ∧ fld f 20 16 ≤ 0x18 ∧ bitOf f 27 = false ∧ g % n = 0 ∧ gvalid g = true ∧ gdev g ≠ far.fab.devnum ∧
     Starts far (far.ins 0 f) 60 Foot.none ∧
     goesOut (far0.gWritePiece g ((le n (selGet (far.ctx 0) (fld f 20 16)).toNat).map fun b => (b, false)) 1 (some 1)
       (.store 0 1 far.fresh 0x20 f (BitVec.ofNat 64 g))) = true) ∧
    Ready (core near) 0 sldF (fld sldF 24 21 :: selRegs (fld sldF 20 16)) ∧ Zero sldF [(63, 28)] ∧
    Ready (core near) 0 sstF (fld sstF 24 21 :: selRegs (fld sstF 20 16)) ∧ Zero sstF [(63, 28)] ∧
    Ready far 0 sldF (fld sldF 24 21 :: selRegs (fld sldF 20 16)) ∧
    Ready far 0 sstFarF (fld sstFarF 24 21 :: selRegs (fld sstFarF 20 16)) ∧ Zero sstFarF [(63, 28)] := by
  refine ⟨?_, ?_, ?_, ?_, ready_of ?_, zero_of ?_, ready_of ?_, zero_of ?_, ready_of ?_, ready_of ?_, zero_of ?_⟩ <;> decide +kernel

def fsigF : Frame := frame 0x10 [(20, 1), (21, 4095), (34, 1), (64, 7)]
def fsigFarF : Frame := frame 0x10 [(16, 4), (33, 1), (36, 1), (37, 5)]
def fwaitF : Frame := frame 0x11 [(20, 7), (32, 1), (34, 0), (39, 1), (45, 6), (48, 1), (64, 3), (96, 1)]
def fwaitPlainF : Frame := frame 0x11 [(20, 7)]
/-- Core 0's BOLLARD still waits for a signal it has sent. -/
def fencing : State := { core { Ctx.start with fence := [0] } with sigs := [⟨0, .core 0 1 0x10 fsigF, .here 0 5, false, 3, [], 0⟩] }
/-- Core 0 holds the FWAIT, whose timeout of one tick has elapsed. -/
def waiting : State := core { Ctx.start with hold := some { frame := fwaitF, waited := 1 } }

/-- R181: COND 1 compares modulo 2^32; CONS takes v, and the predicate is set. -/
theorem test_fwait_takes : (let x := ctx (after (.fwait 0 fwaitF) (core (Ctx.start.setFlag 7 4))); x.flag 7 = 1 ∧ x.getP 6 = true ∧ x.pc = 0x30) := by
  decide +kernel
theorem test_fwait_waits : (let x := ctx (after (.fwait 0 fwaitF) (core (Ctx.start.setFlag 7 2))); x.flag 7 = 2 ∧ x.pc = 0x20 ∧ x.hold.isSome = true) := by
  decide +kernel

/-- A signal to flag 5 of core 0 that is due. -/
def signalled : State := { core Ctx.start with sigs := [⟨0, .core 0 1 0x10 fsigF, .here 0 5, false, 3, [], 0⟩] }
/-- R181: the signal adds its value. -/
theorem test_signal_adds : ((after (.flagSignalApply 0) signalled).ctx 0).flag 5 = 3 := by decide +kernel

theorem witness_FlagInstructionsAndSignals :
    (opcode fsigF = 0x10 ∧ Zero fsigF [(127, 96), (63, 41)] ∧ fld fsigF 35 34 < 2 ∧ bitOf fsigF 20 = true ∧ fld fsigF 19 16 = 0 ∧
      Ready (core Ctx.start) 0 fsigF [] ∧ (core Ctx.start).inMap 0 = true ∧ (core Ctx.start).fenced 0 = false ∧
      Ready fencing 0 fsigF [] ∧ fencing.fenced 0 = true) ∧
    (opcode fsigFarF = 0x10 ∧ Zero fsigFarF [(127, 96), (63, 41)] ∧ fld fsigFarF 35 34 < 2 ∧ bitOf fsigFarF 20 = false ∧ fld fsigFarF 32 21 = 0 ∧
      fld fsigFarF 95 64 = 0 ∧ Ready (core (regs [(4, 2 ^ 48)])) 0 fsigFarF [4, 5] ∧ nfld (2 ^ 48) 63 48 ≠ (core Ctx.start).fab.devnum ∧
      Ready (core (regs [(4, 2 ^ 24)])) 0 fsigFarF [4, 5] ∧ nfld (2 ^ 24) 47 24 ≠ 0 ∧
      Ready (core (regs [(4, 4095 * 2 ^ 12)])) 0 fsigFarF [4, 5] ∧ (core Ctx.start).inMap 4095 = false) ∧
    (∃ g, signalled.sigs[0]? = some g ∧ g.after.any signalled.alive = false ∧ g.due ≤ signalled.now ∧ g.dst = .here 0 5) ∧
    (opcode fwaitF = 0x11 ∧ Zero fwaitF [(63, 49), (44, 40), (19, 16)] ∧ fld fwaitF 33 32 < 3 ∧ bitOf fwaitF 34 = false ∧ bitOf fwaitF 48 = true ∧
      fld fwaitF 127 96 ≠ 0 ∧ Ready (core (Ctx.start.setFlag 7 3)) 0 fwaitF [] ∧ ((core (Ctx.start.setFlag 7 3)).ctx 0).flag (fld fwaitF 31 20) = 3 ∧
      Ready waiting 0 fwaitF [] ∧ (waiting.ctx 0).hold = some { frame := fwaitF, waited := 1 } ∧ fld fwaitF 127 96 ≤ 1) ∧
    (opcode fwaitPlainF = 0x11 ∧ Zero fwaitPlainF [(63, 49), (44, 40), (19, 16)] ∧ fld fwaitPlainF 127 96 = 0 ∧ fld fwaitPlainF 47 45 = 0 ∧
      bitOf fwaitPlainF 48 = false ∧ Ready (core Ctx.start) 0 fwaitPlainF []) := by
  refine ⟨⟨?_, zero_of ?_, ?_, ?_, ?_, ready_of ?_, ?_, ?_, ready_of ?_, ?_⟩, ⟨?_, zero_of ?_, ?_, ?_, ?_, ?_, ready_of ?_, ?_, ready_of ?_, ?_, ready_of ?_, ?_⟩,
    ⟨_, rfl, ?_, ?_, rfl⟩, ⟨?_, zero_of ?_, ?_, ?_, ?_, ?_, ready_of ?_, ?_, ready_of ?_, ?_, ?_⟩, ?_, zero_of ?_, ?_, ?_, ?_, ready_of ?_⟩ <;>
    decide +kernel

def astatF : Frame := frame 0x16 [(16, 3), (20, 5)]
def phaseF : Frame := frame 0xC0 [(16, 9), (24, 1), (26, 4), (30, 1)]
def trapF : Frame := frame 0x17 [(16, 0xFFFF)]

/-- R171: ASTAT reads the word and clears its mask. -/
theorem test_astat : (let x := ctx (after (.astat 0 astatF) (core { Ctx.start with astat := 0x17 })); x.getA 3 = 0x17 ∧ x.astat = 0x12) := by decide +kernel

theorem witness_FencesStatusAndStamps :
    (Ready (core Ctx.start) 0 (frame 0x14 []) [] ∧ Zero (frame 0x14 []) [(127, 16)]) ∧
    (Ready (core Ctx.start) 0 (frame 0x15 [(16, 0x1F)]) [] ∧ Zero (frame 0x15 [(16, 0x1F)]) [(127, 21)]) ∧
    (Ready (core Ctx.start) 0 astatF [3] ∧ opcode astatF = 0x16 ∧ Zero astatF [(127, 52)]) ∧
    (Ready (core Ctx.start) 0 phaseF [4] ∧ opcode phaseF = 0xC0 ∧ Zero phaseF [(127, 31)] ∧ fld phaseF 25 24 ≠ 3 ∧ bitOf phaseF 30 = true) ∧
    (Ready (core Ctx.start) 0 (frame 0x01 []) [] ∧ Zero (frame 0x01 []) [(127, 16)] ∧ (core Ctx.start).prog ((core Ctx.start).core 0).holder = some prog) ∧
    (core Ctx.start).works 0 1 = [] ∧
    (Ready fencing 0 (frame 0x15 []) [] ∧ ∃ w ∈ { fencing with fresh := 1 }.works 0 1, w.uid < 1 ∧ umaskHas (fld (frame 0x15 []) 20 16) w.unit = true) := by
  refine ⟨⟨ready_of ?_, zero_of ?_⟩, ⟨ready_of ?_, zero_of ?_⟩, ⟨ready_of ?_, ?_, zero_of ?_⟩, ⟨ready_of ?_, ?_, zero_of ?_, ?_, ?_⟩,
    ⟨ready_of ?_, zero_of ?_, ?_⟩, ?_, ready_of ?_, ?_⟩ <;> decide +kernel

theorem witness_TrapsAndIllegalOpcodesFault :
    (Ready (core Ctx.start) 0 trapF [] ∧ opcode trapF = 0x17 ∧ Zero trapF [(127, 32)]) ∧
    (Ready (core Ctx.start) 0 (frame 0xD0 []) [] ∧ 0xD0 ≤ opcode (frame 0xD0 [])) ∧
    (∀ op ∈ [0x1F, 0x3F, 0x5F, 0x8F, 0x9F, 0xAF, 0xBF, 0xCF], Ready (core Ctx.start) 0 (frame op []) [] ∧ opcode (frame op []) < 0xD0 ∧
      opcode (frame op []) ∉ assignedOps) := by
  refine ⟨⟨ready_of ?_, ?_, zero_of ?_⟩, ⟨ready_of ?_, ?_⟩, fun op h => ?_⟩
  iterate 5 decide +kernel
  simp only [List.mem_cons, List.not_mem_nil, or_false] at h
  rcases h with rfl | rfl | rfl | rfl | rfl | rfl | rfl | rfl <;> refine ⟨ready_of ?_, ?_, ?_⟩ <;> decide +kernel

/-- Core 0 runs a program whose text ends at its pc. -/
def atEnd : State := { core Ctx.start with progs := [(1, { prog with textLen := 0x20 })] }
/-- The frame at core 0's pc is poisoned. -/
def dirtyText : State := { core Ctx.start with mem := (Memory.taint ⟨[], [], []⟩ (textBase 1 + 0x20) 16) }
/-- `core x` while an earlier SLD of the core is outstanding. -/
def loading (x : Ctx) : State :=
  { core x with fab := { Fabric.reset with outst := [(0, ⟨pktBlank, 1, 0, 100, some 1, .load 0 1 0 0x10 0 0 3 8 false, 0⟩)] } }

theorem test_fetch_checks : rd ((after (.nop 0 nopF) atEnd).core 0).fault 0 1 = 6 ∧ rd ((after (.nop 0 nopF) dirtyText).core 0).fault 0 1 = 5 := by
  decide +kernel
/-- R168: a reserved bit faults even where the predicate is false; without it the instruction is passed over. -/
theorem test_predicated_off : rd ((after (.nop 0 (frame 0x00 [(15, 1), (16, 1)])) (core Ctx.start)).core 0).fault 0 1 = 2 ∧
    (ctx (after (.seti 0 (frame 0x02 [(15, 1), (16, 3), (64, 5)])) (core Ctx.start))).getA 3 = 0 := by decide +kernel

def fencing1 : State := { fencing with fresh := 1 }
/-- An earlier SLD waits in the queue of its unit. -/
def loadingNear : State :=
  { core { near with uq := [⟨0, 60, 0x10, sldF, near.a, near.l, Foot.none⟩] } with fresh := 1 }

/-- Eight of them wait. -/
def crammed : State :=
  { core { near with uq := List.replicate 8 ⟨0, 60, 0x10, sldF, near.a, near.l, Foot.none⟩ } with fresh := 1 }

/-- Which of its answers an instruction gives: goes on, stops, waits, faults, branches. -/
def kindOf : IRes → Nat
  | .done _ => 0 | .stop _ => 1 | .hold => 2 | .fault _ _ => 3 | .jump _ _ => 4 | .queue _ _ _ => 5

theorem of_kind (r : IRes) : (kindOf r = 0 → ∃ t, r = .done t) ∧ (kindOf r = 1 → ∃ t, r = .stop t) ∧ (kindOf r = 2 → r = .hold) ∧
    (kindOf r = 3 → ∃ t e, r = .fault t e) ∧ (kindOf r = 4 → ∃ t a, r = .jump t a) ∧ (kindOf r = 5 → ∃ l f d, r = .queue l f d) := by
  cases r <;> simp [kindOf]

/-- The row of a core instruction. -/
def rowOf (i : Instr) : CoreRow := (coreRow i).getD ⟨0, 0, 0, none, none, [], nopBody⟩

theorem witness_EveryCoreInstructionIssuesItsEffect :
    (∀ i ∈ [Instr.nop 0 nopF, .halt 0 (frame 0x01 []), .bollard 0 (frame 0x14 []), .trap 0 trapF, .br 0 (frame 0x08 [])],
      coreRow i = some (rowOf i) ∧ (rowOf i).fits) ∧
    (atEnd.prog (atEnd.core 0).holder = some { prog with textLen := 0x20 } ∧ (atEnd.core 0).st = 1 ∧ atEnd.clocked 0 = true ∧ (atEnd.core 0).issued = false ∧ (atEnd.ctx 0).hold = none ∧
      (atEnd.ctx 0).pc = 0x20) ∧
    ((dirtyText.core 0).st = 1 ∧ dirtyText.poisoned (textBase (dirtyText.core 0).holder + (dirtyText.ctx 0).pc) 16 = true ∧ (dirtyText.ctx 0).pc < 1024) ∧
    ((rowOf (.nop 0 (frame 0x00 [(16, 1)]))).dec = some ⟨2, 0, 0, 0, 0⟩ ∧ (core Ctx.start).poisoned (textBase 1 + 0x20) 16 = false) ∧
    ((rowOf (.nop 0 (frame 0x00 [(15, 1)]))).dec = none ∧ executes ((core Ctx.start).ctx 0) (frame 0x00 [(15, 1)]) = false) ∧
    (drain (frame 0x00 [(10, 1)]) = true ∧ (loading Ctx.start).works 0 1 ≠ [] ∧ executes ((loading Ctx.start).ctx 0) (frame 0x00 [(10, 1)]) = true) ∧
    (State.regPending { Ctx.start with pend := [(3, 0)] } (rowOf (.seti 0 setiF)).regs = true ∧ (rowOf (.seti 0 setiF)).dec = none) ∧
    (Ready (core Ctx.start) 0 nopF [] ∧ ∃ t, nopBody ((core Ctx.start).ins 0 nopF) (core Ctx.start) = .done t) ∧
    (Ready (core Ctx.start) 0 (frame 0x01 []) [] ∧ ∃ t, haltBody ((core Ctx.start).ins 0 (frame 0x01 [])) (core Ctx.start) = .stop t) ∧
    (Ready fencing1 0 (frame 0x15 []) [] ∧ waituBody (fencing1.ins 0 (frame 0x15 [])) fencing1 = .hold) ∧
    (Ready loadingNear 0 sldF (rowOf (.sld 0 sldF)).regs ∧ (∃ l f d, sldBody (loadingNear.ins 0 sldF) loadingNear = .queue l f d) ∧
      ((loadingNear.ctx 0).uq.filter fun q => q.lane / 10 == 60 / 10).length < 8 ∧ 8 ≤ (crammed.ctx 0).uq.length ∧
      Ready crammed 0 sldF (rowOf (.sld 0 sldF)).regs ∧ ∃ l f d, sldBody (crammed.ins 0 sldF) crammed = .queue l f d) ∧
    (Ready (core Ctx.start) 0 trapF [] ∧ ∃ t e, trapBody ((core Ctx.start).ins 0 trapF) (core Ctx.start) = .fault t e) ∧
    (Ready (core Ctx.start) 0 (frame 0x08 []) [] ∧ ∃ t a, brBody ((core Ctx.start).ins 0 (frame 0x08 [])) (core Ctx.start) = .jump t a) := by
  refine ⟨fun i h => ?_, ?_, ?_, ?_, ?_, ?_, ?_, ⟨ready_of ?_, (of_kind _).1 ?_⟩, ⟨ready_of ?_, (of_kind _).2.1 ?_⟩,
    ⟨ready_of ?_, (of_kind _).2.2.1 ?_⟩, ⟨ready_of ?_, (of_kind _).2.2.2.2.2 ?_, ?_, ?_, ready_of ?_, (of_kind _).2.2.2.2.2 ?_⟩, ⟨ready_of ?_, (of_kind _).2.2.2.1 ?_⟩, ready_of ?_, (of_kind _).2.2.2.2.1 ?_⟩
  · simp only [List.mem_cons, List.not_mem_nil, or_false] at h
    rcases h with rfl | rfl | rfl | rfl | rfl <;>
      exact ⟨rfl, by decide +kernel, fun ms hm => nomatch hm⟩
  all_goals decide +kernel

/-- A program that has halted. -/
def haltedProg : State := { core Ctx.start with progs := [(1, { prog with st := 5, slot := none, runFrom := none })] }

/-- Core 1 of the program has faulted in this cycle. -/
def struck : State := { core Ctx.start with progs := [(1, { prog with fail := true, recs := [le 8 0x10000 ++ zeros 56] })] }

theorem witness_FaultsAreRecordedAndStopTheProgram :
    ((core Ctx.start).prog 1 = some prog ∧ prog.active = true ∧ prog.recs.length < 16 ∧ prog.fail = false) ∧
    (struck.prog 1 = some { prog with fail := true, recs := [le 8 0x10000 ++ zeros 56] } ∧ (0 : Nat) < rd (le 8 0x10000 ++ zeros 56) 2 2) ∧
    (∃ p, haltedProg.prog 1 = some p ∧ p.active = false) ∧ haltedProg.prog 2 = none := by
  refine ⟨⟨rfl, ?_⟩, ⟨rfl, ?_⟩, ⟨_, rfl, ?_⟩, ?_⟩ <;> decide +kernel

/-! ## Mailboxes (R437 to R446) -/

def asks (p : Port) (py : List Byte) : MbxCmd := ⟨p, 7, py.length, 0, py⟩
/-- The host's mailbox has a command in flight; the host's mailbox still shows DONE, with DONEIE set. -/
def boxBusy : State := { quiet with mbx := [(0, { quiet.box .host with busy := some (0x0003, asks .host (zeros 8)) })] }
def boxDone : State := { quiet with mbx := [(0, { quiet.box .host with done := true, ie := true })] }

theorem test_command_answers : (let t := after (.cmdInfoConfig (asks .host [])) quiet
    (t.box .host).done = true ∧ rd (t.box .host).resp 0 2 = 0 ∧ rd (t.box .host).resp 4 4 = 7) := by decide +kernel
/-- R439: a repeated opcode no chapter assigns is refused. -/
theorem test_bad_opcode : rd ((after (.unassignedMailboxOpcode 0x0FFF (asks .host [])) quiet).box .host).resp 0 2 = 0x100 := by decide +kernel
theorem test_go_while_busy : ((after (.cmdInfoConfig (asks .host [])) boxBusy).box .host).ovr = true := by decide +kernel

theorem witness_MailboxCommandsAreTakenCheckedAndRun :
    (mboxRow (.cmdInfoConfig (asks .host [])) = some (infoConfig, asks .host []) ∧ Takes (quiet.taken .host) .host 0x0002 ∧
      Admitted (quiet.taken .host) infoConfig (asks .host [])) ∧
    (Takes (quiet.taken .svc) .svc 0x0340 ∧ (quiet.taken .svc).admits kvPool (asks .svc []) false = some 0x10A) ∧
    (∃ off, Takes (quiet.taken .host) .host 0x0340 ∧ (quiet.taken .host).admits kvPool (asks .host (zeros 0x7F)) false = none ∧
      State.fieldsBad kvPool (asks .host (zeros 0x7F)) = some off) ∧
    ((boxBusy.taken .host).box .host).busy.isSome = true ∧
    (cmdOf 0x0FFF true (asks .host []) = none ∧ Takes (boxDone.taken .host) .host 0x0FFF) := by
  refine ⟨⟨rfl, ?_, ?_⟩, ⟨?_, ?_⟩, ⟨0, ?_, ?_, ?_⟩, ?_, ?_, ?_⟩
  any_goals unfold Admitted
  all_goals (try unfold Takes); decide +kernel

theorem witness_ResponsesAreWrittenAndSignalled : (zeros 240).length ≤ 240 := by decide +kernel

/-- R441, R443: the response's payload and its interrupt. -/
theorem test_response : (let t := boxDone.respond .host 9 0x103 [1, 2] 5 6; rd (t.box .host).resp 0 2 = 0x103 ∧ rd (t.box .host).resp 2 2 = 2 ∧
    (t.box .host).done = true ∧ t.out = [.msix 0]) := by decide +kernel

/-! ## Resets, power and clocks (R460 to R484) -/

def pw (g : Power → Power) : State := { quiet with pw := g quiet.pw }

theorem test_warm_reset_cause : ((after .modResetNAssert quiet).pw.cause = 3 ∧ (after .modResetNAssert quiet).pw.pinLow = true) := by decide +kernel
/-- R484: a reset during a write pulse is held; the lowest cause stays. -/
theorem test_reset_held : (let t := after .ucieLinkReset (after .modResetNAssert (pw fun p => { p with pulse := some 0 })); t.pw.held = some 3 ∧ t.pw.seq = none) := by
  decide +kernel

theorem witness_ResetSourcesTakeTheirResets :
    (quiet.pw.pinLow = false ∧ quiet.pw.pstate ≠ 0 ∧ quiet.hp.link ≠ 0 ∧ quiet.dc.dstate = 1 ∧ quiet.tru.wdtsusp = false ∧ quiet.pw.sagOff = false ∧
      quiet.pw.pulse = none) ∧
    (let s := pw fun p => { p with refok := false, refLost := true }; s.pw.refok = false ∧ s.pw.refLost = true) ∧
    (let s := pw fun p => { p with pulse := some 9, held := some 2 }; s.pw.pulse = some 9 ∧ s.pw.held = some 2) ∧
    (let s := pw fun p => { p with pulse := some 7 }; s.pw.pulse = some 7 ∧ s.pw.held = none ∧ s.pw.seq = none ∧ s.tru.confirm = none) ∧
    (pw fun p => { p with pinLow := true }).pw.pinLow = true ∧ (pw fun p => { p with pstate := 0 }).pw.pstate = 0 ∧
    (pw fun p => { p with sagOff := true }).pw.sagOff = true ∧
    (let s := pw fun p => { p with tripHold := some 0 }; s.pw.tripHold = some 0 ∧ s.pw.latched = false ∧ 0 ≤ s.now) := by decide +kernel

/-- R475: the kept case of a warm reset, and the case that keeps nothing. -/
theorem witness_ResetClearsTheDevice : (decide (3 ≤ 3) && 3 != 6 && quiet.nb == 0) = true ∧ (decide (3 ≤ 6) && 6 != 6 && quiet.nb == 0) = false := by decide +kernel

def sample (mw die : Nat) : Sample := { watts := mw, vin := 0, die := die, sensor := 0, sram := 0, lp := 0 }

/-- R463: a sample above 125 % of the cap throttles fully at once; R464: the boundary lowers the level. -/
theorem test_power_level : (after (.powerSample (sample 1251 0)) (pw fun p => { p with cap := 1000 })).pw.plevel = 15 ∧
    (after .throttleBoundary (pw fun p => { p with cap := 1000, mean := 969, plevel := 3 })).pw.plevel = 2 ∧
    (after .throttleBoundary (pw fun p => { p with cap := 1000, mean := 970, plevel := 3 })).pw.plevel = 3 := by decide +kernel

theorem witness_ThrottlingFollowsPowerAndHeat :
    (2 ≤ quiet.pw.pstate ∧ 1840 ≤ max (1840 : Int) 0 ∧ (pw fun p => { p with hot := true }).pw.hot = true) ∧
    (let s : State := { pw (fun p => { p with plZero := some 0, tlZero := some 0 }) with now := 24000000 }
     0 + 10 * 2400000 ≤ s.now ∧ s.pw.plZero = some 0 ∧ s.pw.tlZero = some 0) := by decide +kernel

theorem witness_SupplyDroopAndClockEvents :
    (quiet.pw.sagwarn = false ∧ quiet.pw.pstate ≠ 0 ∧ (pw fun p => { p with sagwarn := true }).pw.sagwarn = true ∧ 47 < 48 ∧
      47 ∉ quiet.pw.stretch ∧ 47 ∉ quiet.pw.stops ∧ quiet.pw.refok = true ∧ quiet.pw.seq = none ∧ 2 ≤ quiet.pw.pstate) ∧
    (let s : State := { quiet with now := 24000000 }
     s.pw.pstate = 3 ∧ s.quiet = true ∧ s.pw.idleFrom + 10 * 2400000 ≤ s.now ∧ s.fab.lastReq + 10 * 2400000 ≤ s.now) ∧
    (let s := pw fun p => { p with pstate := 2, pllst := 0 }; s.pw.pstate = 2 ∧ s.pw.pllst = 0) ∧
    (let s := pw fun p => { p with pstate := 2, pllst := 1 }; s.pw.pstate = 2 ∧ s.pw.pllst = 1) := by decide +kernel

/-! ## The fabric (R337 to R389) -/

def fab (g : Fabric → Fabric) : State := { quiet with fab := g quiet.fab }
def linked (k : Link) : State := fab fun f => { f with links := [(0, k)] }
def up : Link := { Link.down with state := 2 }
/-- A flit of 252 bytes given and zeros, with its CRC. -/
def flit (bs : List Byte) : List Byte := let b := fit 252 bs; b ++ le 4 (crc32c b)
/-- A payload flit of sequence number `n` on lane 1, class 0, without a packet. -/
def dataFlit (n : Nat) : List Byte := flit (le 1 5 ++ le 1 15 ++ le 2 n)
def ctlFlit (code : Nat) : List Byte := flit (le 1 2 ++ zeros 11 ++ le 1 code)

/-- R340: the flit expected advances the number; one with a wrong CRC asks for a replay. -/
theorem test_flit_taken : ((after (.payloadFlit 0 (dataFlit 0)) (linked up)).link 0).rxExp = 1 ∧
    ((after (.payloadFlit 0 (zeros 256)) (linked up)).link 0).nak = some 0 := by decide +kernel

theorem witness_FlitsAreTakenInOrder :
    (¬((quiet.link 0).state = 2 ∨ (quiet.link 0).state = 4)) ∧ ((linked up).link 0).state = 2 ∧ ((linked { up with state := 4 }).link 0).state = 4 ∧
    flitGood (zeros 256) = false ∧
    (∀ n ∈ [0, 1, 2047, 2048, 4095], flitGood (dataFlit n) = true ∧ flitKind (dataFlit n) = 1 ∧
      (nfld (rd (dataFlit n) 2 2) 11 0 + 4096 - ((linked up).link 0).rxExp) % 4096 = n) ∧
    (flitGood (flit []) = true ∧ flitKind (flit []) = 0) ∧
    (∀ c ∈ [1, 2, 3], flitGood (ctlFlit c) = true ∧ flitKind (ctlFlit c) = 2 ∧ rd (ctlFlit c) 12 1 = c) := by decide +kernel

theorem witness_LinksTrainRetryAndGoDown :
    (let s : State := { linked { up with nak := some 0 } with now := 4800 }; (s.link 0).nak = some 0 ∧ (s.link 0).state = 2 ∧ 0 + 4800 ≤ s.now) ∧
    ((linked { up with state := 4, nak := some 0 }).link 0).state = 4 ∧
    (let k := (linked { up with unacked := 1 }).link 0; k.state = 2 ∧ k.unacked ≠ 0 ∧ k.ackDue ≤ (linked up).now) ∧
    (let k := (linked { up with owed := [(3, 1)] }).link 0; k.state = 2 ∧ k.owed ≠ [] ∧ k.ackDue ≤ (linked up).now) ∧
    ((linked { up with state := 1 }).link 0).state = 1 ∧
    (let s := linked { up with state := 3 }; (s.link 0).state = 3 ∧ s.now < (s.link 0).since + s.fab.tmoUs * 2400) ∧
    (let s : State := { linked { up with state := 3 } with now := 4800000 }; (s.link 0).state = 3 ∧ (s.link 0).since + s.fab.tmoUs * 2400 ≤ s.now) := by
  decide +kernel

/-- A JOINED device 1 that exposes its first 4 KiB of LPDDR5X (frozen: right 3) and core 0's flags to device 2. -/
def joined (perm : BitVec 8) : State := fab fun f => { f with
  devState := 1, devnum := 1
  expose := [(0, ⟨1, perm, 2, 2, 0, 4096⟩), (1, ⟨2, 0x10, 2, 2, 0, 1⟩)] }
def asked (op n : Nat) : Packet := { pktBlank with op := BitVec.ofNat 8 op, src := 2, dst := 1, addr := BitVec.ofNat 64 (2 ^ 48), len := n }

/-- R347: a WRITE stores its bytes; R350: without the right it does not. -/
theorem test_write_exposed : (after (.write 0 { asked 2 2 with data := [5, 6] }) (joined 2)).mem.read 0 2 = [5, 6] ∧
    (after (.write 0 { asked 2 2 with data := [5, 6] }) (joined 1)).mem.read 0 2 = [0, 0] := by decide +kernel

theorem witness_RequestsOfOtherDevicesAreServed :
    (let s := joined 0x0F; let p := asked 0 256; let g := p.addr.toNat
     s.fab.devState = 1 ∧ p.dst.toNat = s.fab.devnum ∧ p.flags.getLsbD 0 = false ∧ pktClean { p with op := 1 } = true ∧ pktClean { p with op := 2 } = true ∧
     blockOk (gloc g) p.len = true ∧ gdev g = s.fab.devnum ∧ gvalid g = true ∧ s.permits p.src.toNat (gloc g) p.len 0 = true ∧
     s.permits p.src.toNat (gloc g) p.len 1 = true ∧ { p with data := zeros 256 }.data.length = p.len) ∧
    (let s := joined 4; let p := { asked 3 16 with aop := 7 + 16 + 64 }; let g := p.addr.toNat
     pktClean { p with op := 3 } = true ∧ fld p.aop 3 0 < 8 ∧ p.len = 16 ∧ s.permits p.src.toNat (gloc g) (atomBytes (fld p.aop 3 0)) 2 = true ∧
     s.inFrozen (gloc g) 8 = false ∧ (joined 12).inFrozen (gloc g) 8 = true ∧ (joined 12).permits p.src.toNat (gloc g) 8 2 = true) ∧
    (let p := asked 3 16; atomFields (fld p.aop 3 0) (fld p.aop 5 4) (fld p.aop 9 6) p.ea.toInt = true) ∧
    (let s := joined 0; let p := { asked 4 0 with aop := 1, addr := BitVec.ofNat 64 (2 ^ 48 + 4095) }; let g := p.addr.toNat
     pktClean { p with op := 4 } = true ∧ fld p.aop 1 0 < 2 ∧ nfld g 47 24 = 0 ∧ p.len = 0 ∧ nfld g 63 48 = s.fab.devnum ∧
     s.permitsFlag p.src.toNat (nfld g 23 12) = true ∧ s.inMap (nfld g 23 12) = true) := by decide +kernel

theorem witness_UnexposedRequestsTouchNothing :
    (joined 0xFE).permits 2 0 256 0 = false ∧ (joined 0xFD).permits 2 0 256 1 = false ∧ (joined 0xFB).permits 2 0 16 2 = false ∧
    (joined 0xFF).permits 2 3841 256 0 = false ∧ (joined 0xFF).permitsFlag 2 1 = false := by decide +kernel

/-- Device 1 awaits the answer of device 2 to a READ of core 0. -/
def awaiting : State := { core Ctx.start with fab := { (joined 0).fab with
  outst := [(5, ⟨{ asked 1 8 with src := 1, dst := 2 }, 1, 0, 10, some 1, .load 0 1 7 0x10 sldF 0 1 2 true, 0⟩)] } }
def reply (st : Nat) : Packet := { pktBlank with op := 1, flags := 1, src := 2, dst := 1, tag := 5, status := BitVec.ofNat 16 st, len := 2, data := [1, 0x80] }

theorem witness_ResponsesAndTimeoutsCompleteRequests :
    (SMap.get? awaiting.fab.outst 4 = none ∧ (reply 0).flags.getLsbD 0 = true ∧ (reply 0).flags.getLsbD 1 = false) ∧
    (∃ r, SMap.get? awaiting.fab.outst 5 = some r ∧ awaiting.now < r.deadline ∧ r.pkt.dst = (reply 0).src ∧ r.pkt.op = (reply 0).op ∧
      (reply 0).dst.toNat = awaiting.fab.devnum ∧ (reply 0x10A).status.toNat ≠ St.ok ∧ (reply 0).status.toNat = St.ok ∧ r.deadline ≤ 10 ∧
      r.cont = .load 0 1 7 0x10 sldF 0 1 2 true) := by
  refine ⟨?_, _, rfl, ?_⟩ <;> decide +kernel

def gopRun0 : GopRun :=
  { kind := 2, st := none, started := true, tmoAt := some 0, data := [], bdst := 0, arrived := [], sentUp := false, draining := false, drained := [],
    sentDrained := false, drainAt := 0, fail := false, gone := false }
/-- Device 1 in tree 0 with parent 2 and child 3, operation 4 under way or not. -/
def treed (run : Option GopRun) : State := { joined 0 with fab := { (joined 0).fab with trees := [(0, ⟨2, [3], 4, [], run⟩)] } }
def gop (src seq kind : Nat) : Packet := { asked 6 0 with src := BitVec.ofNat 16 src, addr := BitVec.ofNat 64 (seq * 2 ^ 32 + kind * 256) }

theorem witness_GlobalOperationsGoUpAndDownTheirTree :
    (∀ run ∈ [none, some gopRun0, some { gopRun0 with draining := true }], ∃ x, SMap.get? (treed run).fab.trees (fld (gop 3 4 2).addr 2 0) = some x ∧
      x.run = run ∧ x.seq = 4 ∧ x.children = [3] ∧ x.parent = 2) ∧
    ((treed none).fab.devState = 1 ∧ (gop 3 4 2).dst.toNat = (treed none).fab.devnum ∧ (gop 3 4 2).src.toNat = 3 ∧ (gop 2 4 3).src.toNat = 2 ∧
      fld (gop 3 4 2).addr 63 32 = 4 ∧ 4 < fld (gop 3 5 2).addr 63 32 ∧ fld (gop 2 4 3).addr 11 8 = 3 ∧ fld (gop 2 4 2).addr 11 8 ≠ 3 ∧
      (∀ src ∈ [2, 3], ∀ seq ∈ [4, 5], ∀ kind ∈ [2, 3], pktClean { gop src seq kind with op := 8 } = true ∧ (gop src seq kind).flags.getLsbD 0 = false) ∧
      pktClean { gop 3 4 2 with op := 8, status := 1 } = false) ∧
    (let s : State := { treed (some { gopRun0 with draining := true }) with now := 2 ^ 40 }; 0 + s.drainLimit 0 ≤ s.now) := by
  refine ⟨fun run h => ?_, ?_, ?_⟩
  · simp only [List.mem_cons, List.not_mem_nil, or_false] at h
    rcases h with rfl | rfl | rfl <;> exact ⟨_, rfl, rfl, rfl, rfl, rfl⟩
  all_goals decide +kernel

/-- R382: a tick of 25,000 sixty-thousandths of a nanosecond, five more while slewing forward. -/
theorem test_tick_time : (State.tickTime { quiet.fab.time with slew := 7 }).ft = 25005 ∧ (State.tickTime quiet.fab.time).ft = 25000 := by decide +kernel

theorem witness_FabricTimeAndLeaving :
    (let s : State := { treed none with fab := { (treed none).fab with time := { quiet.fab.time with t1 := some 9 } } }
     let p := { asked 9 32 with src := 2, data := le 8 9 ++ zeros 24 }
     s.fab.devState = 1 ∧ (∃ x, SMap.get? s.fab.trees 0 = some x ∧ x.parent ≠ 0xFFFF ∧ x.parent = p.src.toNat ∧ 3 ∈ x.children) ∧
     p.flags.getLsbD 0 = false ∧ pktClean { p with op := 9 } = true ∧ p.dst.toNat = s.fab.devnum ∧ p.data.length = 32 ∧ s.fab.time.t1 = some 9 ∧ rd p.data 0 8 = 9) ∧
    (let s : State := { quiet with now := 24000000, fab := { quiet.fab with devState := 2 } }
     s.fab.time.lastOk + 10 * 2400000 ≤ s.now ∧ s.fab.devState = 2 ∧ s.fab.leaving = none ∧ s.fab.lastReq + s.fab.tmoUs * 2400 ≤ s.now) := by
  refine ⟨⟨rfl, ⟨_, rfl, ?_⟩, ?_⟩, ?_⟩ <;> decide +kernel

/-! ## The host port and the mailboxes' other ways in (R405 to R436, R502 to R515) -/

def rg : Rg := { perm := 3, rid := 0x100, ridmask := 0xFFFF, aper := 0x10000, size := 0x10000, target := 0 }
def windows : State := { quiet with hp := { quiet.hp with regions := [(3, rg)] } }

/-- R418: an aperture write reaches the region's target; one in no region sets NOREG. -/
theorem test_aperture : (after (.apertureWrite 0x100 0x10010 [7]) windows).mem.byte 0x10 = 7 ∧
    (after (.apertureWrite 0x100 0x20000 [7]) windows).hp.viol = 1 := by decide +kernel

theorem witness_HostWindowsReachTheAddressSpace :
    (quiet.hp.link = 2 ∧ gvalid (quiet.hp.pzBase.toNat + 0xF00) = true ∧ gdev (quiet.hp.pzBase.toNat + 0xF00) = quiet.fab.devnum ∧
      gloc 0xF00 % 256 + 256 ≤ 256 ∧ quiet.site 0xF00 256 = .mem ∧ quiet.mcDown 0xF00 = false ∧ quiet.inRegion 0xF00 256 = false ∧
      quiet.inFrozen 0xF00 256 = false ∧ (zeros 256).length ≤ 512) ∧
    (windows.rgAt 0x1FFFF = some (3, rg) ∧ 0x1FFFF + 1 ≤ rg.aper + rg.size ∧ 0x1FFFF + 1 ≤ flushPage ∧ State.Rg.grants rg 0x100 0 = true ∧
      State.Rg.grants rg 0x101 0 = false ∧ State.Rg.grants rg 0x100 1 = true ∧ State.Rg.grants rg 0x101 1 = false ∧ windows.rgAt 0x20000 = none ∧
      windows.unmappedHere (rg.target.toNat + (0x1FFFF - rg.aper)) 1 = false) := by decide +kernel

/-- R425: a base that is not 2 MiB aligned is refused. -/
theorem test_pz_base : (after (.pzBaseWrite 2 0x200000) quiet).hp.pzBase = 0x200000 ∧ (after (.pzBaseWrite 2 0x100000) quiet).hp.badbase = true := by
  decide +kernel

theorem witness_RegisterWritesAndFlushReads :
    (quiet.hp.link = 2 ∧ (quiet.touch.regWord 0x200038).isSome = true ∧ 0x200038 % 4 = 0 ∧ ¬(0x1000 ≤ 0x200038 ∧ 0x200038 < 0x5000)) ∧
    (0x1C00000 ≤ 0x3FFFFFC ∧ 0x3FFFFFC + 4 ≤ 2 ^ 26 ∧ 0x3FFFFFC % 4 = 0) ∧ (0x1000 ≤ 0x4FFC ∧ 0x4FFC < 0x5000 ∧ 0x4FFC % 4 = 0) ∧
    ¬((2 = 4 ∨ 2 = 8) ∧ 0 % 2 = 0) ∧ ({ quiet.hp with pzPend := some 0 } : HostPort).pzPend = some 0 ∧
    (quiet.hp.pz.live = [] ∧ quiet.hp.pz.fail = false ∧ quiet.hp.reqs = []) ∧ SMap.get? windows.hp.regions 3 = some rg := by decide +kernel

def managed (off : Nat) (op : Nat) : Packet := { asked op 4 with addr := BitVec.ofNat 64 off, vl := 5, data := zeros 4 }
def svc0 : SvcHdr := ⟨0, 1, 0⟩

theorem witness_MailboxesByWordAndMessage :
    (let s := joined 0
     (∀ p ∈ [managed 0xFFC 0xA, managed 0xFFC 0xB], p.dst.toNat = s.fab.devnum ∧ p.dst.toNat ≠ 0xFFFF ∧ p.flags.getLsbD 0 = false ∧ p.len = 4 ∧
       p.vl = 5 ∧ s.fab.fmLo ≤ p.src.toNat ∧ p.src.toNat ≤ s.fab.fmHi ∧ p.addr.toNat ≤ 0xFFC ∧ p.addr.toNat % 4 = 0 ∧
       pktClean { p with op := 0xA } = true ∧ pktClean { p with op := 0xB } = true ∧ p.data.length = 4) ∧
     0xFFC < (managed 0x1000 0xA).addr.toNat ∧ s.fab.fmHi < 0x2000) ∧
    (bitOf (BitVec.ofNat 44 (2 ^ 43)) 43 = true ∧ bitOf (0 : BitVec 44) 43 = false ∧ (1 : W32).getLsbD 0 = true) ∧
    (quiet.svcUp = true ∧ svc0.port < 2 ∧ (zeros 16).length = 16 + rd (zeros 16) 2 2 ∧
      ({ quiet.tru with lastSeq := some 1 } : Trust).lastSeq = some svc0.seq ∧ quiet.tru.lastSeq ≠ some svc0.seq ∧ (quiet.box .svc).busy = none ∧
      (quiet.box .svc).done = false) ∧
    (quiet.tru.mctpBusy = false ∧ (quiet.box .bmc).busy = none ∧ (quiet.box .bmc).done = false ∧
      ({ quiet.tru with mctpBusy := true } : Trust).mctpBusy = true) := by decide +kernel

theorem witness_ServiceTransportsAndExpiries :
    (quiet.svcUp = true ∧ (1 : Nat) < 2 ∧ quiet.svcAddr 1 = quiet.svcAddr 1 ∧ quiet.dc.dstate ≠ 0 ∧ quiet.hp.link = 2) ∧
    ((1 : W32).getLsbD 0 = true ∧ (2 : W32).getLsbD 0 = false ∧ ({ quiet.tru with debug := 2 } : Trust).debug = 2) ∧
    (SMap.get? ({ quiet.tru with nonces := [(0, (5, 9))] } : Trust).nonces (portNo .host) = some (5, 9)) ∧
    ({ quiet.tru with session := some ⟨1, 9, 0⟩ } : Trust).session = some ⟨1, 9, 0⟩ := by
  refine ⟨⟨?_, ?_, rfl, ?_, ?_⟩, ?_, ?_, ?_⟩ <;> decide +kernel

/-- The boot ROM has asked for block 0 of an image. -/
def fetch0 : ImgFetch := { next := 1024, out := [(0, 0)], bytes := [], len := none, lastRx := 0 }
def imaging : State := { pw (fun p => { p with seq := some 4 }) with tru := { quiet.tru with fetch := some fetch0 }, now := 30000 * 2400000 }

theorem witness_ImagesAreFetchedAndHandedOver :
    (imaging.pw.seq = some 4 ∧ imaging.tru.fetch = some fetch0 ∧ (SMap.get? fetch0.out 0).isSome = true ∧ (zeros 1024) ≠ [] ∧ (zeros 1024).length ≤ 1024 ∧
      fetch0.len = none ∧ SMap.get? fetch0.out 0 = some 0 ∧ 0 + 200 * 2400000 ≤ imaging.now ∧ fetch0.lastRx + 30000 * 2400000 ≤ imaging.now) ∧
    imgCheck quiet.tru 0 ⟨(zeros 2000).take 1024, (zeros 2000).drop 1024⟩ ≠ 0 ∧
    (let s : State := { quiet with tru := { quiet.tru with handover := some 1, fwB := some ⟨zeros 1024, []⟩ } }
     s.tru.handover = some 1 ∧ s.pw.pulse = none ∧ s.tru.img 0 1 = some ⟨zeros 1024, []⟩) ∧
    (let s : State := { quiet with now := 24000000, tru := { quiet.tru with handAt := some 0 } }; s.tru.handAt = some 0 ∧ 0 + 10 * 2400000 ≤ s.now) := by
  decide +kernel

theorem witness_AbortsReachTheirTargets :
    (quiet.hp.link = 2 ∧ (0 : W32).getLsbD 31 = false ∧ (BitVec.ofNat 32 (2 ^ 31) : W32).getLsbD 31 = true ∧ quiet.touch.dc.abortGo = false ∧
      ({ quiet.dc with abortGo := true } : Dc).abortGo = true ∧ (∀ k ∈ quiet.touch.dc.aborts, k.kind ≠ 0 ∨ k.handle ≠ 1)) ∧
    (fld (BitVec.ofNat 32 (1 * 2 ^ 16)) 17 16 = 1 ∧ fld (BitVec.ofNat 32 (2 * 2 ^ 16)) 17 16 = 2 ∧ fld (BitVec.ofNat 32 (3 * 2 ^ 16)) 17 16 = 3) ∧
    ((core Ctx.start).touch.prog 1 = some prog ∧ (core Ctx.start).touch.prog 2 = none) ∧
    (let a : AbortJob := ⟨true, .host, 0, 2, 0, 0, [], 0⟩
     let s : State := { quiet with now := 96000, dc := { quiet.dc with aborts := [a] } }
     s.dc.aborts[0]? = some a ∧ a.arrived + 96000 ≤ s.now) := by decide +kernel

/-! ## The vector and row engines (R117 to R155) -/

/-- `VOp.Clear` as a check. -/
def clearB (v : VOp) (i : Ins) (s : State) : Bool :=
  firstFault v.checks == none && firstFault v.late == none && !s.boardFull i v.foot && !s.behind i v.lane v.foot && v.bad s == none &&
    s.frozenFault v.unit v.foot.outs == none

theorem clear_of {v : VOp} {i : Ins} {s : State} (h : clearB v i s = true) : v.Clear i s := by
  simp only [clearB, Bool.and_eq_true, Bool.not_eq_true', beq_iff_eq] at h
  obtain ⟨⟨⟨⟨⟨h1, h2⟩, h3⟩, h4⟩, h5⟩, h6⟩ := h
  exact ⟨h1, h2, ⟨h3, h4⟩, h5, h6⟩

/-- Core 0 with a1, a2, a3, a4, … at 0, 0x100, 0x200, … of its scratchpad, and more registers. -/
def vctx (more : List (Nat × Nat)) : Ctx :=
  regs ([(1, spadOf 0), (2, spadOf 0 + 0x100), (3, spadOf 0 + 0x200), (4, spadOf 0 + 0x300)] ++ more)
def vcore (more : List (Nat × Nat)) (bytes : List Byte := []) : State := (core (vctx more)).store (spadOf 0) bytes

/-- Specifier of FP32 elements in memory at a register. -/
def spec (r : Nat) : Nat := 0x800 + r
def addW : Nat := 0x01 * 2 ^ 25 + 0x10 * 2 ^ 16 + 0x11 * 2 ^ 11
/-- Two elements at a1 plus two at a2, stored at a3. -/
def vewF : Frame := frame 0x60 [(16, 1), (24, 1), (44, spec 1), (56, spec 2), (80, spec 3), (92, addW)]
/-- One element at a1 through micro-program 0, stored at a3. -/
def vmpF : Frame := frame 0x61 [(18, 1), (40, spec 1), (88, spec 3)]
def vmpCore : State := vcore [] |>.modCtx 0 fun x => { x with uops := [(0, ⟨[BitVec.ofNat 32 (0x3C * 2 ^ 25 + 0x10 * 2 ^ 16)], []⟩)] }

/-- R133: 1.5 + 2.5 = 4 and -1 + 1 = 0 in FP32. -/
theorem test_vew_adds : (let s := (vcore [] (le 4 0x3FC00000 ++ le 4 0xBF800000)).store (spadOf 0 + 0x100) (le 4 0x40200000 ++ le 4 0x3F800000)
    (after (.vew 0 vewF) s).mem.read (spadOf 0 + 0x200) 8) = le 4 0x40800000 ++ le 4 0 := by decide +kernel
/-- R129: a micro-program that only outputs its input copies it. -/
theorem test_vmp_copies : (after (.vmp 0 vmpF) (vmpCore.store (spadOf 0) (le 4 0x3FC00000))).mem.read (spadOf 0 + 0x200) 4 = le 4 0x3FC00000 := by
  decide +kernel

theorem witness_ElementStreamsWriteTheirOutputs :
    (opcode vewF = 0x60 ∧ Ready (vcore []) 0 vewF (vewRegs vewF) ∧ vewDec vewF = none ∧ (vewOp ((vcore []).ins 0 vewF) (vcore [])).Clear ((vcore []).ins 0 vewF) (vcore []) ∧
      bitOf vewF 39 = false ∧ (opnd (vcore []) 0 (fld vewF 91 80) true).mem = true ∧ (opnd (vcore []) 0 (fld vewF 91 80) true).fmt = .fp32 ∧
      (∀ i ∈ (vewIns vewF).map fun v => opnd (vcore []) 0 v false, Opnd.clash (opnd (vcore []) 0 (fld vewF 91 80) true) i 2 = false) ∧
      (vcore []).inRegion (opnd (vcore []) 0 (fld vewF 91 80) true).loc 8 = false) ∧
    (opcode vmpF = 0x61 ∧ Ready vmpCore 0 vmpF (vmpRegs vmpF) ∧ vmpDec vmpF = none ∧ (vmpOp (vmpCore.ins 0 vmpF) vmpCore).Clear (vmpCore.ins 0 vmpF) vmpCore) := by
  refine ⟨⟨?_, ready_of ?_, ?_, clear_of ?_, ?_, ?_, ?_, ?_, ?_⟩, ?_, ready_of ?_, ?_, clear_of ?_⟩ <;> decide +kernel

/-- Two records from record 4,094 on to a1; the same past the last record; and back. -/
def smstF : Frame := frame 0x8C [(24, 1), (36, 5), (40, 1)]
def smldF : Frame := frame 0x8D [(24, 1), (36, 5), (40, 1)]
def rstatF : Frame := frame 0x88 [(16, 0), (25, 1), (26, 1), (32, 9), (38, 10), (44, 5)]
def rfinF : Frame := frame 0x89 [(22, 3), (28, 5)]
def recCore (k : Nat) : State := vcore [(5, k)] (zeros 12 ++ le 4 (4 * 2 ^ 28))
/-- Record 5 holds running statistics: maximum 0, sum 2. -/
def statCore : State := (vcore [(5, 5)]).modCtx 0 fun x => x.setRec 5 ⟨0, 0x40000000, 0, 4, false⟩

/-- R151: the reciprocal of a sum of 2 is 0.5. -/
theorem test_rfin : ((ctx (after (.rfin 0 rfinF) statCore)).getV 3).toNat % 2 ^ 32 = 0x3F000000 := by decide +kernel

theorem witness_RecordsAreStoredLoadedAndFinished :
    (let s := recCore 4094
     opcode smstF = 0x8C ∧ Ready s 0 smstF [1, 5] ∧ Zero smstF [(127, 44), (23, 16)] ∧ spadOf 0 % 16 = 0 ∧ s.ownFault 0 (spadOf 0) 32 0x63 3 = none ∧
     Starts s (s.ins 0 smstF) 30 ⟨[⟨gloc (spadOf 0), gloc (spadOf 0) + 32, true⟩], []⟩ ∧ s.frozenFault 3 [(gloc (spadOf 0), 32)] = none ∧
     (∀ k, k < 4 → SMap.getD (s.ctx 0).sidePois (2 * 4094 + k) false = false) ∧ s.inRegion (gloc (spadOf 0)) 32 = false) ∧
    (let s := recCore 4094
     opcode smldF = 0x8D ∧ Ready s 0 smldF [1, 5] ∧ Zero smldF [(127, 44), (23, 16)] ∧
     Starts s (s.ins 0 smldF) 30 ⟨[⟨gloc (spadOf 0), gloc (spadOf 0) + 32, false⟩], []⟩ ∧ s.poisoned (gloc (spadOf 0)) 32 = false ∧
     (∀ k, k < 2 → leNat (s.mem.read (gloc (spadOf 0) + 16 * k) 16) / 2 ^ 124 ≤ 5)) ∧
    (4096 < 4095 + 2 ∧ Ready (recCore 4095) 0 smstF [1, 5] ∧ Ready (vcore [(1, spadOf 0 + 1)]) 0 smstF [1, 5]) ∧
    (opcode rstatF = 0x88 ∧ Ready (recCore 4095) 0 rstatF [fld rstatF 47 44] ∧ rstatDec rstatF = none ∧
      (rstatOp ((recCore 4095).ins 0 rstatF) (recCore 4095)).Clear ((recCore 4095).ins 0 rstatF) (recCore 4095)) ∧
    (opcode rfinF = 0x89 ∧ Ready statCore 0 rfinF [fld rfinF 31 28] ∧ Zero rfinF [(127, 32), (21, 20)] ∧ (rfinOp (statCore.ins 0 rfinF) statCore).Clear (statCore.ins 0 rfinF) statCore) := by
  refine ⟨⟨?_, ready_of ?_, zero_of ?_, ?_, ?_, ?_, ?_, ?_, ?_⟩, ⟨?_, ready_of ?_, zero_of ?_, ?_, ?_, ?_⟩, ⟨?_, ready_of ?_, ready_of ?_⟩,
    ⟨?_, ready_of ?_, ?_, clear_of ?_⟩, ?_, ready_of ?_, zero_of ?_, clear_of ?_⟩ <;> decide +kernel

def vldF : Frame := frame 0x62 [(46, 63), (52, 1), (24, 1)]
def vstF : Frame := frame 0x63 [(46, 0), (52, 1), (56, 2), (24, 31), (42, 5)]
def vredF : Frame := frame 0x64 [(44, spec 1), (56, 2), (26, 1)]
def uploadF : Frame := frame 0x68 [(16, 1), (20, 15), (24, 31)]
/-- One row of two elements at a1, its results at a2, saving record a5. -/
def normF : Frame := frame 0x80 [(56, 1), (60, 2), (72, 3), (76, 6), (80, 7), (84, 5), (39, 1)]
/-- One row of two elements at a1 and gradients at a3, dx at a2, with the gradients of the parameters at a4. -/
def normbF : Frame := frame 0x81 [(56, 1), (60, 2), (68, 3), (72, 8), (76, 6), (80, 7), (84, 5), (88, 4), (39, 1)]
def smaxF : Frame := frame 0x84 [(56, 1), (60, 2), (72, 3), (76, 6), (80, 7), (84, 5), (41, 1), (96, 0x3F800000)]
def smaxbF : Frame := frame 0x85 [(56, 1), (60, 2), (68, 3), (72, 8), (76, 6), (80, 7), (96, 0x3F800000)]
def rowCore : State := vcore [(5, 4095), (6, 2), (7, 1), (8, 16)] |>.modCtx 0 fun x => x.setRec 4095 ⟨0, 0, 0, 1, false⟩
/-- A window of one element over a tensor of one position and sixteen channels. -/
def windowD : List Byte := (List.range 6).flatMap (fun _ => le 2 1) ++ [1, 1, 1, 0, 1, 1, 1, 0, 1, 1, 1, 0, 0, 0, 0, 0] ++ le 2 1 ++ [16, 0] ++ zeros 32
def poolF (op : Nat) : Frame := frame op ([(32, 2), (36, 3), (40, 1)] ++ if op = 0x6D then [(44, 4)] else [])
def poolCore : State := vcore [] windowD

/-- R137: two FP32 elements arrive in the register as they stand in memory. -/
theorem test_vld : ((ctx (after (.vld 0 vldF) (vcore [] (le 4 0x3FC00000 ++ le 4 7)))).getV 63).toNat = 0x3FC00000 + 7 * 2 ^ 32 := by decide +kernel
/-- R138: 1 + 2 = 3, with a zero correction. -/
theorem test_vred : (after (.vred 0 vredF) (vcore [] (le 4 0x3F800000 ++ le 4 0x40000000))).mem.read (spadOf 0 + 0x100) 8 = le 4 0x40400000 ++ zeros 4 := by
  decide +kernel
/-- R147: the row (1, 3) normalises to (-1, 1), mean 2, reciprocal deviation 1. -/
theorem test_normf : (let t := after (.normf 0 normF) (rowCore.store (spadOf 0) (le 4 0x3F800000 ++ le 4 0x40400000))
    t.mem.read (spadOf 0 + 0x100) 8 = le 4 0xBF800000 ++ le 4 0x3F800000 ∧ (ctx t).record 4095 = ⟨0x40000000, 0x3F800000, 0, 1, false⟩) := by decide +kernel
/-- R149: two equal elements share the soft maximum. -/
theorem test_smaxf : (after (.smaxf 0 smaxF) rowCore).mem.read (spadOf 0 + 0x100) 8 = le 4 0x3F000000 ++ le 4 0x3F000000 := by decide +kernel
/-- R141: the maximum of one element is that element. -/
theorem test_pool : (after (.pool 0 (poolF 0x6C)) (poolCore.store (spadOf 0 + 0x100) (le 4 0x40A00000))).mem.read (spadOf 0 + 0x200) 4 = le 4 0x40A00000 := by
  decide +kernel

theorem witness_MovesReductionsAndRowsStoreOnlyTheirOutputs :
    (Ready (vcore []) 0 vldF (vldRegs vldF) ∧ vldDec vldF = none ∧ (vmoveOp true ((vcore []).ins 0 vldF) (vcore [])).Clear ((vcore []).ins 0 vldF) (vcore [])) ∧
    (Ready (vcore []) 0 vstF (vldRegs vstF) ∧ vldDec vstF = none ∧ (vmoveOp false ((vcore []).ins 0 vstF) (vcore [])).Clear ((vcore []).ins 0 vstF) (vcore []) ∧
      (vcore []).inRegion (spadOf 0) 32 = false ∧ (vcore []).inRegion (spadOf 0 + 0x100) 1 = false) ∧
    (Ready (vcore []) 0 vredF (vredRegs vredF) ∧ vredDec vredF = none ∧ (vredOp ((vcore []).ins 0 vredF) (vcore [])).Clear ((vcore []).ins 0 vredF) (vcore [])) ∧
    (Ready (vcore []) 0 uploadF [fld uploadF 19 16] ∧ Zero uploadF [(127, 29)] ∧ spadOf 0 % 16 = 0 ∧ (vcore []).ownFault 0 (spadOf 0) 256 0x63 2 = none ∧
      Starts (vcore []) ((vcore []).ins 0 uploadF) 21 ⟨[⟨gloc (spadOf 0), gloc (spadOf 0) + 256, false⟩], []⟩ ∧
      (vcore []).poisoned (gloc (spadOf 0)) 256 = false ∧
      (∀ k, k < 32 → (UWord.of (leNat ((vcore [] ((List.range 32).flatMap fun _ => le 4 (0x01 * 2 ^ 25))).mem.read (gloc (spadOf 0) + 4 * k) 4))).ok = true)) ∧
    (Ready rowCore 0 normF (normRegs false normF) ∧ normDec false normF = none ∧ firstFault (normShape (rowCore.ins 0 normF) rowCore) = none ∧
      (normOp false (rowCore.ins 0 normF) rowCore).Clear (rowCore.ins 0 normF) rowCore) ∧
    (Ready rowCore 0 normbF (normRegs true normbF) ∧ normDec true normbF = none ∧ firstFault (normShape (rowCore.ins 0 normbF) rowCore) = none ∧
      (normOp true (rowCore.ins 0 normbF) rowCore).Clear (rowCore.ins 0 normbF) rowCore) ∧
    (Ready rowCore 0 smaxF (smaxRegs false smaxF) ∧ smaxDec false smaxF = none ∧ smaxShape (rowCore.ins 0 smaxF) rowCore = none ∧
      (smaxOp false (rowCore.ins 0 smaxF) rowCore).Clear (rowCore.ins 0 smaxF) rowCore) ∧
    (Ready rowCore 0 smaxbF (smaxRegs true smaxbF) ∧ smaxDec true smaxbF = none ∧ smaxShape (rowCore.ins 0 smaxbF) rowCore = none ∧
      (smaxOp true (rowCore.ins 0 smaxbF) rowCore).Clear (rowCore.ins 0 smaxbF) rowCore) ∧
    (∀ b : Bool, let f := poolF (if b then 0x6D else 0x6C); let w := Win3.of (poolCore.read (gloc (spadOf 0)) 64)
      Ready poolCore 0 f (poolRegs b f) ∧ poolDec b f = none ∧ poolCore.ownFault 0 (spadOf 0) 64 0x63 2 = none ∧
      poolCore.conflict (poolCore.ins 0 f) ⟨[⟨gloc (spadOf 0), gloc (spadOf 0) + 64, false⟩], []⟩ = false ∧ poolCore.poisoned (gloc (spadOf 0)) 64 = false ∧
      w.rsvd = true ∧ w.ok = true ∧ (poolOp b (poolCore.ins 0 f) poolCore w).Clear (poolCore.ins 0 f) poolCore) := by
  refine ⟨⟨ready_of ?_, ?_, clear_of ?_⟩, ⟨ready_of ?_, ?_, clear_of ?_, ?_, ?_⟩, ⟨ready_of ?_, ?_, clear_of ?_⟩,
    ⟨ready_of ?_, zero_of ?_, ?_, ?_, ?_, ?_, ?_⟩, ⟨ready_of ?_, ?_, ?_, clear_of ?_⟩, ⟨ready_of ?_, ?_, ?_, clear_of ?_⟩,
    ⟨ready_of ?_, ?_, ?_, clear_of ?_⟩, ⟨ready_of ?_, ?_, ?_, clear_of ?_⟩, fun b => ?pools⟩
  case pools => cases b <;> refine ⟨ready_of ?_, ?_, ?_, ?_, ?_, ?_, ?_, clear_of ?_⟩ <;> decide +kernel
  all_goals decide +kernel

/-! ## Programs (R157 to R165, R198) -/

/-- Another placed program of the same cores waits for the core. -/
def contended : State :=
  { (core Ctx.start).startProg 2 { prog with st := 2, order := 1, runFrom := none, slot := none, save := 0x200000 } 0 with now := 1000 * 2400 }

theorem test_start : (let t := quiet.startProg 1 { prog with st := 2, textLen := 64 } 0x77
    (t.ctx 0).getA 0 = 0x77 ∧ (t.ctx 0).pc = 0 ∧ (t.core 0).st = 1) := by decide +kernel
/-- The same while program 1 is switched out, when core 0 has written its matrix state. -/
def leaving : State := (contended.preempt 1 prog).modCore 0 fun k => { k with spill := 0 }
/-- R41, R192: after its slice a program leaves its cores and gives way to a waiting one. -/
theorem test_slice : ((after (.programSliceExpiry 1) contended).core 0).st = 2 ∧
    (let t := after (.programSliceExpiry 1) leaving; (t.prog 1).map (·.st) = some 4 ∧ (t.prog 2).map (·.st) = some 3) := by decide +kernel

theorem witness_ProgramsRunSwitchAndRetire :
    (prog.place = some (0, 0) ∧ 0 ∈ prog.cores ∧ State.canRun { quiet with fresh := quiet.fresh + 1 } { prog with
      order := quiet.fresh, arg := 5, recs := [], nfault := 0, runCyc := 0, slice := quiet.dc.pslice, still := 0, fail := false, switches := 0, runFrom := none, slot := none, saved := [] } = true ∧
      State.yields { quiet with fresh := quiet.fresh + 1 } 1 { prog with
      order := quiet.fresh, arg := 5, recs := [], nfault := 0, runCyc := 0, slice := quiet.dc.pslice, still := 0, fail := false, switches := 0, runFrom := none, slot := none, saved := [] } = true) ∧
    (contended.dc.kill = [] ∧ contended.prog 1 = some prog ∧ contended.tru.handAt = none ∧ contended.switching prog = false ∧ prog.st = 3 ∧
      prog.fail = false ∧ prog.runFrom = some 0 ∧ 0 + prog.slice * 2400 + prog.still ≤ contended.now ∧ contended.wanted 1 prog = true ∧
      (∀ c ∈ prog.cores, (contended.core c).st ≠ 6)) ∧
    (leaving.dc.kill = [] ∧ leaving.tru.handAt = none ∧ leaving.prog 1 = some prog ∧ leaving.switching prog = true ∧ leaving.clipsRun 1 = false ∧
      (∀ c ∈ prog.cores, (leaving.core c).spill = 0 ∧ leaving.switchBusy c 1 = false) ∧
      (∀ c ∈ prog.cores, ((contended.preempt 1 prog).core c).spill ≠ 0) ∧ (contended.preempt 1 prog).switching prog = true) ∧
    (quiet.inMap 3071 = true ∧ quiet.progs = []) ∧
    (quiet.tru.debug = 0 ∧ ({ quiet.tru with debug := 1 } : Trust).debug ≠ 0 ∧ ((core Ctx.start).core 0).st = 1 ∧ ((core Ctx.start).core 0).step = 0 ∧
      ((core Ctx.start).core 0).ctx.mx.pass = none ∧ ((core Ctx.start).core 0).ctx.mx.gather = none ∧ ((quiet.setCore 0 { Core.idle with st := 6 }).core 0).st = 6 ∧ 0 < nCores) := by decide +kernel

/-! ## The matrix engines (R36 to R74) -/

def mx0 : Matrix := Ctx.start.mx
/-- Core 0 runs with the matrix state given. -/
def mxs (m : Matrix) : State := core { Ctx.start with mx := m }
def load0 : PanelLoad :=
  { uid := 1, owner := 0, frame := frame 0x44 [], pc := 0x10, fmt := .bf16, kp := 1, ncol := 1, trans := false, base := spadOf 0, stride := 16,
    sbase := 0, src := none, issue := 0, began := none, ended := none, data := [] }
def loaded : PanelLoad := { load0 with began := some 0, data := [[some (.fin 2 0)]] }
/-- The row of core tile 15, row 15, whose one element is the constant read at an address. -/
def row0 : RowSrc := ⟨15, 15, [some (spadOf 0 * 8)], [none]⟩
def pass0 : PassSpec := ⟨[[row0]], .bf16, true, 1, 0, 0⟩
def entry0 (k : MKind) : MEntry := ⟨2, frame 0x40 [], 0x20, 0, k, ⟨[], []⟩, []⟩
def passing (ended : Option Nat) : Matrix :=
  { mx0 with queue := [entry0 (.passes 3 [pass0] true)], pass := some ⟨0, 1, 1, pass0, { loaded with ended := ended }⟩ }
/-- The core has run many cycles. -/
def late (s : State) : State := s.modCtx 0 fun x => { x with cycles := 2 ^ 20 }
def windowOf : Gather := { base := 0, stride := 0, arm := 1, fbase := 0, tmo := 1, since := some 0, opened := 0, seen := 0, due := none }

/-- R60, R95: 3 times 2 lands in the output of row 15, column 0. -/
theorem test_feed : (((mxs mx0).store (spadOf 0) (le 2 0x4040)).feedRow 0 3 pass0 loaded row0 |>.mx 0).pair (accKey 3 3 15 3 0) = ⟨0x40C00000, 0⟩ := by
  decide +kernel

theorem witness_PanelLoadsAndPassesFollowTheirTimes :
    (let m := { mx0 with loads := [load0] }; let s := mxs m; let t := late s
     s.matrixOn 0 = true ∧ t.matrixOn 0 = true ∧ load0.began = none ∧ load0.bad t = false ∧ load0.bad { t with mem := t.mem.taint (spadOf 0) 4 } = true ∧
     s.cyc 0 < max (load0.issue + load0.lat) (max m.prevStart (max m.loadEnd (State.takenEnd m))) ∧
     max (load0.issue + load0.lat) (max m.prevStart (max m.loadEnd (State.takenEnd m))) ≤ t.cyc 0) ∧
    (let m := { mx0 with loads := [loaded] }; m.pass = none ∧ m.late = none ∧ loaded.began = some 0 ∧ loaded.ended = none ∧
      (mxs m).cyc 0 < 0 + loaded.dur ∧ 0 + loaded.dur ≤ (late (mxs m)).cyc 0) ∧
    ((passing none).late = none ∧ (passing none).pass = some ⟨0, 1, 1, pass0, loaded⟩ ∧ 0 + loaded.dur ≤ (late (mxs (passing none))).cyc 0 ∧
      ({ mx0 with late := some loaded } : Matrix).late = some loaded) ∧
    (∀ own : Bool, let l := { loaded with owner := if own then 2 else 0 }; let e := entry0 (.passes 3 [pass0] own)
     let m := { mx0 with loads := [l], queue := [e] }; let s := late (mxs m)
     let start := max m.prevEnd (max (0 + l.dur - (l.ncol - 1)) ((if own then l.issue else e.issue) + pass0.lat))
     s.matrixOn 0 = true ∧ m.pass = none ∧ l.began = some 0 ∧ s.matrixWaits 0 e = false ∧
     (mxs m).cyc 0 < start ∧ start ≤ s.cyc 0 ∧ s.passFault 0 pass0 l = none ∧ s.passFault 0 (State.fitPass 2 pass0) { l with fmt := .int8, kp := 2 } = some ⟨0x41, 1, 0, 0, 0⟩ ∧
     (pass0.slots.take 1).flatten.any (s.rowBad pass0.afmt) = false) ∧
    ((passing none).pass = some ⟨0, 1, 1, pass0, loaded⟩ ∧ (mxs (passing none)).cyc 0 < 0 + 1 ∧ 0 + 1 ≤ (late (mxs (passing none))).cyc 0) ∧
    (let s := mxs { mx0 with queue := [entry0 (.gwait 3)], gather := some { windowOf with due := some 0 } }
     (s.mx 0).queue = [entry0 (.gwait 3)] ∧ s.matrixOn 0 = true) ∧
    (let s := core { Ctx.start with hold := some { frame := frame 0x44 [], waited := 0 }, mx := { mx0 with loads := [load0, load0, load0, load0] } }
     s.matrixOn 0 = true ∧ (s.ctx 0).hold = some { frame := frame 0x44 [], waited := 0 } ∧ opcode (frame 0x44 []) = 0x44 ∧ 4 ≤ (s.mx 0).queued.length ∧
     (∀ e ∈ (s.mx 0).queue, MKind.takes e.kind = false)) := by
  refine ⟨?_, ?_, ?_, fun own => ?own, ?_, ?_, ?_⟩
  case own => cases own <;> decide +kernel
  all_goals decide +kernel

theorem witness_ProductsAccumulateInTheirOutputs : loaded.data.length ≤ 4 ∧ loaded.data[0]? = some [some (.fin 2 0)] ∧ row0.row < 16 ∧ 3 < 4 ∧ loaded.data ≠ [] := by
  decide

def acczF (tile n : Nat) : Frame := frame 0x58 [(20, 3), (22, tile), (26, n - 1)]
def accRawF (op : Nat) : Frame := frame op [(16, 3), (20, 1)]

theorem witness_AccumulatorsAreClearedSavedAndLoaded :
    (let s := core (regs [(1, spadOf 0)])
     (s.mx 0).queue = [] ∧ (s.ctx 0).attn = none ∧ (s.mx 0).decs = [] ∧ (s.mx 0).ready ≤ s.cyc 0 ∧ Ready s 0 (acczF 15 1) [] ∧ Starts s (s.ins 0 (acczF 15 1)) 40 Foot.none ∧ Zero (acczF 15 1) [(127, 30), (19, 16)] ∧ 15 + 1 ≤ 16 ∧
     Ready s 0 (acczF 15 2) [] ∧ Zero (acczF 15 2) [(127, 30), (19, 16)] ∧ 16 < 15 + 2 ∧
     (∀ op, op = 0x5B ∨ op = 0x5C → opcode (accRawF op) = op ∧ Ready s 0 (accRawF op) [fld (accRawF op) 23 20] ∧ Zero (accRawF op) [(127, 24), (19, 18)]) ∧
     s.ownFault 0 (spadOf 0) 8192 0x43 1 = none ∧ s.inRegion (gloc (spadOf 0)) 8192 = false ∧ s.mem.poisoned (gloc (spadOf 0)) 8192 = false ∧
     s.frozenFault 1 [(gloc (spadOf 0), 8192)] = none ∧
     (∀ b : Bool, Starts s (s.ins 0 (accRawF (if b then 0x5C else 0x5B))) 40 ⟨[⟨gloc (spadOf 0), gloc (spadOf 0) + 8192, !b⟩], []⟩)) ∧
    (let s := core (regs [(1, spadOf 0 + 8)]); Ready s 0 (accRawF 0x5B) [fld (accRawF 0x5B) 23 20] ∧ ((s.ctx 0).getA 1).toNat % 16 ≠ 0) := by
  refine ⟨⟨?_, ?_, ?_, ?_, ready_of ?_, ?_, zero_of ?_, ?_, ready_of ?_, zero_of ?_, ?_, fun op h => ?ops, ?_, ?_, ?_, ?_, ?_⟩, ready_of ?_, ?_⟩
  case ops => rcases h with rfl | rfl <;> refine ⟨?_, ready_of ?_, zero_of ?_⟩ <;> decide +kernel
  all_goals decide +kernel

/-! ## Sequences, pools and attention (R199 to R240) -/

/-- A pool in use with one deck frame and one LPDDR5X frame. -/
def pool0 : KvPool :=
  { phase := 2, fmt := .bf16, heads := 1, hdim := 16, pfd := 0, lwm := 0, deckBase := deckOf 0, deckFrames := 1, lpBase := 0, lpFrames := 1,
    tblBase := 0, maxSeq := 4, maxPages := 2, idleUs := 0, leases := [], frames := [], spillDeck := 0, spillLp := 0, lowDeck := false, lowLp := false }
def seq0 : KvSeq := ⟨16, [(0, 0)], 0, [], [], true, 0⟩
def edit0 (op arg : Nat) : Edit := ⟨0, .cmd 0 0, [], op, 0, arg, false, 1⟩
/-- Pool 0 with sequence 0 as given, and one edit of it. -/
def editing (q : KvPool) (r : KvSeq) (e : Edit) : State := { quiet with kv := { quiet.kv with pools := [(0, q)], seqs := [(0, r)], edits := [e] } }
/-- `editing` with one frame of the deck in use. -/
def held (r : KvSeq) (e : Edit) : State := editing { pool0 with frames := [(0, ⟨1, 0⟩)] } r e

/-- R206: EXTEND by the tokens of the reserved page; one token more is refused. -/
theorem test_extend : ((after (.extend 0) (held { seq0 with len := 0 } (edit0 4 16))).kvSeq 0).map (·.len) = some 16 ∧
    ((after (.extend 0) (held { seq0 with len := 0 } (edit0 4 17))).kvSeq 0).map (·.len) = some 0 := by decide +kernel

/-- A page in LPDDR5X whose deck has a free frame. -/
def low : KvSeq := ⟨16, [(0, 2 ^ 30)], 0, [], [], true, 0⟩
def spare0 : KvPool := { pool0 with frames := [(2 ^ 30, ⟨1, 0⟩)] }
def spare (r : KvSeq) (e : Edit) : State := editing spare0 r e
/-- The bytes of a frame have come. -/
def fetched : Option (Nat × List (Byte × Bool)) → Bool
  | some (st, _) => st == St.ok
  | none => false

theorem witness_EditsOfSequencesAreApplied :
    (∀ op, (held seq0 (edit0 op 0)).arriveEdits = held seq0 (edit0 op 0)) ∧
    (∀ op, op < 10 → (held seq0 (edit0 op 0)).kv.edits[0]? = some (edit0 op 0) ∧ (held seq0 (edit0 op 0)).editReady (edit0 op 0) = true ∧
      (edit0 op 0).bad = false ∧ nfld (edit0 op 0).seq 27 20 = 0 ∧ (held seq0 (edit0 op 0)).kvPool 0 = some { pool0 with frames := [(0, ⟨1, 0⟩)] } ∧
      (held seq0 (edit0 op 0)).kvSeq 0 = some seq0) ∧
    (let e : Edit := { edit0 0 0 with after := [5], arr := 0 }
     let s : State := { held seq0 e with fresh := 9, sigs := [⟨5, .core 0 1 0 0, .here 0 0, false, 0, [], 0⟩] }
     (∀ x ∈ s.kv.edits, x.arr ≠ 0 ∨ x.after.any s.alive = true) ∧ s.editReady e = false ∧ { s with sigs := [] }.arriveEdits.kv.edits = [{ e with arr := 10 }]) ∧
    ((held seq0 (edit0 1 0)).newSeqNo 0 4 0 = .error St.badField ∧ (held seq0 (edit0 1 3)).newSeqNo 0 4 3 = .ok 3 ∧ (held seq0 (edit0 1 3)).residents < 16384) ∧
    ((quiet.kvSeq 0) = none) ∧
    (pool0.maxPages * 16 < 16 + 17 ∧ 16 + 16 ≤ pool0.maxPages * 16 ∧
      ((List.range ((16 + 0 + 15) / 16)).filter fun p => (SMap.get? seq0.pages p).isNone) = [] ∧
      ((List.range ((16 + 16 + 15) / 16)).filter fun p => (SMap.get? seq0.pages p).isNone) = [1] ∧ seq0.log = [] ∧
      1 ≤ ({ pool0 with frames := [(0, ⟨1, 0⟩)] } : KvPool).freeDeck + pool0.freeLp + pool0.freeRemote ∧
      (let q : KvPool := { pool0 with frames := [(0, ⟨1, 0⟩)], lpFrames := 0 }; q.freeDeck + q.freeLp + q.freeRemote < 1) ∧ (held seq0 (edit0 3 16)).comingFree 0 0 (2 ^ 32) = false) ∧
    (16 * seq0.pages.length < 16 + 1 ∧ 16 + 0 ≤ 16 * seq0.pages.length) ∧ (seq0.len < 17 ∧ (∀ p ∈ seq0.pages ++ seq0.pend, p.1 < (16 + 15) / 16)) ∧
    (SMap.get? seq0.pages 1 = none ∧ SMap.get? seq0.pend 0 = none ∧ SMap.get? ({ seq0 with pend := [(0, 2 ^ 30)] } : KvSeq).pend 0 = some (2 ^ 30) ∧
      (held seq0 (edit0 7 0)).latched 0 = false ∧ 2 ^ 30 ≠ noFrame) ∧
    (SMap.get? seq0.pages 0 = some 0 ∧ 0 < (seq0.len + 15) / 16) ∧ seq0.len % 16 = 0 ∧
    (SMap.get? low.pages 0 = some (2 ^ 30) ∧ (spare low (edit0 8 0)).latched 0 = false ∧
      spare0.frameAddr (spare low (edit0 8 0)).fab.devnum (2 ^ 30) = some 0 ∧
      fetched (((spare low (edit0 8 0)).setSeq 0 { low with resident := true, lastUse := 0 }).frameData (.edit 0) 0 spare0.psz 1).1 = true) ∧
    ((spare low (edit0 9 3)).newSeqNo 0 4 3 = .ok 3 ∧ (spare low (edit0 9 3)).residents < 16384) ∧ spare0.pickDeck 0 = some 0 := by
  refine ⟨fun _ => rfl, ?_, ?_, ?_, ?_, ?_, ?_, ?_, ?_, ?_, ?_, ?_, ⟨?_, ?_⟩, ?pick⟩
  case pick => simp [KvPool.pickDeck, KvPool.pick, KvPool.used, spare0, pool0, Nat.mod_one, SMap.get?]
  all_goals decide +kernel

/-- A deck with its one frame in use, below its mark. -/
def lowPool : KvPool := { pool0 with lwm := 1, frames := [(0, ⟨1, 0⟩)] }
def spilling (missing status : Nat) : State :=
  { quiet with
    kv := { quiet.kv with pools := [(0, { lowPool with frames := [(0, ⟨1, 7⟩), (2 ^ 30, ⟨0, 0⟩)] })], seqs := [(0, seq0)], spills := [⟨0, 0, 2 ^ 30, 0⟩] }
    fab := { quiet.fab with fetches := [⟨.spill 0 0, [], [], missing, status⟩] } }
/-- All 16,384 record places are taken, and a CREATE waits. -/
def crowd : State :=
  { quiet with kv := { quiet.kv with
      pools := [(0, pool0)], edits := [edit0 1 0]
      seqs := (0, ⟨0, [], 0, [], [], true, 0⟩) :: (List.range 16383).map fun n => (n + 1, ⟨0, [], 0, [], [], true, 0⟩) } }

theorem crowd_residents : crowd.residents = 16384 := by
  have h : crowd.kv.seqs.filter (fun r => r.2.resident) = crowd.kv.seqs := List.filter_eq_self.2 (by simp [crowd])
  unfold State.residents
  rw [h]
  simp [crowd]

/-- R211: a spill whose copy has come installs the page. -/
theorem test_spill_installs : ((after (.spillCopyDone 0 true) (spilling 0 0)).kvSeq 0).map (·.pages) = some [(0, 2 ^ 30)] := by decide +kernel

theorem witness_PagesSpillAndFramesReturn :
    (quiet.kvPool 0 = none ∧ (editing { pool0 with phase := 1 } seq0 (edit0 0 0)).kvPool 0 = some { pool0 with phase := 1 }) ∧
    (let s := editing pool0 seq0 (edit0 0 0)
     s.kvPool 0 = some pool0 ∧ pool0.phase = 2 ∧ (∀ x ∈ s.kv.spills, x.pool ≠ 0) ∧ pool0.lowDeck = false ∧ pool0.lowLp = false ∧
     pool0.lwm * pool0.deckFrames ≤ 256 * pool0.freeDeck ∧ pool0.lwm * pool0.lpFrames ≤ 256 * pool0.freeLp) ∧
    (let s := editing lowPool seq0 (edit0 0 0); let p : KvPool := { lowPool with lowDeck := true }
     256 * lowPool.freeDeck < lowPool.lwm * lowPool.deckFrames ∧ lowPool.lwm * lowPool.lpFrames ≤ 256 * lowPool.freeLp ∧
     State.spillVictim (s.setPool 0 p) 0 0 (2 ^ 30) p = some 0) ∧
    KvPool.pickLp { lowPool with lowDeck := true } 1 = some (2 ^ 30) ∧
    ((spilling 1 0).kv.spills[0]? = some ⟨0, 0, 2 ^ 30, 0⟩ ∧ (spilling 1 0).fetch? (.spill 0 0) = some ⟨.spill 0 0, [], [], 1, 0⟩ ∧
      ((spilling 1 0).kvPool 0).isSome = true ∧ (spilling 0 3).fetch? (.spill 0 0) = some ⟨.spill 0 0, [], [], 0, 3⟩ ∧ 3 ≠ St.ok) ∧
    (((spilling 0 0).installSpill ⟨0, 0, 2 ^ 30, 0⟩).isSome = true ∧ (spilling 0 0).sharers 0 0 ≠ []) ∧
    (crowd.kvSeq 0 = some ⟨0, [], 0, [], [], true, 0⟩ ∧ crowd.kvPool 0 = some pool0 ∧ 16384 ≤ crowd.residents ∧ edit0 1 0 ∈ crowd.kv.edits ∧
      crowd.latched 0 = false ∧ (∀ n x, (n, x) ∈ crowd.kv.seqs → x.resident = true → 0 ≤ x.lastUse) ∧ 0 + pool0.idleUs * 2400 ≤ crowd.now) ∧
    (let s : State := { held seq0 (edit0 0 0) with kv := { (held seq0 (edit0 0 0)).kv with
      pools := [(0, { pool0 with frames := [(5, ⟨0, 0⟩), (6, ⟨1, 0⟩)] })], releases := [⟨0, 5, 0, 0⟩] } }
     (∃ q, s.kvPool 0 = some q ∧ SMap.get? q.frames (5 : W32).toNat = some ⟨0, 0⟩ ∧ SMap.get? q.frames (6 : W32).toNat = some ⟨1, 0⟩) ∧
     (∃ r ∈ s.kv.releases, r.pool = 0 ∧ r.entry = (5 : W32).toNat) ∧
     (∀ n x, (n, x) ∈ s.kv.seqs → ∀ l ∈ x.log, ∀ o ∈ l.old, o.2 ≠ (5 : W32).toNat) ∧ s.kv.latches = []) := by
  refine ⟨?_, ?_, ?_, ?pick, ?_, ?_, ⟨rfl, rfl, ?full, ?queued, rfl, fun _ _ _ _ => Nat.zero_le _, ?_⟩, ⟨_, rfl, ?_⟩,
    ⟨_, List.mem_singleton.2 rfl, ?_⟩, ?nolog, rfl⟩
  case pick => simp [KvPool.pickLp, KvPool.pick, KvPool.used, lowPool, pool0, Nat.mod_one, SMap.get?]
  case full => rw [crowd_residents]
  case queued => exact List.mem_singleton.2 rfl
  case nolog =>
    intro n x h l hl
    have h : (n, x) ∈ [(0, seq0)] := h
    rw [List.mem_singleton, Prod.mk.injEq] at h
    rw [h.2] at hl
    exact absurd hl (List.not_mem_nil)
  all_goals decide +kernel

/-- Evicting record 0 of the crowd changes it. -/
theorem witness_eviction : ∃ t, exec (.recordEviction 0) crowd = .next t ∧ t ≠ crowd := by
  have h : (crowd.kv.seqs.all fun x => !x.2.resident || decide (0 ≤ x.2.lastUse)) = true := by
    simp
  refine ⟨crowd.setSeq 0 ⟨0, [], 0, [], [], false, 0⟩, ?_, fun e => ?_⟩
  · change Host.Outcome.next (State.evictRecord crowd 0) = _
    have h1 : crowd.kvSeq 0 = some ⟨0, [], 0, [], [], true, 0⟩ := rfl
    have h2 : crowd.kvPool (0 / 2 ^ 28) = some pool0 := rfl
    unfold State.evictRecord
    rw [h1, h2, crowd_residents]
    dsimp only
    rw [h]
    rfl
  · have h3 : (crowd.setSeq 0 ⟨0, [], 0, [], [], false, 0⟩).kvSeq 0 = some ⟨0, [], 0, [], [], false, 0⟩ := rfl
    rw [e] at h3
    cases h3

def att0 : AttDesc :=
  { pool := 0, qfmt := .bf16, ofmt := .bf16, kind := 0, bmen := false, tau := 0x3F800000, win := 0, ftok := 0, q := spadOf 0, o := spadOf 0 + 0x100,
    l := spadOf 0 + 0x200, dO := 0, dD := 0, dq := 0, dv := 0, bm := 0, bmstr := 0, rstr := 32, ring := 0, park := 0, rslots := 4, pfd := 0,
    npark := 0, eflag := 0xFFFF }
def ent0 : AttEntry := { seq := 0, qpos := 0, nrows := 1, kvh := 0, posm := false, cont := false, qoff := 0, ooff := 0, loff := 0, arg := 0, page := 0 }
/-- Core 0 with one attention instruction of one entry whose walk is as given. -/
def walking (w : Walk) : State := { core { Ctx.start with attn := some ⟨7, frame 0x90 [], 0x10, false, 0, att0, [ent0], [w]⟩ } with
  kv := { quiet.kv with
    pools := [(0, { pool0 with frames := [(0, ⟨1, 0⟩)] })], seqs := [(0, { seq0 with len := 1 })]
    latches := [⟨.walk 7 0, 0, 1, 0, [(0, 0)]⟩] }
  fab := { quiet.fab with fetches := [⟨.walk 7 0, [], [], 0, 0⟩] } }

/-- R217: the one entry's walk finishes, and the instruction with it. -/
theorem test_walk_ends : ((after (.walkComplete 0 0) (walking ⟨2, 1, 0⟩)).attn 0).isNone = true ∧
    (after (.walkComplete 0 0) (walking ⟨2, 1, 0⟩)).kv.latches = [] := by decide +kernel

theorem witness_AttentionWalksStartAndFinish :
    (∀ p ∈ [0, 2, 3], ∃ a, (walking ⟨p, 1, 0⟩).attn 0 = some a ∧ (walking ⟨p, 1, 0⟩).running 0 = true ∧ a.entries[0]? = some ent0 ∧
      a.walks[0]? = some ⟨p, 1, 0⟩ ∧ a.desc = att0 ∧ a.bwd = false ∧ ent0.cont = false ∧ (walking ⟨p, 1, 0⟩).kvSeq 0 = some { seq0 with len := 1 } ∧ seq0.resident = true ∧ (p = 0 → (a.walks.filter fun x => x.phase == 2).length ≤ a.desc.npark)) ∧
    (att0.npark < ([⟨0, 0, 0⟩, ⟨2, 0, 0⟩].filter fun x : Walk => x.phase == 2).length) ∧
    (let s := walking ⟨2, 1, 0⟩; let ps := (List.range ent0.nrows).map ent0.pos; let tiles := fedTiles s att0 1 ps
     (∃ q, s.kvPool 0 = some q ∧ q.phase = 2 ∧ ∃ rs, (tiles.map fun p => s.pageRanges q ent0 [(0, 0)] p).mapM id = some rs) ∧ tiles = [0] ∧
     (s.kv.latches.find? fun l => l.holder == .walk 7 0) = some ⟨.walk 7 0, 0, 1, 0, [(0, 0)]⟩ ∧
     (let a : Attn := ⟨7, frame 0x90 [], 0x10, false, 0, att0, [ent0], [⟨2, 1, 0⟩]⟩
      s.walkFault 0 a ent0 1 16 ps (s.rowsRead a ent0 1 tiles) = none) ∧
     (s.touchPages 0 [(0, 0)] tiles).tableBent { pool0 with frames := [(0, ⟨1, 0⟩)] } ent0.seq tiles = false ∧
     (∃ f, s.fetch? (.walk 7 0) = some f ∧ f.missing = 0 ∧ f.status = St.ok ∧ f.pois = [])) ∧
    (∀ x ∈ [(⟨3, 1, 0⟩ : Walk)], x.phase = 3) := by
  refine ⟨fun p h => ⟨_, rfl, ?_⟩, ?_, ⟨⟨_, rfl, rfl, _, rfl⟩, ?_, ?_, ?_, ?_, ⟨_, rfl, ?_⟩⟩, ?_⟩
  · simp only [List.mem_cons, List.not_mem_nil, or_false] at h
    rcases h with rfl | rfl | rfl <;> decide +kernel
  all_goals decide +kernel

/-! ## Stem jobs, clips, atomics and memory (R256 to R311) -/

/-- SPOOL of one position of one channel: input at 0x100, output at 0x200 of core 0's scratchpad. -/
def spoolD : List Byte :=
  (List.range 4).flatMap (fun _ => le 2 1) ++ [1, 1, 1, 1, 0, 0, 1, 1, 1, 1, 0, 0] ++ le 4 16 ++ le 4 16 ++ le 2 0 ++ le 2 1 ++
  le 8 (spadOf 0 + 0x100) ++ le 8 (spadOf 0 + 0x300) ++ le 8 (spadOf 0 + 0x300) ++ le 8 (spadOf 0 + 0x200)
def stemF : Frame := frame 0xAA [(16, 1), (20, 5), (32, 1)]
def job0 : StemJob := ⟨3, 0, 1, stemF, 0x10, spadOf 0, [], 0⟩
def stems (x : StemEngine) (req : List StemJob := []) : State :=
  { (core Ctx.start).store (spadOf 0) spoolD with stems := [(0, x)], sreq := req }
def ended0 (s : State) : State := { s with now := 1000 }

/-- R265: the maximum of one element is stored as it is, and the flag is signalled. -/
theorem test_spool : (let t := after (.stemJobComplete 0) (ended0 ((stems ⟨[], [], some ⟨job0, 0, fit 64 spoolD⟩⟩).store (spadOf 0 + 0x100) (le 2 0x4040)))
    t.mem.read (spadOf 0 + 0x200) 2 = le 2 0x4040 ∧ t.sigs.length = 1 ∧ (t.stem 0).run = none) := by decide +kernel

theorem witness_StemJobsQueueRunAndStore :
    (let s := stems StemEngine.idle [job0]; s.sreq.find? (fun k => k.core == 0) = some job0 ∧ s.blockDown 0x50 = false ∧
      ({ s with blocks := [(0x50, ⟨0, 0, 0, 0, false, 0⟩)] }).blockDown 0x50 = true) ∧
    ((stems ⟨[job0], [], none⟩).stem 0).resv = [job0] ∧ ([] : List StemJob).length < 32 ∧ 32 ≤ (List.replicate 32 job0).length ∧
    (let s := stems ⟨[], [job0], none⟩
     (s.stem 0).run = none ∧ (s.stem 0).que = [job0] ∧ s.blockDown 0x50 = false ∧ job0.desc % 16 = 0 ∧ s.ownFault 0 (spadOf 0) 64 0xA4 7 = none ∧
     s.poisoned (gloc (spadOf 0)) 64 = false ∧
     job0.held = [] ∧ ({ job0 with held := spoolD } : StemJob).held ≠ [] ∧
     Stem.fault s 0 (Stem.of 0xAA (s.read (gloc (spadOf 0)) 64)) (s.read (gloc (spadOf 0)) 64) (Stem.of 0xAA (s.read (gloc (spadOf 0)) 64)).bases = none) ∧
    (let s := stems ⟨[], [], some ⟨job0, 0, fit 64 spoolD⟩⟩; let t := Stem.of 0xAA (fit 64 spoolD)
     (s.stem 0).run = some ⟨job0, 0, fit 64 spoolD⟩ ∧ s.now < 0 + 40 + ((State.stemGroups 0xAA (fit 64 spoolD)).1 - job0.done) * (State.stemGroups 0xAA (fit 64 spoolD)).2 ∧
     0 + 40 + ((State.stemGroups 0xAA (fit 64 spoolD)).1 - job0.done) * (State.stemGroups 0xAA (fit 64 spoolD)).2 ≤ (ended0 s).now ∧
     (∀ p ∈ t.touched, (ended0 s).poisoned (gloc p.1) p.2 = false) ∧
     (t.touched.find? fun p => ({ s with mem := s.mem.taint (spadOf 0 + 0x100) 8 } : State).poisoned (gloc p.1) p.2) = some (spadOf 0 + 0x100, 2) ∧
     ((t.outputs (ended0 s)).foldl (fun (a : Nat × State) o =>
        let r := a.2.devWrite (gloc o.1) o.2.1
        (if a.1 = St.ok then r.1 else a.1, r.2)) (St.ok, ended0 s)).1 = St.ok ∧
     (let u := ended0 s; let t := Stem.of 0xAA ((fit 64 spoolD).take 56 ++ le 8 (2 ^ 47))
      ((t.outputs u).foldl (fun (a : Nat × State) o =>
        let r := a.2.devWrite (gloc o.1) o.2.1
        (if a.1 = St.ok then r.1 else a.1, r.2)) (St.ok, u)).1 ≠ St.ok)) := by
  decide +kernel

def stream0 : Stream :=
  { cls := 3, owner := .partner .host, ring := 0, rlog2 := 0, stopped := false, paused := false, saved := false, due := 0, posted := 0, done := 0, last := 0,
    bytes := 0, queue := [], run := none, long := none, opcode := 0, tag := 0, result := 0 }
def batch0 : Batch := ⟨4, 0, 0xFF, [0x1000], 0, 0, 0⟩
def clip0 (fin : Option (Nat × Nat × Nat × Nat)) (wait : Nat) : ClipRun := ⟨4, 0x1000, zeros 128, 0, 10, fin, wait, 3, [], false⟩
def ingesting (run : Option ClipRun) : State :=
  { quiet with
    streams := [(0, stream0)]
    ig := { quiet.ig with batches := [batch0], engines := [(1, ⟨run, 0, 0, 0⟩)] } }

theorem test_clip_turn : ((after (.clipStart 0) (ingesting none)).igEngine 0).run.isSome = true ∧
    ((after (.clipStart 1) (ingesting none)).igEngine 1).run = none := by decide +kernel

/-- A descriptor that keeps R273: one unit, one frame of one pixel, its token at `dst`, filled if it fails. -/
def clipD (dst : Nat) : List Byte :=
  fit 128 (zeros 16 ++ le 4 1 ++ zeros 12 ++ le 2 1 ++ le 2 1 ++ le 2 1 ++ le 2 1 ++ zeros 4 ++ le 2 1 ++ le 2 1 ++ [1, 1, 1, 0, 0, 2] ++ zeros 10 ++
    le 8 dst ++ le 4 16)
/-- Engine 1 has the clip, with the outcome given, and has read a first unit entry of length 0. -/
def scanning (base : State) (dst : Nat) (fin : Option (Nat × Nat × Nat × Nat)) : State :=
  { base with
    ig := { quiet.ig with batches := [batch0], engines := [(1, ⟨some { clip0 fin 0 with desc := clipD dst }, 0, 0, 0⟩)] }
    fab := { base.fab with fetches := [⟨.clip 1, (clipD dst ++ zeros 16).zipIdx.map fun p => (p.2, p.1), [], 0, 0⟩] } }
def scanned (s : State) : Bool :=
  match (State.clipScan (clipD 0) (2 * 1 + 2) s 1).1 with | some (st, r, _) => st == St.corruptInput && r == 8 | none => false

theorem witness_ClipsStartEndAndTimeOut :
    ((ingesting none).nextClip = some (batch0, 0) ∧ batch0.todo = [0x1000]) ∧ ((ingesting none).igEngine 1).run = none ∧
    (((ingesting (some (clip0 (some (0, 0, 1, 1)) 0))).igEngine 1).run = some (clip0 (some (0, 0, 1, 1)) 0) ∧ (clip0 none 0).desc ≠ [] ∧
      (clip0 (some (0, 0, 1, 1)) 1).wait ≠ 0 ∧ (clip0 (some (0, 0, 1, 1)) 0).fin = some (0, 0, 1, 1) ∧ (0 : Nat) = St.ok) ∧
    (scanned (scanning quiet 0 none) = true ∧ clipOk (clipD 0) = true ∧ rd (clipD 0) 0x10 4 = 1 ∧ ({ clip0 none 0 with fill := true } : ClipRun).fill = true ∧
      (clip0 none 0).fill = false ∧ (State.clipSpoil (scanning quiet 0 (some (5, 0, 0, 0))) 1 { clip0 none 0 with desc := clipD 0 }).1 = 0 ∧
      clipOk (clipD (2 ^ 48 * 9)) = true ∧
      (State.clipSpoil (scanning far (2 ^ 48 * 9) (some (5, 0, 0, 0))) 1 { clip0 none 0 with desc := clipD (2 ^ 48 * 9) }).1 ≠ 0) ∧
    ((ingesting (some (clip0 none 0))).now < 0 + 10 * 2400 ∧ 0 + 10 * 2400 ≤ ({ ingesting (some (clip0 none 0)) with now := 24000 } : State).now) := by
  decide +kernel

def op0 (op a : Nat) (v1 v2 : W64) : AtomOp := ⟨a, op, 0, 0, 0, v1, v2⟩
def atom0 (op : AtomOp) (held : Bool) : Atom := ⟨9, .core 0 1 0x10 0 none, op, held⟩
def atomic (as' : List Atom) : State := { core Ctx.start with atoms := as' }
def region0 : Region := ⟨0x1000, 0x2000, 1, 0, 2, 0, [], 0⟩

/-- R302: CAS that matches stores its second operand; SMIN keeps the lesser signed number. -/
theorem test_atomics : (after (.atomicApply 0) (atomic [atom0 (op0 7 0x40 0 5) false])).mem.read 0x40 8 = le 8 5 ∧
    (after (.atomicApply 0) (atomic [atom0 (op0 4 0x40 (-1) 0) false])).mem.read 0x40 8 = le 8 (2 ^ 64 - 1) ∧
    (after (.atomicApply 0) (atomic [atom0 (op0 5 0x40 (-1) 0) false])).mem.read 0x40 8 = zeros 8 := by decide +kernel

theorem witness_AtomicsAreAppliedAtTheirUnits :
    (let a := atom0 (op0 6 0x40 1 0) false; let h := atom0 (op0 6 0x40 1 0) true; let s := atomic [h, a]
     s.atoms[1]? = some a ∧ h.held = true ∧ ({ s with paused := [(0, 0)] } : State).channelPaused 0x40 = true ∧
     (atomic [a, a]).atoms[1]? = some a ∧ a ∈ [a, a].take 1 ∧ a.held = false ∧ (atomic [a, a]).channelPaused 0x40 = false ∧
     (atomic [a]).atoms[0]? = some a ∧ (∀ b ∈ ([a].take 0), State.atomUnit b.op.addr ≠ State.atomUnit a.op.addr) ∧ (atomic [a]).windowOut a.op = false) ∧
    (let x := atom0 (op0 1 0x1000 1 0) false; let s : State := { atomic [x] with regions := [(0x1000, region0)] }
     s.windowOut x.op = true ∧ (s.atoms.filter fun b => b.held && State.atomUnit b.op.addr == State.atomUnit x.op.addr).length < 256) ∧
    (∀ op, op < 8 → (0x1000 : Nat) % (if op = 1 then 16 else if op = 2 ∨ op = 3 then 4 else 8) = 0 ∧
      quiet.readPiece 0x1000 (if op = 1 then 16 else if op = 2 ∨ op = 3 then 4 else 8) =
        (St.ok, List.replicate (if op = 1 then 16 else if op = 2 ∨ op = 3 then 4 else 8) (0, false)) ∧
      quiet.inFrozen 0x1000 16 = false ∧ quiet.regionAt 0x1000 = none ∧ quiet.inRegion 0x1000 16 = false) ∧
    place 0x1000 = .lp ∧ ({ quiet with regions := [(0x1000, region0)] } : State).inRegion 0x1000 8 = true ∧
    (({ quiet with mem := quiet.mem.taint 0x1000 8 } : State).readPiece 0x1000 8).2.any (·.2) = true ∧
    (let u : State := { quiet with xunits := [(4, ⟨[1, 2], [3], 0, [(1, 9)]⟩)] }; u.now < SMap.getD (u.xunit 4).due 1 0 ∧ SMap.getD (u.xunit 4).due 1 0 ≤ ({ u with now := 9 } : State).now ∧
      (u.xunit 4).slots = 1 :: [2] ∧ (u.xunit 4).wait = 3 :: [] ∧ (quiet.xunit 4).slots = []) := by
  decide +kernel

theorem witness_MemoryControllersPauseAndScrub :
    (95 < 96 ∧ (∀ p ∈ quiet.paused, p.1 % 12 ≠ 95 % 12) ∧ (let s : State := { quiet with paused := [(83, 5)] }; (∃ p ∈ s.paused, p.1 % 12 = 95 % 12) ∧
      SMap.get? s.paused 83 = some 5 ∧ SMap.get? s.paused 95 = none)) ∧
    (place (95 * 256) = .lp ∧ 95 * 256 / 256 % 96 = 95 ∧ fwEnd - 1 < fwEnd ∧ quiet.mem.granPois 0 = false ∧ (quiet.mem.taint 0 64).granPois 0 = true) := by
  refine ⟨⟨?_, ?_, ⟨(83, 5), List.mem_singleton.2 rfl, ?_⟩, ?_, ?_⟩, ?_⟩ <;> decide +kernel

/-! ## Streams and training (R312 to R404) -/

def desc (ty : Nat) (more : List Byte) : List Byte := fit 64 (le 1 ty ++ zeros 15 ++ more)
def run0 (d : List Byte) (fin : Bool) : Run :=
  { desc := d, core := 0, pc := 0, began := 0, pos := 0, pieces := 0, value := 0, status := 0, wait := 0, fin := fin, aux := 0, aux2 := 0, struck := false, res := 4 }
def streaming (x : Stream) : State := { quiet with streams := [(0, x)] }
def class4 : Stream := { stream0 with cls := 4 }
/-- WAITFLAG of flag 5 of core 0 for a value; FILL of one run of one byte. -/
def waitD (v tmo : Nat) : List Byte := desc 0xA (le 2 0 ++ le 2 5 ++ le 4 v ++ le 4 tmo)
def fillD : List Byte := desc 2 (le 8 0x4000 ++ le 4 1 ++ le 2 1 ++ le 2 1)

theorem test_fill_bad_field : (∃ x r, (after (.fill 0) (streaming { class4 with queue := [⟨desc 2 [], 0, 0⟩] })).stream? 0 = some x ∧ x.run = some r ∧
    r.status = St.badField) := by
  refine ⟨_, _, rfl, rfl, ?_⟩
  decide +kernel

theorem witness_DescriptorsRunPieceByPiece :
    ((⟨.fill 0, 2, State.fillCheck, nothing, State.fillPiece⟩ : DescRow) ∈ descRows 0 ∧ quiet.stream? 0 = none ∧ (streaming class4).stream? 0 = some class4 ∧
      (streaming class4).ready 0 class4 = true ∧ (streaming class4).ready 0 { class4 with stopped := true } = false ∧
      (let x := { class4 with queue := [⟨fillD, 0, 0⟩] }; (streaming x).turnOf 0 x = true ∧ (streaming x).runsOf 0 x < 16 ∧
        (let s : State := { quiet with streams := [(0, x), (16, x)], turns := [(State.engineOf 0 x, 1)] }; s.turnOf 0 x = false ∧ s.ready 0 x = true)) ∧
      (let x := { class4 with run := some (run0 fillD false) }; (streaming x).ready 0 x = true ∧ (streaming x).turnOf 0 x = true)) ∧
    (rd fillD 0 1 = 2 ∧ rd (desc 1 []) 0 1 ≠ 2 ∧ (run0 fillD true).fin = true) ∧
    (State.typeClass 2 4 && State.headerOk fillD && State.fillCheck quiet class4 fillD) = true ∧
    (State.typeClass 2 4 && State.headerOk (desc 2 []) && State.fillCheck quiet class4 (desc 2 [])) = false := by
  refine ⟨⟨.tail _ (.head _), ?_⟩, ?_⟩ <;> decide +kernel

def xwD (ty : Nat) : List Byte := desc ty (le 8 0x1000 ++ le 8 0x2000 ++ le 4 1 ++ le 2 0)

theorem witness_FlagsRegionsAndRetiringDescriptors :
    (let x := { class4 with run := some (run0 (waitD 0 1) false) }; let s := streaming x
     s.stream? 0 = some x ∧ s.ready 0 x = true ∧ s.turnOf 0 x = true ∧ rd (waitD 0 1) 0 1 = 0xA ∧ 0 ≤ (s.waitValue x (waitD 0 1) - BitVec.ofNat 32 (rd (waitD 0 1) 0x14 4)).toInt ∧
     (s.waitValue x (waitD 1 1) - BitVec.ofNat 32 (rd (waitD 1 1) 0x14 4)).toInt < 0 ∧ rd (waitD 1 1) 0x18 4 ≠ 0 ∧
     s.now < 0 + rd (waitD 1 1) 0x18 4 * 2400 ∧ 0 + rd (waitD 1 1) 0x18 4 * 2400 ≤ ({ s with now := 2400 } : State).now) ∧
    (quiet.regionBad (rd (xwD 8) 0x10 8) (rd (xwD 8) 0x18 8) (rd (xwD 8) 0x20 4) (rdS (xwD 8) 0x24 2) = none ∧ quiet.regions.length < 4096 ∧
      quiet.regionBad (rd (desc 8 []) 0x10 8) (rd (desc 8 []) 0x18 8) (rd (desc 8 []) 0x20 4) (rdS (desc 8 []) 0x24 2) ≠ none ∧
      quiet.inFrozen (rd (xwD 8) 0x18 8) 8 = false ∧ (∀ ty ∈ [8, 9], let x := { class4 with run := some (run0 (xwD ty) false) }
        (streaming x).ready 0 x = true ∧ (streaming x).turnOf 0 x = true) ∧ quiet.site (rd (xwD 8) 0x18 8) 8 = .mem ∧ 4096 ≤ (List.replicate 4096 (0x1000000, region0)).length) ∧
    (SMap.get? quiet.regions (rd (xwD 9) 0x10 8) = none ∧ SMap.get? [(0x1000, region0)] (rd (xwD 9) 0x10 8) = some region0 ∧ region0.phase = 2 ∧
      ({ region0 with phase := 1 } : Region).phase ≠ 2) ∧
    ((run0 fillD true).fin = true ∧ (run0 fillD true).wait = 0 ∧ class4.paused = false ∧ (run0 fillD true).res = 4 ∧ (run0 fillD true).status = St.ok ∧ (run0 fillD true).struck = false ∧
      State.Stream.idle { { class4 with queue := [⟨fillD, 0, 0⟩], run := some (run0 fillD true) } with run := none } = false) ∧
    (let x := { class4 with queue := [⟨fillD, 0, 0⟩] }; let s : State := { quiet with streams := [(0, x), (16, { class4 with saved := true })] }
     s.ready 0 x = true ∧ State.Stream.idle x = false ∧ s.midPiece 0 = false ∧ x.due ≤ s.now ∧ (∃ n y, (n, y) ∈ s.streams ∧ n % 16 = 0 % 16 ∧ y.saved = true)) := by
  refine ⟨?_, ?_, ?_, ?_, ?_, ?_, ?_, ?_, ⟨16, { class4 with saved := true }, .tail _ (.head _), ?_, rfl⟩⟩ <;> decide +kernel

def ring0 (n : Nat) : Ring := { n := n, pos := 0, rtmo := 1, devs := [0, 1], inbox := 0x100000, sentSeq := 0, rxSeq := 0, order := 0, queue := [], cur := none, lastOk := 0 }
def bdef (n dens : Nat) : BucketDef :=
  { ring := 0, n := n, log2sz := 10, gfmt := .bf16, dens := dens, auto := true, norm := false, resid := false, ew := 0, valid := 2048, grad := 0x200000,
    residual := 0x210000, result := 0x220000, xreg := 0x230000, spans := 0, nspan := 0, donef := 0, bres := 0 }
def brun (phase status : Nat) : BucketRun :=
  { step := 0, phase := phase, q := [], wide := false, side := 0, sent := 0, xt := 0, adds := 0, arrT := 0, arrSeg := 0, final := [], spans := [],
    status := status, path := 0, wrote := false, st := none, began := 0 }
def bucket0 (n dens : Nat) (full : Bool) (run : Option BucketRun) : Bucket :=
  { df := bdef n dens, fill := 0, full := full, go := none, steps := 0, run := run, lastPath := 0, lastStatus := 0, lastSide := 0, lastSent := 0 }
def training (b n : Nat) (x : Bucket) : State := { quiet with tr := { quiet.tr with buckets := [(b, x)], rings := [(0, ring0 n)] } }

/-- R395: the threshold of one element 1 among three zeros, a quarter of them, is its exponent field's first excluding value. -/
theorem test_threshold : State.threshold 4 2 [.fin 1 0, .zero false, .zero false, .zero false] = 1 := by decide +kernel

theorem witness_BucketStepsStart :
    (quiet.bucket? 0 = none ∧ (bucket0 1 0 false none).full = false ∧ (bucket0 1 0 true (some (brun 1 0))).run.isSome = true ∧
      ({ bdef 1 0 with auto := false } : BucketDef).auto = false ∧ (bucket0 1 0 true none).go = none ∧
      ({ training 0 1 (bucket0 1 0 true none) with tr := { (training 0 1 (bucket0 1 0 true none)).tr with rings := [] } } : State).turn 0 (bucket0 1 0 true none) = false ∧
      quiet.normReady { bucket0 1 0 true none with df := { bdef 1 0 with norm := true }, steps := 1 } = false) ∧
    (∀ n ∈ [1, 2], ∀ dens ∈ [0, 1], let x := bucket0 n dens true none; let s := training 0 n x
      s.bucket? 0 = some x ∧ x.full = true ∧ x.run = none ∧ x.df.auto = true ∧ s.turn 0 x = true ∧ x.df.norm = false ∧ s.fetch? (.bucket 0) = none) ∧
    ((training 0 1 (bucket0 1 0 true none)).contributions (bdef 1 0)).isSome = true ∧
    ({ training 0 1 (bucket0 1 0 true none) with mem := quiet.mem.taint 0x200000 2 } : State).contributions (bdef 1 0) = none := by
  decide +kernel

theorem witness_SegmentsCarryTheirParts :
    (let ps : List Part := List.replicate 1024 ⟨2 ^ 128 - 1, 2 ^ 64 - 1, false⟩; ps.length ≤ 1024 ∧ 255 < 256 ∧
      (∀ p ∈ ps, p.elem < 2 ^ 128 ∧ p.shad < 2 ^ 64 ∧ p.esc = false)) ∧
    (∀ p ∈ ([⟨8388607, 0, false⟩, ⟨2 ^ 126 - 8388607, 0, false⟩] : List Part), p.esc = false ∧ p.acc.sum.natAbs ≤ 8388607) := by
  decide +kernel

theorem witness_RingsTakeSegmentsAndTimeOut :
    (∀ b ∈ [0, 1], ∀ ph ∈ [1, 2, 4], ∀ st ∈ [0, 3], ∀ n ∈ [1, 2], ∀ dens ∈ [0, 1],
      let x := bucket0 n dens false (some (brun ph st)); let s := training b n x
      s.ring? 0 = some (ring0 n) ∧ s.reducing 0 = some (b, x) ∧ x.run = some (brun ph st) ∧ s.bucket? b = some x ∧ x.df.ring = 0) ∧
    (let s := training 0 2 (bucket0 2 0 false (some (brun 1 0))); let slot := (ring0 2).inbox + 64 + (ring0 2).rxSeq % 8 * 24640; let hd := s.read slot 64
     (brun 1 0).phase = 1 ∧ (bdef 2 0).dens = 0 ∧ (brun 1 0).arrT + 1 < 2 ∧ leNat (s.read (slot + 0x18) 4) = (ring0 2).rxSeq ∧
     s.poisoned slot 64 = false ∧ s.poisoned slot (segBytes hd) = false ∧ rd hd 0 2 = 0 ∧ rd hd 0 2 ≠ 1 ∧ rd hd 4 4 = (brun 1 0).step % 2 ^ 32 ∧
     rd hd 8 2 = ((ring0 2).pos + 2 * 2 - 2 - 0) % 2 ∧ rd hd 0xC 4 = 0 ∧ rdS hd 0x14 2 = (bdef 2 0).ew ∧
     ({ s with mem := s.mem.taint slot 8 } : State).poisoned slot 64 = true ∧
     (let m := s.store slot (le 8 0 ++ le 8 0 ++ le 2 64); let p : State := { m with mem := m.mem.taint (slot + 64) 8 }
      p.poisoned slot 64 = false ∧ p.poisoned slot (segBytes (p.read slot 64)) = true)) ∧
    ((training 0 1 (bucket0 1 1 false (some (brun 2 0)))).arrived (ring0 1) (bdef 1 1) 0 = true ∧
      (training 0 2 (bucket0 2 1 false (some (brun 2 0)))).arrived (ring0 2) (bdef 2 1) 0 = false ∧
      SMap.get? quiet.regions ((bdef 1 1).sparse 0) = none ∧ SMap.get? [((bdef 1 1).sparse 0, region0)] ((bdef 1 1).sparse 0) = some region0) ∧
    (quiet.now < (ring0 1).lastOk + (ring0 1).rtmo * 2400000 ∧ (ring0 1).lastOk + (ring0 1).rtmo * 2400000 ≤ ({ quiet with now := 2400000 } : State).now) ∧
    ((training 0 1 (bucket0 1 0 false (some (brun 4 0)))).bucketQuiet (bucket0 1 0 false none) (brun 4 0) = true ∧
      (training 0 1 (bucket0 1 0 false (some (brun 4 0)))).bucketQuiet (bucket0 1 0 false none) { brun 4 0 with adds := 1 } = false ∧ (3 : Nat) ≠ St.ok) := by
  decide +kernel

def phase0 (kind tmo : Nat) : PhaseDef :=
  { kind := kind, role := 0, phid := 0, tree := 0, dep := 0, pdep := 0, handle := 1, gkind := 0, stream := 0, list := 0x1000, count := 1, tmo := tmo }
def prun (next : Nat) (live : Bool) (todo : Option (List (List Byte))) (res : Option Nat) : PhaseRun := ⟨next, live, 0, todo, res⟩
/-- Step program 0 of one phase as given, running. -/
def stepping (d : PhaseDef) (p : PhaseRun) (progSt : Nat) (x : Stream) : State :=
  { quiet with
    progs := [(1, { prog with st := progSt })]
    streams := [(0, x)]
    tr := { quiet.tr with steps := [(0, ⟨[d], some ⟨5, .host, 0, none, [p], none⟩⟩)] }
    fab := { quiet.fab with devState := 1, trees := [(0, ⟨0xFFFF, [], 0, [], none⟩)] } }

theorem witness_PhasesStartCompleteAndTimeOut :
    quiet.stepProg 0 = none ∧
    (∀ kind ∈ [0, 1, 2], ∀ p ∈ [prun 0 false none none, prun 0 true none none, prun 0 true (some []) (some 0), prun 0 true (some []) (some 5)],
      let s := stepping (phase0 kind 1) p 5 stream0
      ∃ x r, s.stepProg 0 = some x ∧ x.run = some r ∧ x.phases[0]? = some (phase0 kind 1) ∧ r.phases[0]? = some p ∧
        State.phaseReady x r 0 = !p.live ∧ s.stream? 0 = some stream0 ∧ stream0.owner = .partner r.port ∧ r.fail = none) ∧
    (∀ st ∈ [2, 3, 5, 7], ∃ g, (stepping (phase0 0 1) (prun 0 true none none) st stream0).prog 1 = some g ∧ g.st = st ∧
      (stepping (phase0 0 1) (prun 0 true none none) st stream0).placeStands g = true) ∧
    (let s := stepping (phase0 2 1) (prun 0 false none none) 5 stream0; s.gopFree 0 = true ∧ quiet.gopFree 0 = false) ∧
    ((phase0 0 1).tmo ≠ 0 ∧ (phase0 0 0).tmo = 0 ∧ 0 + (phase0 0 1).tmo * 2400 ≤ ({ quiet with now := 2400 } : State).now ∧
      quiet.now < 0 + (phase0 0 1).tmo * 2400) ∧
    (stream0.stopped = false ∧ stream0.long = none ∧ ({ stream0 with stopped := true } : Stream).stopped = true ∧ State.Stream.idle stream0 = true ∧
      State.Stream.idle { stream0 with queue := [⟨[], 0, 0⟩] } = false) ∧
    ([prun 0 true none none, prun 1 true none none].any fun q => q.live && q != prun 0 true none none) = true := by
  refine ⟨?_, fun k hk p hp => ⟨_, _, rfl, rfl, rfl, rfl, ?_⟩, fun st hs => ⟨_, rfl, rfl, ?_⟩, ?_⟩
  · decide
  · simp only [List.mem_cons, List.not_mem_nil, or_false] at hk hp
    rcases hk with rfl | rfl | rfl <;> rcases hp with rfl | rfl | rfl | rfl <;> decide +kernel
  · simp only [List.mem_cons, List.not_mem_nil, or_false] at hs
    rcases hs with rfl | rfl | rfl | rfl <;> decide +kernel
  · decide +kernel

def stamp0 (edge : Nat) (step : W64) : Stamp := ⟨0, none, 7, edge, step, 100⟩
def rec0 (step : W64) (nend : Nat) : PhRec := ⟨step, 1, nend, 10, 10, 0, false⟩
/-- Phase identifier 7 with the record and the last logged step given, and one stamp that has come. -/
def stamped (m : Stamp) (r : Option PhRec) (l : Option W64) (expect : Nat) : State :=
  { quiet with tr := { quiet.tr with stamps := [m], phids := [(7, ⟨r, l, expect, 5⟩)] } }

theorem test_stamp_late : (after (.phaseStamp 0) (stamped (stamp0 0 3) none (some 3) 1)).tr.late = 1 := by decide +kernel

theorem witness_StampsMakeRecordsAndStragglers :
    (quiet.tr.stamps[0]? = none ∧ (stamped (stamp0 2 0) none none 1).tr.stamps[0]? = some (stamp0 2 0) ∧ (stamp0 2 0).edge = 2 ∧ (stamp0 1 4).edge ≠ 2) ∧
    (let s := stamped (stamp0 1 4) (some (rec0 4 0)) (some 3) 2
     (s.phId 7).rcd = some (rec0 4 0) ∧ (stamp0 1 4).step = (rec0 4 0).step ∧ (State.PhRec.take (rec0 4 0) (stamp0 1 4)).nend < (s.phId 7).expect ∧
     (s.phId 7).expect ≤ (State.PhRec.take (rec0 4 1) (stamp0 1 4)).nend ∧ (stamp0 1 4).step.toNat < (rec0 5 0).step.toNat ∧
     (rec0 3 0).step.toNat < (stamp0 1 4).step.toNat ∧ (State.PhRec.take (State.PhRec.new 4) (stamp0 1 4)).nend < (s.phId 7).expect ∧
     1 ≤ (State.PhRec.take (State.PhRec.new 4) (stamp0 1 4)).nend) ∧
    (let s := stamped (stamp0 1 4) none (some 4) 1; (s.phId 7).rcd = none ∧ (∃ l, (s.phId 7).logged = some l ∧ (stamp0 1 4).step.toNat ≤ l.toNat)) ∧
    (let s := stamped (stamp0 1 4) none (some 3) 2; (s.phId 7).rcd = none ∧ (s.phId 7).logged = some 3 ∧ (3 : W64).toNat < (stamp0 1 4).step.toNat) ∧
    (let s := stamped (stamp0 1 4) (some (rec0 4 0)) none 2; let t : State := { s with fab := { s.fab with time := { s.fab.time with ft := 15 * 60000 } } }
     (s.phId 7).thr ≠ 0 ∧ (rec0 4 0).nbegin ≠ 0 ∧ (rec0 4 0).strag = false ∧ s.ftime.toNat < (rec0 4 0).first.toNat + (s.phId 7).thr.toNat ∧
     (rec0 4 0).first.toNat + (t.phId 7).thr.toNat ≤ t.ftime.toNat) := by
  refine ⟨?_, ?_, ⟨?_, ⟨4, rfl, ?_⟩⟩, ?_, ?_⟩ <;> decide +kernel

/-- The host has a commit with the base given, and a stage. -/
def committing (base : W32) (stage : List Item) : State :=
  { core Ctx.start with
    dc := { quiet.dc with commits := [(.host, 1, base)] }
    mbx := [(0, { quiet.box .host with stage := stage })] }

/-- R452: a committed slice length applies, and the generation counts up. -/
theorem test_commit : (let t := after .commitPoint (committing 0 [.pslice 77]); t.dc.pslice = 77 ∧ t.dc.gen = 1 ∧ (t.box .host).stage = []) := by decide +kernel

theorem witness_CommitsApplyStagesWhole :
    ((∃ y ∈ [Item.pslice 1], y.object = (Item.pslice 2).object) ∧ (∀ y ∈ [Item.pslice 1], y.object ≠ (Item.memPart 1).object)) ∧
    ((List.replicate 8191 (Item.pslice 1)).length < 8192 ∧ 8192 ≤ (List.replicate 8192 (Item.pslice 1)).length) ∧ (0 : W32).toNat + 1 < 0xFFFFFFFF ∧
    quiet.dc.commits = [] ∧ (committing 0 []).dc.commits = [(.host, 1, 0)] ∧ ((5 : W32) ≠ 0xFFFFFFFF ∧ (5 : W32) ≠ (committing 5 []).dc.gen) ∧
    ((0 : W32) = (committing 0 []).dc.gen ∧ ((committing 0 []).box .host).stage = []) ∧
    (let s := committing 0xFFFFFFFF [.memPart 1]; (s.box .host).stage ≠ [] ∧
      State.commitItems (s.box .host).stage 0 (s.box .host).stage { s with dc := { s.dc with commits := [] } } = .error (0, St.badState)) ∧
    (let s := committing 0 [.pslice 77]; (s.box .host).stage ≠ [] ∧
      ∃ u, State.commitItems (s.box .host).stage 0 (s.box .host).stage { s with dc := { s.dc with commits := [] } } = .ok u) := by
  refine ⟨⟨⟨_, List.mem_singleton.2 rfl, rfl⟩, ?_⟩, ?_, ?_, ?_, ?_, ?_, ?_, ⟨?_, rfl⟩, ?_, _, rfl⟩ <;> decide +kernel

def block0 (phase : Nat) : BlockReset := { phase := phase, st := 0, since := 0, tmo := 1, idle := false, count := 0 }
def blocked (b phase : Nat) : State := { quiet with blocks := [(b, block0 phase)] }
def longly (w : LongWork) : Stream := { class4 with long := some w, result := State.noResult, owner := .partner .bmc }
def leaving0 (x : Stream) : State := { quiet with streams := [(0, x)], fab := { quiet.fab with devState := 2, leaving := some 0 } }

/-- A region whose shadow area is frozen. -/
def frozen0 (g : Region) : State := { joined 8 with
  regions := [(0, g)], fab := { (joined 8).fab with expose := [(0, ⟨1, 8, 2, 2, g.shadow, 4096⟩)] } }

theorem witness_BlocksResetAndLongCommandsComplete :
    (SMap.get? quiet.blocks 0 = none ∧ SMap.get? (blocked 0x30 1).blocks 0x30 = some (block0 1) ∧ (blocked 0x30 1).blockIdle 0x30 = true ∧
      (block0 2).phase ≠ 1 ∧ (block0 1).phase ≠ 2 ∧ (blocked 0x30 1).now < (block0 1).since + (block0 1).tmo * 2400) ∧
    (let s : State := { blocked 0x30 1 with now := 2400, ig := { quiet.ig with engines := [(0, ⟨some (clip0 none 0), 0, 0, 0⟩)] } }
     s.blockIdle 0x30 = false ∧ (block0 1).since + (block0 1).tmo * 2400 ≤ s.now) ∧
    (∀ w ∈ [LongWork.xwOpen 0, .xwClose 0, .stepRun 0, .global 0, .blockReset 0, .leave], (leaving0 (longly w)).stream? 0 = some (longly w) ∧
      (longly w).long = some w ∧ (longly w).result = State.noResult ∧ (longly w).owner ≠ .partner .host) ∧
    ((longly (.stepRun 0)).done ≠ 1 ∧ ({ longly (.stepRun 0) with done := 1 } : Stream).done = 1 ∧ class4.long = none) ∧
    ({ quiet with regions := [(0, region0)] }.inFrozen region0.shadow (8 * region0.count) = false ∧ (frozen0 region0).inFrozen region0.shadow (8 * region0.count) = true ∧
      SMap.get? (frozen0 region0).regions 0 = some region0) ∧
    ((leaving0 class4).fab.devState = 2 ∧ (leaving0 class4).fab.leaving ≠ none ∧ (leaving0 class4).fab.outst = [] ∧ (leaving0 class4).fab.waiting = [] ∧
      quiet.fab.devState ≠ 2) := by
  decide +kernel

theorem witness_EveryStepKeepsThePowerRule : SafePower State.reset.pw ∧ step State.reset = .next (match step State.reset with | .next t => t | _ => State.reset) := by
  refine ⟨⟨?_, ?_, ?_, ?_, ?_⟩, rfl⟩ <;> decide

theorem witness_SavedMemoryReturnsUnchanged : State.reset.mem.wf = true ∧ (Memory.mk [] [] []).wf = true := by decide +kernel

/-! ## What enters a queue (R58 to R82, R236 to R262, R301, R315, R390) -/

/-- The core's registers, and a panel of one BF16 column that no instruction has taken. -/
def fedCore : State := core { vctx [(5, 16)] with mx := { mx0 with loads := [load0] } }
def ploadF (op kp nc : Nat) : Frame := frame op [(16, 1), (20, kp), (30, nc), (36, 1), (40, 5)]
def mmaF : Frame := frame 0x40 [(20, 1), (24, 3), (30, 3), (32, 15), (36, 2), (40, 5)]
def mmawgF : Frame := frame 0x50 [(16, 1), (20, 1), (25, 0), (32, 15), (36, 1), (45, 1), (48, 1), (52, 5), (56, 2), (60, 5), (64, 6)]
def wgCore : State := core (vctx [(5, 16), (6, 1)])
def accstF : Frame := frame 0x59 [(16, 0), (22, 15), (30, 2), (34, 5), (38, 5), (43, 4)]
def accmvF : Frame := frame 0x5A [(20, 3), (22, 15), (26, 62)]
def gwsetF : Frame := frame 0x48 [(16, 1), (20, 5), (24, 4080), (36, 1)]
def gwaitF : Frame := frame 0x49 [(16, 7)]
/-- CONV of one BF16 channel over one position: input at a2, weights at a3, descriptor at a1. -/
def convD : List Byte :=
  (List.range 6).flatMap (fun _ => le 2 1) ++ [1, 1, 1, 1, 1, 1, 1, 1, 1, 1, 1, 0] ++ zeros 6 ++ le 2 1 ++ zeros 32
def convF : Frame := frame 0xA0 [(16, 1), (20, 2), (24, 3), (28, 9), (44, 15), (48, 3), (56, 4)]
def convCore : State := vcore [] convD

/-- R60: PLOAD adds a panel load of its format. -/
theorem test_pload : ((after (.pload 0 (ploadF 0x44 1 4)) (core (vctx [(5, 16)]))).mx 0).loads.map (·.ncol) = [4] := by decide +kernel

/-- R180: ACCST waits in the matrix queue while an earlier panel load has still to read what it writes. -/
theorem test_accst_waits : ((after (.accst 0 accstF) { core { vctx [(5, 16)] with mx := { mx0 with
    loads := [{ load0 with base := gloc (spadOf 0) + 0x100 }] } } with fresh := 2 }).mx 0).queue.length = 1 := by decide +kernel

/-- The scoreboard has room for `n` more. -/
def room (s : State) (n : Nat) : Bool := decide (((s.inFlight 0 s.fresh).map fun g => g.spans.length).sum + n ≤ 32)

theorem witness_MatrixInstructionsEnterTheirQueue :
    (∀ b : Bool, let f := ploadF (if b then 0x45 else 0x44) Fmt.bf16.kMax 4; let s := core (vctx [(5, 16)])
      opcode f = (if b then 0x45 else 0x44) ∧ Ready s 0 f (ploadRegs f) ∧ ploadDec f = none ∧ Fmt.ofCode (fld f 19 16) = some .bf16 ∧
      Fmt.bf16.isPanel = true ∧ 1 ≤ fld f 28 20 ∧ fld f 28 20 ≤ Fmt.bf16.kMax ∧
      s.rowsFault 0 (spadOf 0) 16 (if b then fld f 28 20 else 4) (((if b then 4 else fld f 28 20) * 16 + 7) / 8) 0x43 1 = none ∧ (s.mx 0).queued.length < 4 ∧ (s.mx 0).decs = [] ∧
      room s 2 = true ∧ s.attAhead 0 s.fresh = false ∧
      s.conflict (s.ins 0 f) (PanelLoad.foot ⟨0, 0, f, (s.ctx 0).pc, .bf16, fld f 28 20, 4, b, gloc (spadOf 0), 16, 0, none, s.cyc 0, none, none, []⟩) = false) ∧
    (Ready fedCore 0 mmaF (mmaRegs mmaF) ∧ mmaDec mmaF = none ∧ Fmt.ofCode (fld mmaF 23 20) = some .bf16 ∧ shapeOf (fld mmaF 27 24) = some (1, 1, 1) ∧
      1 ≤ (fedCore.untaken 0).length ∧ (fedCore.unclaimed 0).head?.map (·.kp) = some 1 ∧ room fedCore 2 = true ∧ fld mmaF 35 32 + 1 ≤ 16 ∧
      (∀ r, r < 1 → fedCore.ownFault 0 (spadOf 0 + 0x100 + r * 16) 2 0x43 1 = none) ∧ fedCore.entries 0 < 8) ∧
    (Ready wgCore 0 mmawgF (mmawgRegs mmawgF) ∧ mmawgDec mmawgF = none ∧ Fmt.ofCode (fld mmawgF 19 16) = some .bf16 ∧
      firstFault (mmawgPlan (wgCore.ins 0 mmawgF) wgCore .bf16 .bf16).checks = none ∧ (mmawgPlan (wgCore.ins 0 mmawgF) wgCore .bf16 .bf16).todo ≠ [] ∧
      wgCore.entries 0 < 8 ∧ (wgCore.mx 0).decs = [] ∧ wgCore.boardFull (wgCore.ins 0 mmawgF) (mmawgPlan (wgCore.ins 0 mmawgF) wgCore .bf16 .bf16).foot = false ∧
      wgCore.attAhead 0 wgCore.fresh = false ∧
      wgCore.conflict (wgCore.ins 0 mmawgF) (mmawgPlan (wgCore.ins 0 mmawgF) wgCore .bf16 .bf16).foot = false) ∧
    (Ready wgCore 0 accstF (accstRegs accstF) ∧ accstDec accstF = none ∧ Fmt.ofCode (fld accstF 19 16) = some .fp32 ∧ Fmt.fp32.isOut = true ∧
      fld accstF 45 43 = 4 ∧ fld accstF 25 22 + (fld accstF 29 26 + 1) ≤ 16 ∧
      (∀ r, r < 16 → wgCore.ownFault 0 (spadOf 0 + 0x100 + 0 * 16 + r * 16) (4 * 4) 0x43 1 = none) ∧ wgCore.entries 0 < 8 ∧ room wgCore 1 = true) ∧
    (Ready wgCore 0 accmvF [] ∧ opcode accmvF = 0x5A ∧ Zero accmvF [(127, 33), (19, 16)] ∧ fld accmvF 31 26 % 2 = 0 ∧ room wgCore 0 = true ∧ room wgCore 2 = true) ∧
    (Ready wgCore 0 gwsetF [fld gwsetF 19 16, fld gwsetF 23 20] ∧ opcode gwsetF = 0x48 ∧ Zero gwsetF [(127, 68)] ∧ fld gwsetF 35 24 ≤ 4080 ∧
      (∀ k, k < 16 → (fld gwsetF 51 36).testBit k = true → wgCore.ownFault 0 (spadOf 0 + k * 16) 1 0x43 1 = none)) ∧
    (Ready wgCore 0 gwaitF [fld gwaitF 19 16] ∧ opcode gwaitF = 0x49 ∧ Zero gwaitF [(127, 20)] ∧ wgCore.entries 0 < 8) ∧
    (let s := convCore; let d := s.read (gloc (spadOf 0)) 64
     Ready s 0 convF (convRegs convF) ∧ opcode convF = 0xA0 ∧ convDec convF = none ∧ s.ownFault 0 (spadOf 0) 64 0xA4 1 = none ∧ s.attAhead 0 s.fresh = false ∧
     s.conflict (s.ins 0 convF) ⟨[⟨gloc (spadOf 0), gloc (spadOf 0) + 64, false⟩], []⟩ = false ∧ s.poisoned (gloc (spadOf 0)) 64 = false ∧
     convDescFault d = none ∧ Fmt.ofCode (rd d 0x13 1) = some .bf16 ∧ Fmt.ofCode (rd d 0xF 1) = some .bf16 ∧
     firstFault (convPlan (s.ins 0 convF) s d .bf16 .bf16).checks = none ∧ (convPlan (s.ins 0 convF) s d .bf16 .bf16).todo ≠ [] ∧ s.entries 0 < 8 ∧
     s.boardFull (s.ins 0 convF) (convPlan (s.ins 0 convF) s d .bf16 .bf16).foot = false ∧ s.conflict (s.ins 0 convF) (convPlan (s.ins 0 convF) s d .bf16 .bf16).foot = false) := by
  refine ⟨fun b => ?pl, ⟨ready_of ?_, ?_, ?_, ?_, ?_, ?_, ?_, ?_, ?_, ?_⟩, ⟨ready_of ?_, ?_, ?_, ?_, ?_, ?_⟩, ⟨ready_of ?_, ?_, ?_, ?_, ?_, ?_, ?_, ?_⟩,
    ⟨ready_of ?_, ?_, zero_of ?_, ?_⟩, ⟨ready_of ?_, ?_, zero_of ?_, ?_, ?_⟩, ⟨ready_of ?_, ?_, zero_of ?_, ?_⟩,
    ready_of ?_, ?_, ?_, ?_, ?_, ?_, ?_, ?_, ?_, ?_, ?_, ?_, ?_, ?_⟩
  case pl => cases b <;> refine ⟨?_, ready_of ?_, ?_, ?_, ?_, ?_, ?_, ?_, ?_, ?_⟩ <;> decide +kernel
  all_goals decide +kernel

/-- An attention descriptor of pool 0 and one entry of sequence 0. -/
def attD : List Byte :=
  [0, 1, 1, 0] ++ le 4 0x3F800000 ++ zeros 8 ++ le 8 (spadOf 0 + 0x400) ++ le 8 (spadOf 0 + 0x500) ++ le 8 (spadOf 0 + 0x600) ++ le 8 (spadOf 0 + 0x700) ++
  le 8 (spadOf 0 + 0x800) ++ le 8 (spadOf 0 + 0x900) ++ le 8 (spadOf 0 + 0xA00) ++ le 8 0 ++ le 4 0 ++ le 4 32 ++ le 8 (deckOf 0) ++ le 8 (deckOf 0 + 0x4000) ++
  [4, 0, 0, 0] ++ le 2 0xFFFF ++ zeros 18
def entD : List Byte := fit 32 (le 4 0 ++ le 4 0 ++ [1, 0, 0, 0])
def attF (op : Nat) : Frame := frame op [(16, 1), (20, 2)]
def attCore : State := { (vcore [] attD).store (spadOf 0 + 0x100) entD with
  kv := { quiet.kv with
    pools := [(0, { pool0 with frames := [(0, ⟨1, 0⟩)] })], seqs := [(0, seq0)] } }
def kvopF : Frame := frame 0x94 [(16, 1), (20, 5)]
def haloF (mode : Nat) : Frame := frame 0xA4 ([(16, mode), (20, 1), (24, 5)] ++ if mode = 0 then [(28, 2)] else [])
/-- A link descriptor of role 0 or 1: partner core 1 of this device, its buffer, stripes of 64 bytes, flag 9. -/
def linkD (role : Nat) : List Byte := fit 32 (le 8 (1 * 2 ^ 12 + 3) ++ le 8 (spadOf 0 + 0x400) ++ le 4 64 ++ le 2 9 ++ [BitVec.ofNat 8 role])
def atomF : Frame := frame 0x21 [(16, 6), (29, 1), (33, 2), (37, 3), (41, 6), (45, 1)]
def spostF : Frame := frame 0x20 [(16, 5), (20, 1)]
def bfillF : Frame := frame 0xB0 [(16, 5), (20, 3)]
def optimF : Frame := frame 0xB4 [(25, 1), (29, 2), (41, 5), (45, 6), (49, 6)]
def optimCore : State := vcore [(5, 1), (6, 0)] |>.modCtx 0 fun x => { x with uops := [(0, ⟨[BitVec.ofNat 32 (0x3C * 2 ^ 25 + 0x10 * 2 ^ 16)], []⟩)] }

theorem test_attb_begins : ((after (.attb 0 (attF 0x91)) attCore).attn 0).map (·.walks) = some [⟨2, 16, 0⟩] := by decide +kernel
/-- R255, R257: the signal of HALO SEND stores stripe number plus one. -/
theorem test_halo_send : (after (.haloSend 0 (haloF 0)) ((vcore [(5, 1)] (linkD 0)))).sigs.map (·.val) = [2] := by decide +kernel
theorem test_bfill : ((after (.bfill 0 bfillF) { vcore [(5, 2048)] with tr := { quiet.tr with buckets := [(3, bucket0 1 0 false none)] } }).bucket? 3).map (·.full) =
    some true := by decide +kernel

/-- The entry keeps its rules, wherever the part puts the output row of a forward entry. -/
theorem att_entry (b : Bool) : entryCheck attCore 0 b 0 (attCore.read (gloc (spadOf 0)) 128) (attCore.read (gloc (spadOf 0 + 0x100)) 32) none = none := by
  unfold entryCheck
  generalize Config.outRowAtQoff = k
  cases b <;> cases k <;> decide +kernel

theorem witness_HandedOverInstructionsComplete :
    (∀ b : Bool, let f := attF (if b then 0x91 else 0x90); let s := attCore
      opcode f = (if b then 0x91 else 0x90) ∧ Ready s 0 f (attRegs f) ∧ attDec b f = none ∧ s.ownFault 0 (spadOf 0) 128 0x93 4 = none ∧
      s.ownFault 0 (spadOf 0 + 0x100) 32 0x93 4 = none ∧ s.fenced 0 = false ∧ s.busyUnit (s.ins 0 f) = false ∧
      Starts s (s.ins 0 f) 40 (Foot.union [⟨[⟨gloc (spadOf 0), gloc (spadOf 0) + 128, false⟩, ⟨gloc (spadOf 0 + 0x100), gloc (spadOf 0 + 0x100) + 32, false⟩], []⟩,
        s.attnFoot ⟨s.fresh, f, (s.ctx 0).pc, b, fld f 40 40, AttDesc.of (s.read (gloc (spadOf 0)) 128), [AttEntry.of (s.read (gloc (spadOf 0 + 0x100)) 32)], [⟨2, 16, 0⟩]⟩]) ∧
      seq0.resident = true ∧
      s.conflict (s.ins 0 f) ⟨[⟨gloc (spadOf 0), gloc (spadOf 0) + 128, false⟩, ⟨gloc (spadOf 0 + 0x100), gloc (spadOf 0 + 0x100) + 32, false⟩], []⟩ = false ∧
      s.poisoned (gloc (spadOf 0)) 128 = false ∧ s.poisoned (gloc (spadOf 0 + 0x100)) 32 = false ∧
      fld f 40 40 = 0 ∧ descFault s 0 b (fld f 40 40) (s.read (gloc (spadOf 0)) 128) = none ∧
      (AttDesc.of (s.read (gloc (spadOf 0)) 128)).pool = 0 ∧ (s.kvPool 0).isSome = true ∧ s.kvSeq (AttEntry.of (s.read (gloc (spadOf 0 + 0x100)) 32)).seq = some seq0 ∧
      entryCheck s 0 b 0 (s.read (gloc (spadOf 0)) 128) (s.read (gloc (spadOf 0 + 0x100)) 32) none = none) ∧
    (let s := vcore []
     Ready s 0 kvopF [fld kvopF 19 16] ∧ opcode kvopF = 0x94 ∧ Zero kvopF [(127, 32)] ∧ s.ownFault 0 (spadOf 0) 32 0x93 4 = none ∧ s.editsOut 0 1 + s.queuedOps (s.ins 0 kvopF) 0x94 < 8 ∧
     Starts s (s.ins 0 kvopF) 41 ⟨[⟨gloc (spadOf 0), gloc (spadOf 0) + 32, true⟩], []⟩ ∧ s.poisoned (gloc (spadOf 0)) 16 = false) ∧
    (∀ m ∈ [0, 1, 2], let f := haloF m; let role := if m = 0 then 0 else 1
      let s : State := (vcore [(5, 1)] (linkD role)).modCtx 0 fun x => x.setFlag 9 2
      let d := s.read (gloc (spadOf 0)) 32
      opcode f = 0xA4 ∧ fld f 17 16 = m ∧ Ready s 0 f (haloRegs f) ∧ haloDec f = none ∧ s.ownFault 0 (spadOf 0) 32 0xA4 0 = none ∧ s.fenced 0 = false ∧
      s.conflict (s.ins 0 f) ⟨[⟨gloc (spadOf 0), gloc (spadOf 0) + 32, false⟩], []⟩ = false ∧ s.poisoned (gloc (spadOf 0)) 32 = false ∧
      haloFault s d role = none ∧ s.ownFault 0 (spadOf 0 + 0x100) 64 0xA4 0 = none ∧ 0 ≤ ((s.ctx 0).flag (rd d 0x14 2) - (1 - 1)).toInt ∧
      0 ≤ ((s.ctx 0).flag (rd d 0x14 2) - (1 + 1)).toInt ∧
      s.conflict (s.ins 0 f) ⟨[⟨gloc (spadOf 0 + 0x100), gloc (spadOf 0 + 0x100) + 64, false⟩], []⟩ = false ∧
      s.stemsRead 0 1 (gloc (rd d 8 8) + 64) (gloc (rd d 8 8) + 128) = false ∧
      s.conflict (s.ins 0 f) ⟨[⟨gloc (rd d 8 8) + 64, gloc (rd d 8 8) + 128, true⟩], []⟩ = false ∧
      (State.gWrite { s with fresh := s.fresh + 1 } (rd d 8 8 + 64) (s.mem.readP (gloc (spadOf 0 + 0x100)) 64) 1 (some 1)
        (.halo 0 1 s.fresh 0x20 f (BitVec.ofNat 64 (rd d 8 8 + 64)))).1 = St.ok) ∧
    (∀ op ∈ [0xA8, 0xA9, 0xAA, 0xAB], let f := frame op [(16, 1)]
      Ready (vcore []) 0 f [fld f 19 16] ∧ opcode f = op ∧ Zero f [(127, 33)] ∧ (((vcore []).works 0 1).filter fun w => w.unit == 7).length < 4) ∧
    (let s := vcore [(1, 0x40)]; let t := vcore [(1, 2 ^ 48)]
     Ready s 0 atomF ([1, 2, 3] ++ [6]) ∧ Ready t 0 atomF ([1, 2, 3] ++ [6]) ∧ opcode atomF = 0x21 ∧ Zero atomF [(127, 55), (22, 20)] ∧ fld atomF 19 16 < 8 ∧
     atomFields (fld atomF 19 16) (fld atomF 24 23) (fld atomF 28 25) (atomEa atomF) = true ∧ 0x40 % atomBytes 6 = 0 ∧ gvalid 0x40 = true ∧ s.atomsOut 0 1 + s.queuedOps (s.ins 0 atomF) 0x21 < 64 ∧
     Starts s (s.ins 0 atomF) 50 (scalarFoot s 0 0x40 8 true) ∧ Starts t (t.ins 0 atomF) 50 (scalarFoot t 0 (2 ^ 48) 8 true) ∧ s.fenced 0 = false ∧ t.fenced 0 = false ∧
     gdev 0x40 = s.fab.devnum ∧ ownTouch 0 (gloc 0x40) 8 = false ∧ place (gloc 0x40) = .lp ∧ s.site (gloc 0x40) 8 ≠ .no ∧
     gdev (2 ^ 48) ≠ t.fab.devnum) ∧
    (let s : State := { vcore [(5, 9)] with streams := [(9, { stream0 with owner := .prog 1 })] }
     Ready s 0 spostF [fld spostF 19 16, fld spostF 23 20] ∧ opcode spostF = 0x20 ∧ Zero spostF [(127, 25)] ∧ spadOf 0 % 64 = 0 ∧
     s.ownFault 0 (spadOf 0) 64 0x23 5 = none ∧ s.stream? 9 = some { stream0 with owner := .prog 1 } ∧
     Starts s (s.ins 0 spostF) 50 ⟨[⟨gloc (spadOf 0), gloc (spadOf 0) + 64, false⟩], []⟩ ∧ s.spostsOut 0 1 + s.queuedOps (s.ins 0 spostF) 0x20 < 8) ∧
    (let s : State := { vcore [(5, 2048)] with tr := { quiet.tr with buckets := [(3, bucket0 1 0 false none)] } }
     Ready s 0 bfillF [fld bfillF 19 16] ∧ opcode bfillF = 0xB0 ∧ Zero bfillF [(127, 28)] ∧ s.busy (s.ins 0 bfillF) (·.writes) = false ∧
     s.bucket? (fld bfillF 27 20) = some (bucket0 1 0 false none) ∧ 0 + 2048 = (bdef 1 0).valid ∧ 0 + 1 < (bdef 1 0).valid) ∧
    (Ready optimCore 0 optimF (optimRegs optimF) ∧ opcode optimF = 0xB4 ∧ optimDec optimF = none ∧ optimCore.uploading (optimCore.ins 0 optimF) = false ∧
      (optimOp (optimCore.ins 0 optimF) optimCore).Clear (optimCore.ins 0 optimF) optimCore) := by
  refine ⟨fun b => ?at', ⟨ready_of ?_, ?_, zero_of ?_, ?_, ?_, ?_, ?_⟩, fun m h => ?ha, fun op h => ?st, ⟨ready_of ?_, ready_of ?_, ?_, zero_of ?_, ?_⟩,
    ⟨ready_of ?_, ?_, zero_of ?_, ?_⟩, ⟨ready_of ?_, ?_, zero_of ?_, ?_⟩, ready_of ?_, ?_, ?_, ?_, clear_of ?_⟩
  case at' =>
    cases b <;> refine ⟨?_, ready_of ?_, ?_, ?_, ?_, ?_, ?_, ?_, ?_, ?_, ?_, ?_, ?_, ?_, ?_, ?_, ?_, att_entry _⟩ <;> decide +kernel
  case ha =>
    simp only [List.mem_cons, List.not_mem_nil, or_false] at h
    rcases h with rfl | rfl | rfl <;> refine ⟨?_, ?_, ready_of ?_, ?_⟩ <;> decide +kernel
  case st =>
    simp only [List.mem_cons, List.not_mem_nil, or_false] at h
    rcases h with rfl | rfl | rfl | rfl <;> refine ⟨ready_of ?_, ?_, zero_of ?_, ?_⟩ <;> decide +kernel
  all_goals decide +kernel

/-- A core of device 0 whose second device is a member on a free route of link 0. -/
def reaching (x : Ctx) : State := { core x with fab := { (core x).fab with
  devState := 1, members := [(2, true)], routes := [(2, 1)], links := [(0, { Link.down with state := 2, credits := (List.range 12).map fun i => (i, 100) })] } }

/-- The other forms of SLD and SST: misaligned, with a reserved address bit, and of another device. -/
theorem witness_LocalScalarLoadAndStore_others :
    (let s := core (regs [(2, spadOf 0 + 17)]); Ready s 0 sldF (fld sldF 24 21 :: selRegs (fld sldF 20 16)) ∧
      ((s.ctx 0).getA 2 + sldF.extractLsb' 64 64).toNat % 2 ≠ 0 ∧ Ready s 0 sstF (fld sstF 24 21 :: selRegs (fld sstF 20 16)) ∧
      ((s.ctx 0).getA 2 + sstF.extractLsb' 64 64).toNat % 8 ≠ 0) ∧
    (let s := core (regs [(2, 2 ^ 61 + 16)]); Ready s 0 sldF (fld sldF 24 21 :: selRegs (fld sldF 20 16)) ∧
      gvalid ((s.ctx 0).getA 2 + sldF.extractLsb' 64 64).toNat = false ∧ Ready s 0 sstF (fld sstF 24 21 :: selRegs (fld sstF 20 16)) ∧
      gvalid ((s.ctx 0).getA 2 + sstF.extractLsb' 64 64).toNat = false) ∧
    (let s := reaching (regs [(2, 2 ^ 49 + 16)]); Ready s 0 sldF (fld sldF 24 21 :: selRegs (fld sldF 20 16)) ∧
      Ready s 0 sstF (fld sstF 24 21 :: selRegs (fld sstF 20 16)) ∧ gdev ((s.ctx 0).getA 2 + sldF.extractLsb' 64 64).toNat ≠ s.fab.devnum ∧
      s.loadsOut 0 1 < 16 ∧
      (State.gReadPiece { s with fresh := s.fresh + 1 } (2 ^ 49 + 24) 2 1 (some 1)
        (.load 0 1 s.fresh 0x20 sldF (BitVec.ofNat 64 (2 ^ 49 + 24)) 1 2 true)).1 matches .out) := by
  refine ⟨⟨ready_of ?_, ?_, ready_of ?_, ?_⟩, ⟨ready_of ?_, ?_, ready_of ?_, ?_⟩, ready_of ?_, ready_of ?_, ?_⟩ <;> decide +kernel

end Sys2Proof.Tests
end

/-! # The scope: steps, reset values and the end of the reset sequence

A step takes the command at the front of the queue or lets a cycle pass. A cycle of a device at rest finds no work to go on with, so
all it does besides time is the reset sequence's steps 5 to 7 (R476). -/

namespace Sys2Proof.Machine

/-! ## The two kinds of step -/

theorem step_pending_cons (c : Instr) (rest : List Instr) (s : State) :
    step { s with pending := c :: rest } = exec c { s with pending := rest } := rfl

theorem step_of_pending_nil {s : State} (h : s.pending = []) : step s = .next s.tick := by
  simp only [step, h]

theorem SMap.get?_map_pair {α : Type} (g : Nat → α) (k : Nat) (l : List Nat) (h : k ∈ l) :
    SMap.get? (l.map fun i => (i, g i)) k = some (g k) := by
  induction l with
  | nil => cases h
  | cons i l ih =>
    rw [List.map_cons, SMap.get?_cons]
    split
    · next e => rw [e]
    · next e => exact ih ((List.mem_cons.1 h).resolve_left e)

namespace State

variable {s : State}

/-! ## A device at rest: the background finds no work -/

/-- No core, program, stream, request, edit, link, ring, tree, training step or fetch that the background of an idle step could
carry on. -/
structure AtRest (s : State) : Prop where
  cores : s.cores = []
  progs : s.progs = []
  sposts : s.sposts = []
  streams : s.streams = []
  edits : s.kv.edits = []
  waiting : s.fab.waiting = []
  links : s.fab.links = []
  trees : s.fab.trees = []
  fetches : s.fab.fetches = []
  rings : s.tr.rings = []
  steps : s.tr.steps = []

theorem failGo_of_no_progs (h : s.progs = []) : s.failGo = s := by simp [failGo, h]

theorem deliver_of_no_sposts (h : s.sposts = []) : s.deliver s.sposts.length = s := by rw [h]; rfl

theorem resendAll_of_none_waiting (h : s.fab.waiting = []) : s.resendAll = s := by
  rw [resendAll, h, List.foldl_nil, ← h]

theorem arriveEdits_of_no_edits (h : s.kv.edits = []) : s.arriveEdits = s := by simp [arriveEdits, h]

theorem reservedEdits_of_no_edits (h : s.kv.edits = []) : s.reservedEdits = s := by simp [reservedEdits, h]

theorem submitAll_of_no_streams (h : s.streams = []) : s.submitAll = s := by simp [submitAll, h]

theorem phasesGo_of_no_steps (h : s.tr.steps = []) : s.phasesGo = s := by simp [phasesGo, h]

theorem boxGo_of_no_fetches (h : s.fab.fetches = []) (p : Port) : s.boxGo p = s := by simp [boxGo, fetch?, h]

theorem foldl_boxGo_of_no_fetches (h : s.fab.fetches = []) : allPorts.foldl boxGo s = s := by
  simp [allPorts, boxGo_of_no_fetches h]

theorem background_of_atRest (h : s.AtRest) : s.background = s := by
  simp [background, failGo_of_no_progs h.progs, deliver_of_no_sposts h.sposts, resendAll_of_none_waiting h.waiting,
    arriveEdits_of_no_edits h.edits, reservedEdits_of_no_edits h.edits, submitAll_of_no_streams h.streams,
    foldl_boxGo_of_no_fetches h.fetches, phasesGo_of_no_steps h.steps, h.links, h.rings, h.trees, h.progs, h.cores]

/-! ## What keeps a device at rest -/

theorem AtRest.clocks (h : s.AtRest) : s.clocks.AtRest :=
  { h with cores := by simp [State.clocks, h.cores], progs := by simp [State.clocks, h.progs] }

theorem AtRest.linksUp (h : s.AtRest) : s.linksUp.AtRest := { h with }

theorem AtRest.seqEnd (h : s.AtRest) : s.seqEnd.AtRest := by
  constructor <;> simp [State.seqEnd, h.cores, h.progs, h.sposts, h.streams, h.edits, h.waiting, h.links, h.trees, h.fetches,
    h.rings, h.steps]

theorem reset_atRest : reset.AtRest := by constructor <;> rfl

/-! ## What an event and a log entry leave of DSTATE and FWOK -/

@[simp] theorem event_dstate (cls st : Nat) (x y : W64) : (s.event cls st x y).dc.dstate = s.dc.dstate := by
  simp only [event]
  split
  · rfl
  · split <;> rfl

@[simp] theorem event_fwok (cls st : Nat) (x y : W64) : (s.event cls st x y).dc.fwok = s.dc.fwok := by
  simp only [event]
  split
  · rfl
  · split <;> rfl

@[simp] theorem logErrSev_dstate (v src code : Nat) (a : W64) (st : Nat) (d : List Byte) :
    (s.logErrSev v src code a st d).dc.dstate = s.dc.dstate := by
  simp only [logErrSev]
  split
  · rfl
  · simp

@[simp] theorem logErrSev_fwok (v src code : Nat) (a : W64) (st : Nat) (d : List Byte) :
    (s.logErrSev v src code a st d).dc.fwok = s.dc.fwok := by
  simp only [logErrSev]
  split
  · rfl
  · simp

/-! ## Steps 5 to 7 of the reset sequence (R476) -/

@[simp] theorem seqEnd_dstate : s.seqEnd.dc.dstate = s.dc.dstate := logErrSev_dstate ..
@[simp] theorem seqEnd_fwok : s.seqEnd.dc.fwok = s.dc.fwok := logErrSev_fwok ..
@[simp] theorem seqEnd_pw : s.seqEnd.pw = { s.pw with seq := none } := logErrSev_pw ..
@[simp] theorem seqEnd_hp : s.seqEnd.hp = s.hp := logErrSev_hp ..
@[simp] theorem seqEnd_mc (k : Nat) : s.seqEnd.mc k = s.mc k := congrArg (SMap.getD · k Mc.reset) (logErrSev_mcs ..)

@[simp] theorem linksUp_dc : s.linksUp.dc = s.dc := rfl
@[simp] theorem linksUp_pstate : s.linksUp.pw.pstate = 3 := rfl
@[simp] theorem linksUp_link : s.linksUp.hp.link = 2 := rfl

theorem linksUp_trained {k : Nat} (h : k < 12) : (s.linksUp.mc k).trained = 0xFF := by
  simp [mc, linksUp, SMap.getD, SMap.get?_map_pair _ _ _ (List.mem_range.2 h)]

@[simp] theorem clocks_seq : s.clocks.pw.seq = s.pw.seq := by simp only [clocks]; split <;> rfl
@[simp] theorem clocks_held : s.clocks.pw.held = s.pw.held := by simp only [clocks]; split <;> rfl
@[simp] theorem clocks_env : s.clocks.env = s.env := rfl

/-- The device with firmware running and its self-test passed. -/
def readied (s : State) : State := { s with dc := { s.dc with fwok := true, dstate := 1 } }

theorem AtRest.readied (h : s.AtRest) : s.readied.AtRest := { h with }

@[simp] theorem readied_dstate : s.readied.dc.dstate = 1 := rfl
@[simp] theorem readied_fwok : s.readied.dc.fwok = true := rfl

theorem bringUp_of_good_env (hx : s.env.excl = []) (hm : s.env.badX = []) : s.bringUp = s.readied.linksUp.seqEnd := by
  simp [bringUp, readied, hx, hm]

theorem bootGo_of_seq_five (hq : s.pw.seq = some 5) (hh : s.pw.held = none) : s.bootGo = s.bringUp := by
  simp [bootGo, hq, hh]

/-- The cycle that ends the reset sequence of a device at rest does steps 5 to 7 and nothing else but time. -/
theorem tick_of_atRest (h : s.AtRest) (hq : s.pw.seq = some 5) (hh : s.pw.held = none) (hx : s.env.excl = [])
    (hm : s.env.badX = []) : s.tick = s.clocks.readied.linksUp.seqEnd := by
  rw [tick, bootGo_of_seq_five (by simp [hq]) (by simp [hh]), bringUp_of_good_env (by simp [hx]) (by simp [hm])]
  exact background_of_atRest h.clocks.readied.linksUp.seqEnd

theorem tick_reset : reset.tick = reset.clocks.readied.linksUp.seqEnd := tick_of_atRest reset_atRest rfl rfl rfl rfl

end State

/-- Settles O1: it is the arm of `step` for a queue that is not empty. -/
theorem stepRunsTheFrontCommand : Obligations.StepRunsTheFrontCommand := step_pending_cons

/-- Settles O54: the reset values are read off `State.reset`, the registers by evaluating each one listed. The device is then at rest,
so the cycle that passes comes to bring-up alone (`State.tick_reset`). -/
theorem resetLeavesTheStatedValues : Obligations.ResetLeavesTheStatedValues := by
  refine ⟨⟨rfl, rfl, rfl, rfl, rfl, rfl, rfl, fun _ => rfl, rfl, fun _ => ⟨rfl, rfl, rfl, rfl⟩, rfl, rfl, rfl, rfl, rfl, rfl,
    fun _ => ⟨rfl, rfl⟩⟩, by decide, State.reset.tick, step_of_pending_nil rfl, ?_⟩
  rw [State.tick_reset]
  refine ⟨?dstate, ?fwok, ?pstate, ?seq, ?link, fun k hk => ?trained⟩
  case trained => simpa using State.linksUp_trained hk
  all_goals simp

end Sys2Proof.Machine

/-! # The matrix engines: rows, panels, passes and the issue of their instructions -/

namespace Sys2Proof.Machine

/-! ## What stays outside one core -/

theorem OnlyCore.refl (s : State) (c : Nat) : OnlyCore s s c := ⟨rfl, fun _ _ => rfl⟩

theorem OnlyCore.trans {s t u : State} {c : Nat} (h : OnlyCore s t c) (g : OnlyCore t u c) : OnlyCore s u c := by
  refine ⟨?_, fun k hk => (g.2 k hk).trans (h.2 k hk)⟩
  rw [g.1, h.1]

theorem OnlyCore.modCtx (s : State) (c : Nat) (g : Ctx → Ctx) : OnlyCore s (s.modCtx c g) c :=
  ⟨rfl, fun _ hk => State.core_modCtx_other _ _ _ _ hk⟩

section Fold

variable {α : Type} (c : Nat) (g : α → Ctx → Ctx)

theorem onlyCore_foldl_modCtx (l : List α) (s : State) : OnlyCore s (l.foldl (fun t y => t.modCtx c (g y)) s) c := by
  induction l generalizing s with
  | nil => exact .refl s c
  | cons y l ih => exact (OnlyCore.modCtx s c (g y)).trans (ih _)

theorem ctx_foldl_modCtx (l : List α) (s : State) :
    (l.foldl (fun t y => t.modCtx c (g y)) s).ctx c = l.foldl (fun x y => g y x) (s.ctx c) := by
  induction l generalizing s with
  | nil => rfl
  | cons y l ih => rw [List.foldl_cons, ih, State.ctx_modCtx_same, List.foldl_cons]

end Fold

/-! ## Accumulators (R57, R102) -/

namespace Matrix

variable (m : Matrix)

@[simp] theorem pair_setPair_same (k : Nat) (p : Pair) : (m.setPair k p).pair k = p := by
  have hs : (p.s.setWidth 64 ||| p.c.setWidth 64 <<< 32).extractLsb' 0 32 = p.s := by
    ext i hi
    simp [hi]
    omega
  have hc : (p.s.setWidth 64 ||| p.c.setWidth 64 <<< 32).extractLsb' 32 32 = p.c := by
    ext i hi
    simp [hi, show 32 + i < 64 by omega]
  simp only [pair, setPair, SMap.getD_setD_same, hs, hc]

@[simp] theorem pair_setPair_other (k j : Nat) (p : Pair) (h : j ≠ k) : (m.setPair k p).pair j = m.pair j := by
  simp only [pair, setPair, SMap.getD_setD_other _ _ _ _ _ _ h]

@[simp] theorem pair_setInt (e bank tile k : Nat) (b : Bool) : (m.setInt e bank tile b).pair k = m.pair k := rfl
@[simp] theorem pair_setLive (e bank k : Nat) (b : Bool) : (m.setLive e bank b).pair k = m.pair k := rfl

theorem live_setLive_true (e bank : Nat) : (m.setLive e bank true).live = m.live ||| BitVec.ofNat 16 (2 ^ (e * 4 + bank)) := rfl

end Matrix

theorem accKey_col_inj {e bank tile row i j : Nat} (h : accKey e bank tile row i = accKey e bank tile row j) : i = j :=
  Nat.add_left_cancel h

/-! ## One row against the columns of a panel (R53, R62, R98) -/

namespace State

/-- The elements of a streamed row. -/
def rowElems (s : State) (p : PassSpec) (r : RowSrc) : List (Option XF) :=
  r.addrs.zipIdx.map fun a => a.1.map fun b =>
    s.elemAt p.afmt b (if p.afmt.isMx then (r.scales[a.2 / 32]?).getD none else none)

/-- The output of a fed row and column `n`. -/
def outKey (bank : Nat) (r : RowSrc) (n : Nat) : Nat := accKey (r.row / 4) bank r.tile (r.row % 4) n

/-- What an output that holds `q` becomes when the elements `act` of a row meet a column, and whether the engine overflowed. -/
def fedPair (p : PassSpec) (l : PanelLoad) (act col : List (Option XF)) (q : Pair) : Pair × Bool :=
  accumulate (l.fmt == .int8) (if p.fresh then Pair.zero else q) act col l.fmt.kc (slices l.fmt l.kp)

/-- What feeding a row does at one column of its panel to the core's context. -/
def feedCol (bank : Nat) (p : PassSpec) (l : PanelLoad) (r : RowSrc) (act : List (Option XF)) (col : List (Option XF) × Nat)
    (x : Ctx) : Ctx :=
  let q := fedPair p l act col.1 (x.mx.pair (outKey bank r col.2))
  let m := (x.mx.setPair (outKey bank r col.2) q.1).setInt (r.row / 4) bank r.tile (l.fmt == .int8)
  let y := { x with mx := m.setLive (r.row / 4) bank true }
  if q.2 then y.sticky (flagEng (r.row / 4)) else y

theorem feedRow_eq_foldl (s : State) (c bank : Nat) (p : PassSpec) (l : PanelLoad) (r : RowSrc) :
    s.feedRow c bank p l r = l.data.zipIdx.foldl (fun t col => t.modCtx c (feedCol bank p l r (s.rowElems p r) col)) s := rfl

theorem feedRow_onlyCore (s : State) (c bank : Nat) (p : PassSpec) (l : PanelLoad) (r : RowSrc) :
    OnlyCore s (s.feedRow c bank p l r) c := by
  rw [feedRow_eq_foldl]
  exact onlyCore_foldl_modCtx ..

section Columns

variable (bank : Nat) (p : PassSpec) (l : PanelLoad) (r : RowSrc) (act : List (Option XF))

/-- Feeding a column changes accumulators and status bits of the context and nothing else. -/
theorem feedCol_frame (col : List (Option XF) × Nat) (x : Ctx) : ∃ acc ints live astat,
    feedCol bank p l r act col x = { x with mx := { x.mx with acc := acc, ints := ints, live := live }, astat := astat } := by
  unfold feedCol
  dsimp only
  split
  · exact ⟨_, _, _, _, rfl⟩
  · exact ⟨_, _, _, _, rfl⟩

theorem feedCol_mx (col : List (Option XF) × Nat) (x : Ctx) : (feedCol bank p l r act col x).mx =
    ((x.mx.setPair (outKey bank r col.2) (fedPair p l act col.1 (x.mx.pair (outKey bank r col.2))).1).setInt
      (r.row / 4) bank r.tile (l.fmt == .int8)).setLive (r.row / 4) bank true := by
  unfold feedCol
  dsimp only
  split <;> rfl

/-- Feeding columns changes accumulators and status bits of the context and nothing else. -/
theorem feedCols_frame (cols : List (List (Option XF) × Nat)) (x : Ctx) : ∃ acc ints live astat,
    cols.foldl (fun x col => feedCol bank p l r act col x) x =
      { x with mx := { x.mx with acc := acc, ints := ints, live := live }, astat := astat } := by
  induction cols generalizing x with
  | nil => exact ⟨_, _, _, _, rfl⟩
  | cons col cols ih =>
    obtain ⟨acc, ints, live, astat, hx⟩ := feedCol_frame bank p l r act col x
    obtain ⟨acc', ints', live', astat', h⟩ := ih (feedCol bank p l r act col x)
    refine ⟨acc', ints', live', astat', ?_⟩
    rw [List.foldl_cons, h, hx]

theorem feedCols_pair_other (k : Nat) (cols : List (List (Option XF) × Nat)) (h : ∀ col ∈ cols, k ≠ outKey bank r col.2) (x : Ctx) :
    (cols.foldl (fun x col => feedCol bank p l r act col x) x).mx.pair k = x.mx.pair k := by
  induction cols generalizing x with
  | nil => rfl
  | cons col cols ih =>
    have hk : k ≠ outKey bank r col.2 := h col List.mem_cons_self
    rw [List.foldl_cons, ih (fun col hc => h col (List.mem_cons_of_mem _ hc))]
    simp [feedCol_mx, hk]

/-- Each column reaches the output of its own number, once. -/
theorem feedCols_pair_same (data : List (List (Option XF))) (n i : Nat) (col : List (Option XF)) (h : data[i]? = some col) (x : Ctx) :
    ((data.zipIdx n).foldl (fun x col => feedCol bank p l r act col x) x).mx.pair (outKey bank r (n + i)) =
      (fedPair p l act col (x.mx.pair (outKey bank r (n + i)))).1 := by
  induction data generalizing n i x with
  | nil => cases h
  | cons d data ih =>
    rw [List.zipIdx_cons, List.foldl_cons]
    cases i with
    | zero =>
      obtain rfl : d = col := by simpa using h
      have later : ∀ col ∈ data.zipIdx (n + 1), outKey bank r n ≠ outKey bank r col.2 := by
        intro col hc e
        have := List.le_snd_of_mem_zipIdx hc
        have := accKey_col_inj e
        omega
      rw [Nat.add_zero n, feedCols_pair_other _ _ _ _ _ _ _ later]
      simp [feedCol_mx]
    | succ i =>
      have earlier : outKey bank r (n + (i + 1)) ≠ outKey bank r n := by
        intro e
        have := accKey_col_inj e
        omega
      have e : n + (i + 1) = n + 1 + i := by omega
      rw [e] at earlier ⊢
      rw [ih (n + 1) i (by simpa using h)]
      simp [feedCol_mx, earlier]

theorem feedCols_live (cols : List (List (Option XF) × Nat)) (h : cols ≠ []) (x : Ctx) :
    (cols.foldl (fun x col => feedCol bank p l r act col x) x).mx.live =
      x.mx.live ||| BitVec.ofNat 16 (2 ^ (r.row / 4 * 4 + bank)) := by
  have one (col : List (Option XF) × Nat) (x : Ctx) : (feedCol bank p l r act col x).mx.live =
      x.mx.live ||| BitVec.ofNat 16 (2 ^ (r.row / 4 * 4 + bank)) := by
    rw [feedCol_mx]; rfl
  induction cols generalizing x with
  | nil => exact absurd rfl h
  | cons col cols ih =>
    rw [List.foldl_cons]
    rcases eq_or_ne cols [] with rfl | hne
    · exact one col x
    · rw [ih hne, one, BitVec.or_assoc, BitVec.or_self]

end Columns

end State

/-- Settles O33: a row is fed column by column (`State.feedRow_eq_foldl`), and the columns reach different outputs. -/
theorem productsAccumulateInTheirOutputs : Obligations.ProductsAccumulateInTheirOutputs := by
  intro s c bank p l r _ act key t
  have ht : t.ctx c = l.data.zipIdx.foldl (fun x col => State.feedCol bank p l r (s.rowElems p r) col x) (s.ctx c) := by
    rw [show t = _ from State.feedRow_eq_foldl s c bank p l r, ctx_foldl_modCtx]
  have hmx (u : State) : u.mx c = (u.ctx c).mx := rfl
  obtain ⟨acc, ints, live, astat, frame⟩ := State.feedCols_frame bank p l r (s.rowElems p r) l.data.zipIdx (s.ctx c)
  rw [← ht] at frame
  refine ⟨fun n col hn => ?same, fun k hk => ?other, fun _ _ hd => ?live, ?_, ?_, ?_, ?_, ?_, ?_, ?_, State.feedRow_onlyCore ..⟩
  case same =>
    have := State.feedCols_pair_same bank p l r (s.rowElems p r) l.data 0 n col hn (s.ctx c)
    rw [Nat.zero_add] at this
    rw [hmx, ht]
    exact this
  case other =>
    rw [hmx, ht]
    exact State.feedCols_pair_other _ _ _ _ _ _ _ (fun col hc => hk _ (List.snd_lt_of_mem_zipIdx hc)) _
  case live =>
    rw [hmx, ht]
    exact State.feedCols_live _ _ _ _ _ _ (by simpa using hd) _
  all_goals simp only [hmx, frame]

/-! ## The events of a matrix unit (R49 to R53, R67, R533) -/

section Arms

variable (c : Nat) (s : State)

theorem exec_panelLoadBegin : exec (.panelLoadBegin c) s = .next (s.panelBegin c) := rfl
theorem exec_panelLoadEnd : exec (.panelLoadEnd c) s = .next (s.panelEnd c) := rfl
theorem exec_passStart : exec (.passStart c) s = .next (s.passStart c) := rfl
theorem exec_passEnd : exec (.passEnd c) s = .next (s.passEnd c) := rfl
theorem exec_gatherWindowTimeout : exec (.gatherWindowTimeout c) s = .next (s.gatherTimeout c) := rfl
theorem exec_panelOrderFault : exec (.panelOrderFault c) s = .next (s.panelOrder c) := rfl

end Arms

namespace State

variable {s : State} {c : Nat}

section PanelLoads

variable {l : PanelLoad} {rest : List PanelLoad}

/-- The cycle from which the load at the head may begin. -/
def loadFrom (m : Matrix) (l : PanelLoad) : Nat := max (l.issue + l.lat) (max m.prevStart (max m.loadEnd (takenEnd m)))

theorem panelBegin_of_loads (on : s.matrixOn c = true) (hl : (s.mx c).loads = l :: rest) (hb : l.began = none) :
    s.panelBegin c = if s.cyc c < loadFrom (s.mx c) l then s
      else if l.bad s then s.fault c l.pc l.frame (faultOf (poisonCause l.frame) 1 l.base)
      else s.modMx c fun m => { m with loads := { l.fill s with began := some (s.cyc c) } :: rest } := by
  simp only [panelBegin, hl, on, hb, loadFrom, Bool.not_true, Option.isSome_none, Bool.false_or, decide_eq_true_eq]

section PanelBegin

variable (on : s.matrixOn c = true) (hl : (s.mx c).loads = l :: rest) (hb : l.began = none)
include on hl hb

theorem panelBegin_early (h : s.cyc c < loadFrom (s.mx c) l) : s.panelBegin c = s := by
  rw [panelBegin_of_loads on hl hb, if_pos h]

theorem panelBegin_clean (h : loadFrom (s.mx c) l ≤ s.cyc c) (good : l.bad s = false) : s.panelBegin c =
    s.modMx c fun m => { m with loads := { l.fill s with began := some (s.cyc c) } :: rest } := by
  rw [panelBegin_of_loads on hl hb, if_neg (Nat.not_lt.mpr h), if_neg (Bool.eq_false_iff.mp good)]

theorem panelBegin_poisoned (h : loadFrom (s.mx c) l ≤ s.cyc c) (bad : l.bad s = true) :
    s.panelBegin c = s.fault c l.pc l.frame (faultOf (poisonCause l.frame) 1 l.base) := by
  rw [panelBegin_of_loads on hl hb, if_neg (Nat.not_lt.mpr h), if_pos bad]

end PanelBegin

theorem loadOver_of_began {b : Nat} (hb : l.began = some b) (he : l.ended = none) (n : Nat) :
    loadOver n l = decide (b + l.dur ≤ n) := by
  simp [loadOver, hb, he]

theorem panelEnd_of_late (on : s.matrixOn c = true) (hm : (s.mx c).late = some l) (ho : loadOver (s.cyc c) l = true) :
    s.panelEnd c = s.modMx c fun m => { m with late := none, loadEnd := s.cyc c } := by
  simp [panelEnd, on, hm, ho]

theorem panelEnd_of_pass {q : Pass} (on : s.matrixOn c = true) (hm : (s.mx c).late = none) (hp : (s.mx c).pass = some q)
    (ho : loadOver (s.cyc c) q.panel = true) : s.panelEnd c =
      s.modMx c fun m => { m with pass := some { q with panel := { q.panel with ended := some (s.cyc c) } }, loadEnd := s.cyc c } := by
  simp [panelEnd, on, hm, hp, ho]

theorem panelEnd_of_loads (on : s.matrixOn c = true) (hm : (s.mx c).late = none) (hp : (s.mx c).pass = none)
    (hl : (s.mx c).loads = l :: rest) : s.panelEnd c =
      if loadOver (s.cyc c) l then
        s.modMx c fun m => { m with loads := { l with ended := some (s.cyc c) } :: rest, loadEnd := s.cyc c }
      else s := by
  simp [panelEnd, on, hm, hp, hl]

end PanelLoads

/-! ### Passes -/

section Passes

variable {e : MEntry} {q : List MEntry} {bank : Nat} {own : Bool} {todo : List PassSpec}

/-- Slots without a poisoned row are fed row by row. -/
theorem feedOr_of_clean {lo hi : Nat} {p : PassSpec} {l : PanelLoad} (e : MEntry)
    (clean : ((p.slots.drop lo).take (hi - lo)).flatten.any (s.rowBad p.afmt) = false) :
    s.feedOr c bank lo hi e p l =
      (true, ((p.slots.drop lo).take (hi - lo)).flatten.foldl (fun t r => t.feedRow c bank p l r) s) := by
  simp [feedOr, feed, clean]

/-- The cycle from which the pass at the front may start, its panel begun in cycle `b`. -/
def passFrom (m : Matrix) (e : MEntry) (own : Bool) (p : PassSpec) (l : PanelLoad) (b : Nat) : Nat :=
  max m.prevEnd (max (b + l.dur - (l.ncol - 1)) ((if own then l.issue else e.issue) + p.lat))

/-- A later pass of the instruction as it is laid out when pass `p` meets panel `l`. -/
def fitTo (own : Bool) (p : PassSpec) (l : PanelLoad) (r : PassSpec) : PassSpec :=
  if own || p.ix != 0 then r else fitPass l.kp r

/-- The matrix unit once the pass at the front has taken its panel. -/
def tookPanel (s : State) (c : Nat) (e : MEntry) (q : List MEntry) (bank : Nat) (own : Bool) (p : PassSpec) (todo : List PassSpec)
    (l : PanelLoad) (rest : List PanelLoad) : State :=
  s.modMx c fun m => { m with
    loads := rest, prevStart := s.cyc c,
    pass := some ⟨s.cyc c, p.slots.length * slices l.fmt l.kp, 1, fitTo own p l p, l⟩,
    queue := { e with kind := .passes bank (fitTo own p l p :: todo.map (fitTo own p l)) own } :: q }

section PassStart

variable {p : PassSpec} {l : PanelLoad} {rest : List PanelLoad} {b : Nat} (on : s.matrixOn c = true)
  (hq : (s.mx c).queue = e :: q) (hk : e.kind = .passes bank (p :: todo) own) (hl : (s.mx c).loads = l :: rest)
  (hp : (s.mx c).pass = none) (hb : l.began = some b) (ho : l.owner = if own then e.uid else 0)
  (hw : p.ix = 0 → p.fed = 0 → s.matrixWaits c e = false)
include on hq hk hl hp hb ho hw

theorem passStart_of_front : s.passStart c =
    if s.cyc c < passFrom (s.mx c) e own p l b then s else
    match (if own then none else s.passFault c (fitTo own p l p) l) with
    | some i => s.entryFault c e i
    | none => ((s.tookPanel c e q bank own p todo l rest).feedOr c bank 0 1 e (fitTo own p l p) l).2 := by
  have free : (p.ix == 0 && p.fed == 0 && s.matrixWaits c e) = false := by
    by_cases hi : p.ix = 0 ∧ p.fed = 0
    · simp [hw hi.1 hi.2]
    · rw [Bool.and_eq_false_iff]
      exact .inl (by simpa using hi)
  have hown : (l.owner != if own then e.uid else 0) = false := by simp [ho]
  simp only [passStart, hq, hk, hl, hp, hb, on, hown, free, Bool.not_true, Bool.false_or, decide_eq_true_eq]
  rfl

theorem passStart_early (h : s.cyc c < passFrom (s.mx c) e own p l b) : s.passStart c = s := by
  rw [passStart_of_front on hq hk hl hp hb ho hw, if_pos h]

theorem passStart_fault (h : passFrom (s.mx c) e own p l b ≤ s.cyc c) (hown : own = false) {i : FaultInfo}
    (hi : s.passFault c (fitTo own p l p) l = some i) : s.passStart c = s.entryFault c e i := by
  have found : (if own then none else s.passFault c (fitTo own p l p) l) = some i := by simpa [hown] using hi
  rw [passStart_of_front on hq hk hl hp hb ho hw, if_neg (Nat.not_lt.mpr h), found]

theorem passStart_feeds (h : passFrom (s.mx c) e own p l b ≤ s.cyc c)
    (sound : own = false → s.passFault c (fitTo own p l p) l = none)
    (clean : ((fitTo own p l p).slots.take 1).flatten.any (s.rowBad (fitTo own p l p).afmt) = false) : s.passStart c =
      ((fitTo own p l p).slots.take 1).flatten.foldl (fun t r => t.feedRow c bank (fitTo own p l p) l r)
        (s.tookPanel c e q bank own p todo l rest) := by
  have none' : (if own then none else s.passFault c (fitTo own p l p) l) = none := by
    cases own
    · exact sound rfl
    · rfl
  rw [passStart_of_front on hq hk hl hp hb ho hw, if_neg (Nat.not_lt.mpr h), none']
  exact congrArg Prod.snd (feedOr_of_clean e clean)

end PassStart

section PassEnd

variable {r : Pass} (on : s.matrixOn c = true) (hq : (s.mx c).queue = e :: q) (hk : e.kind = .passes bank todo own)
  (hp : (s.mx c).pass = some r)
include on hq hk hp

theorem passEnd_of_pass : s.passEnd c =
    if s.cyc c < r.start + r.dur then s else
    let f := s.feedOr c bank r.slot r.spec.slots.length e r.spec r.panel
    if f.1 then (f.2.dropPass c).runMatrix 10 c else f.2 := by
  simp [passEnd, on, hq, hk, hp]

theorem passEnd_early (h : s.cyc c < r.start + r.dur) : s.passEnd c = s := by
  rw [passEnd_of_pass on hq hk hp, if_pos h]

theorem passEnd_feeds (h : r.start + r.dur ≤ s.cyc c)
    (clean : (r.spec.slots.drop r.slot).flatten.any (s.rowBad r.spec.afmt) = false) : s.passEnd c = runMatrix 10 (dropPass
      ((r.spec.slots.drop r.slot).flatten.foldl (fun t w => t.feedRow c bank r.spec r.panel w) s) c) c := by
  have all : (r.spec.slots.drop r.slot).take (r.spec.slots.length - r.slot) = r.spec.slots.drop r.slot :=
    List.take_of_length_le (by simp)
  have fed := feedOr_of_clean (s := s) (c := c) (bank := bank) (l := r.panel) e (by rw [all]; exact clean)
  rw [passEnd_of_pass on hq hk hp, if_neg (Nat.not_lt.mpr h), fed, all]
  rfl

end PassEnd

end Passes

/-! ### GWAIT's timeout and the panel order -/

theorem gatherTimeout_of_due {e : MEntry} {q : List MEntry} {dst mask : Nat} {g : Gather} (on : s.matrixOn c = true)
    (hq : (s.mx c).queue = e :: q) (hk : e.kind = .gwait dst) (hg : (s.mx c).gather = some g) (hd : g.due = some mask) :
    s.gatherTimeout c = ((s.gatherClose c dst e.uid mask).popEntry c).runMatrix 10 c := by
  have hq' : (s.ctx c).mx.queue = e :: q := hq
  have hg' : (s.ctx c).mx.gather = some g := hg
  simp [gatherTimeout, hq', hk, hg', hd, on]

theorem panelOrder_of_stalled {h : Hold} (on : s.matrixOn c = true) (hh : (s.ctx c).hold = some h)
    (hop : opcode h.frame = 0x44 ∨ opcode h.frame = 0x45) (full : 4 ≤ (s.mx c).queued.length)
    (none' : ∀ e ∈ (s.mx c).queue, MKind.takes e.kind = false) :
    s.panelOrder c = s.fault c (s.ctx c).pc h.frame (faultOf 0x46 1) := by
  have idle : (s.mx c).queue.any (fun e => MKind.takes e.kind) = false := by simpa using none'
  have stalled : ((opcode h.frame = 0x44 || opcode h.frame = 0x45) && 4 ≤ (s.mx c).queued.length) = true := by
    simpa [full] using hop
  simp only [panelOrder, hh, on, idle, Bool.not_true, Bool.or_false, Bool.false_eq_true, if_false]
  exact if_pos stalled

end State

/-- Settles O32: each event is read off its equation for the state named, and the times are compared as the equation does. -/
theorem panelLoadsAndPassesFollowTheirTimes : Obligations.PanelLoadsAndPassesFollowTheirTimes := by
  intro s c on m now
  refine ⟨fun l rest hl hb => ?begins, fun l rest b hm hb he => ⟨fun hp hl => ?ends, fun q hp hpl h => ?taken⟩,
    fun l b hm hb he h => ?late, fun e q l rest b bank p todo own hq hk hl hp hb ho hw => ?start,
    fun e q r bank todo own hq hk hp => ?ended, fun e q dst g mask hq hk hg hd => ?gather, fun h hh hop full idle => ?order⟩
  case begins =>
    rw [exec_panelLoadBegin]
    exact ⟨fun h => congrArg _ (State.panelBegin_early on hl hb h), fun h good => congrArg _ (State.panelBegin_clean on hl hb h good),
      fun h bad => congrArg _ (State.panelBegin_poisoned on hl hb h bad)⟩
  case ends =>
    have eqn := State.panelEnd_of_loads on hm hp hl
    rw [State.loadOver_of_began hb he] at eqn
    refine ⟨fun h => ?_, fun h => ?_⟩
    · rw [exec_panelLoadEnd, eqn, if_neg (by simpa using h)]
    · rw [exec_panelLoadEnd, eqn, if_pos (by simpa using h)]
  case taken =>
    subst hpl
    rw [exec_panelLoadEnd, State.panelEnd_of_pass on hm hp (by simpa [State.loadOver_of_began hb he] using h)]
  case late =>
    rw [exec_panelLoadEnd, State.panelEnd_of_late on hm (by simpa [State.loadOver_of_began hb he] using h)]
  case start =>
    intro start fits
    have hfits : fits = State.fitTo own p l := by
      funext r
      simp [fits, State.fitTo]
    rw [hfits, exec_passStart]
    exact ⟨fun h => congrArg _ (State.passStart_early on hq hk hl hp hb ho hw h),
      fun h hown i hi => congrArg _ (State.passStart_fault on hq hk hl hp hb ho hw h hown hi),
      fun h sound clean => congrArg _ (State.passStart_feeds on hq hk hl hp hb ho hw h sound clean)⟩
  case ended =>
    rw [exec_passEnd]
    exact ⟨fun h => congrArg _ (State.passEnd_early on hq hk hp h),
      fun h clean => congrArg _ (State.passEnd_feeds on hq hk hp h clean)⟩
  case gather => rw [exec_gatherWindowTimeout, State.gatherTimeout_of_due on hq hk hg hd]
  case order => rw [exec_panelOrderFault, State.panelOrder_of_stalled on hh hop full idle]

/-! ## The issue of the matrix instructions (R58 to R76, R179, R180, R243 to R247) -/

/-! ### Checks, footprints and room -/

theorem firstFault_eq_none {l : List (Option FaultInfo)} : firstFault l = none ↔ ∀ x ∈ l, x = none := by
  simp [firstFault, List.findSome?_eq_none_iff]

@[simp] theorem need_eq_none {b : Bool} {cause unit addr : Nat} : need b cause unit addr = none ↔ b = true := by
  cases b <;> simp [need]

@[simp] theorem aligned_eq_none {n cause unit a : Nat} : aligned n cause unit a = none ↔ a % n = 0 := by
  simp [aligned]

theorem orFault_of_none {l : List (Option FaultInfo)} (h : firstFault l = none) (s : State) (k : IRes) : orFault s l k = k := by
  rw [orFault, h]

theorem hull_length_le (l : List Span) : (hull l).length ≤ 1 := by
  cases l <;> simp [hull]

theorem rowSpan_length_le (base stride count len : Nat) (wr : Bool) : (rowSpan base stride count len wr).length ≤ 1 := by
  unfold rowSpan
  split <;> simp

theorem PanelLoad.foot_length_le (l : PanelLoad) : l.foot.spans.length ≤ 2 := by
  unfold PanelLoad.foot
  dsimp only
  split
  · exact Nat.zero_le 2
  · rw [List.length_append]
    refine Nat.add_le_add (rowSpan_length_le ..) (?_ : _ ≤ 1)
    split
    · exact rowSpan_length_le ..
    · exact Nat.zero_le 1

namespace State

variable {s : State} {c : Nat} {f : Frame}

@[simp] theorem ins_c : (s.ins c f).c = c := rfl
@[simp] theorem ins_f : (s.ins c f).f = f := rfl
@[simp] theorem ins_n : (s.ins c f).n = s.fresh := rfl
@[simp] theorem ins_pc : (s.ins c f).pc = (s.ctx c).pc := rfl

/-- The scoreboard has room for `n` more spans (R180). -/
theorem boardFull_of_room {n : Nat} {foot : Foot} (room : ((s.inFlight c s.fresh).map fun g => g.spans.length).sum + n ≤ 32)
    (h : foot.spans.length ≤ n) : s.boardFull (s.ins c f) foot = false := by
  rw [boardFull, decide_eq_false_iff_not]
  simp only [ins_c, ins_n]
  omega

/-- An instruction that a ready core takes and whose meaning completes: the core goes on behind it. -/
theorem startOp_done {t : State} {op : Nat} {dec : Option FaultInfo} {regs : List Nat} {body : Ins → State → IRes}
    (hop : opcode f = op) (R : Ready s c f regs) (hd : dec = none) (h : body (s.ins c f) s = .done t) :
    s.startOp op c f (issueCore c f dec regs body) = s.pass t c := by
  rw [startOp_ready R op hop, hd, issueCore_done R h]

end State

section Arms

variable (c : Nat) (f : Frame) (s : State)

theorem exec_pload_or_tload (b : Bool) : exec (if b then .tload c f else .pload c f) s =
    .next (s.startOp (if b then 0x45 else 0x44) c f (State.issueCore c f (ploadDec f) (ploadRegs f) (ploadBody b))) := by
  cases b <;> rfl

theorem exec_mma : exec (.mma c f) s = .next (s.startOp 0x40 c f (State.issueCore c f (mmaDec f) (mmaRegs f) mmaBody)) := rfl

theorem exec_mmawg : exec (.mmawg c f) s =
    .next (s.startOp 0x50 c f (State.issueCore c f (mmawgDec f) (mmawgRegs f) mmawgBody)) := rfl

theorem exec_accst : exec (.accst c f) s =
    .next (s.startOp 0x59 c f (State.issueCore c f (accstDec f) (accstRegs f) accstBody)) := rfl

theorem exec_accmv : exec (.accmv c f) s =
    .next (s.startOp 0x5A c f (State.issueCore c f (decodeCheck f 0x48 [(127, 33), (19, 16)]) [] accmvBody)) := rfl

theorem exec_gwset : exec (.gwset c f) s = .next (s.startOp 0x48 c f
    (State.issueCore c f (decodeCheck f 0x48 [(127, 68)]) [fld f 19 16, fld f 23 20] gwsetBody)) := rfl

theorem exec_gwait : exec (.gwait c f) s =
    .next (s.startOp 0x49 c f (State.issueCore c f (decodeCheck f 0x48 [(127, 20)]) [fld f 19 16] gwaitBody)) := rfl

theorem exec_conv : exec (.conv c f) s = .next (s.startOp 0xA0 c f (State.issueCore c f (convDec f) (convRegs f) convBody)) := rfl

end Arms

/-! ### The rows of a pass (R62, R65) -/

/-- Is a row group one of engine `e`? -/
def ofEngine (e : Nat) (g : List RowSrc) : Bool := match g with | r :: _ => r.row / 4 == e | [] => false

/-- The fed row groups of engine `e`, in order. -/
def engineGroups (groups : List (List RowSrc)) (e : Nat) : List (List RowSrc) :=
  (groups.filter fun g => !g.isEmpty).filter (ofEngine e)

theorem packSlots_eq (groups : List (List RowSrc)) : packSlots groups =
    (List.range ((List.range 4).foldl (fun n e => max n (engineGroups groups e).length) 0)).map fun k =>
      (List.range 4).flatMap fun e => ((engineGroups groups e)[k]?).getD [] := rfl

theorem length_le_foldl_max {α : Type} (g : Nat → List α) {e : Nat} (he : e < 4) :
    (g e).length ≤ (List.range 4).foldl (fun n e => max n (g e).length) 0 := by
  have : e = 0 ∨ e = 1 ∨ e = 2 ∨ e = 3 := by omega
  rcases this with rfl | rfl | rfl | rfl <;> simp [List.range_succ]

theorem mem_engineGroups_of_mem {groups : List (List RowSrc)} {g : List RowSrc} {r : RowSrc} (hg : g ∈ groups) (hr : r ∈ g)
    (small : ∀ x ∈ g, x.row < 16) : ∃ e < 4, g ∈ engineGroups groups e := by
  cases g with
  | nil => cases hr
  | cons x g =>
    have := small x List.mem_cons_self
    exact ⟨x.row / 4, by omega, by simp [engineGroups, ofEngine, hg]⟩

/-- The slots of a pass feed the rows of the groups they are packed from, and no other. -/
theorem mem_packSlots {groups : List (List RowSrc)} {r : RowSrc} (small : ∀ g ∈ groups, ∀ x ∈ g, x.row < 16) :
    r ∈ (packSlots groups).flatten ↔ ∃ g ∈ groups, r ∈ g := by
  simp only [packSlots_eq, List.mem_flatten, List.mem_map, List.mem_range, exists_exists_and_eq_and, List.mem_flatMap]
  constructor
  · rintro ⟨k, -, e, -, hr⟩
    cases hg : (engineGroups groups e)[k]? with
    | none => simp [hg] at hr
    | some g =>
      have := List.mem_of_getElem? hg
      refine ⟨g, (List.mem_filter.mp (List.mem_filter.mp this).1).1, by simpa [hg] using hr⟩
  · rintro ⟨g, hg, hr⟩
    obtain ⟨e, he, hge⟩ := mem_engineGroups_of_mem hg hr (small g hg)
    obtain ⟨k, hk, rfl⟩ := List.mem_iff_getElem.mp hge
    exact ⟨k, hk.trans_le (length_le_foldl_max _ he), e, he, by simpa [hk] using hr⟩

/-- Row `k` of an MMA, fed to tile `t` (R62). -/
def mmaRow (s : State) (c : Nat) (f : Frame) (a : Fmt) (kp t k : Nat) : RowSrc :=
  rowSrc a (k % 16) t (gloc (areg s c f 39 36) + k * areg s c f 43 40) (gloc (areg s c f 51 48) + k * 8) kp

/-- The rows of an MMA that its mask names among those of block `j` and engine `e`. -/
def mmaGroup (s : State) (c : Nat) (f : Frame) (a : Fmt) (rows mask kp t j e : Nat) : List RowSrc :=
  ((List.range 4).map fun m => 16 * j + 4 * e + m).filterMap fun r =>
    if r < rows && mask.testBit r then some (mmaRow s c f a kp t r) else none

/-- The mask of an MMA (R64). -/
def mmaMask (s : State) (c : Nat) (f : Frame) : Nat := if bitOf f 29 then areg s c f 47 44 else 2 ^ 64 - 1

/-- The tile that row block `j` of pass `p` of an MMA belongs to. -/
def mmaTile (f : Frame) (groups p j : Nat) : Nat := if groups = 4 then fld f 35 32 + j else fld f 35 32 + p

/-- Pass `p` of an MMA. -/
def mmaSpec (s : State) (c : Nat) (f : Frame) (a : Fmt) (rows groups mask kp p : Nat) : PassSpec :=
  ⟨packSlots ((List.range groups).flatMap fun j => (List.range 4).map fun e =>
    mmaGroup s c f a rows mask kp (mmaTile f groups p j) j e), a, !bitOf f 28, kp, p, 0⟩

theorem mem_mmaGroup {s : State} {c : Nat} {f : Frame} {a : Fmt} {rows mask kp t j e : Nat} {r : RowSrc} :
    r ∈ mmaGroup s c f a rows mask kp t j e ↔
      ∃ m < 4, 16 * j + 4 * e + m < rows ∧ mask.testBit (16 * j + 4 * e + m) = true ∧
        r = mmaRow s c f a kp t (16 * j + 4 * e + m) := by
  simp only [mmaGroup, List.mem_filterMap, List.mem_map, List.mem_range, exists_exists_and_eq_and, Option.ite_none_right_eq_some,
    Bool.and_eq_true, decide_eq_true_eq, Option.some.injEq, and_assoc, eq_comm (a := r)]

theorem rows_le_of_shape {code rows np groups : Nat} (h : shapeOf code = some (rows, np, groups)) :
    rows ≤ 16 * groups ∧ 1 ≤ np := by
  unfold shapeOf at h
  split at h <;> simp at h <;> omega

/-- A pass of an MMA feeds the rows its mask names (R62, R64). -/
theorem mem_mmaSpec {s : State} {c : Nat} {f : Frame} {a : Fmt} {rows groups mask kp p : Nat} {r : RowSrc}
    (fit : rows ≤ 16 * groups) : r ∈ (mmaSpec s c f a rows groups mask kp p).slots.flatten ↔
      ∃ k, k < rows ∧ mask.testBit k = true ∧ r = mmaRow s c f a kp (mmaTile f groups p (k / 16)) k := by
  rw [mmaSpec, mem_packSlots]
  · constructor
    · intro h
      simp only [List.mem_flatMap, List.mem_map, List.mem_range] at h
      obtain ⟨g, ⟨j, -, e, he, rfl⟩, hr⟩ := h
      obtain ⟨m, hm, hk, hbit, rfl⟩ := mem_mmaGroup.mp hr
      have : (16 * j + 4 * e + m) / 16 = j := by omega
      exact ⟨_, hk, hbit, by rw [this]⟩
    · rintro ⟨k, hk, hbit, rfl⟩
      have e : 16 * (k / 16) + 4 * (k % 16 / 4) + k % 4 = k := by omega
      refine ⟨_, List.mem_flatMap.mpr ⟨k / 16, List.mem_range.mpr (by omega), List.mem_map.mpr
        ⟨k % 16 / 4, List.mem_range.mpr (by omega), rfl⟩⟩, mem_mmaGroup.mpr ⟨k % 4, by omega, ?_⟩⟩
      rw [e]
      exact ⟨hk, hbit, rfl⟩
  · intro g hg x hx
    simp only [List.mem_flatMap, List.mem_map, List.mem_range] at hg
    obtain ⟨j, -, e, -, rfl⟩ := hg
    obtain ⟨m, -, -, -, rfl⟩ := mem_mmaGroup.mp hx
    exact Nat.mod_lt _ (by decide)

/-! ### What each instruction's meaning comes to -/

section Bodies

variable {s : State} {c : Nat} {f : Frame}

/-- An instruction that finds room enters the matrix queue, which acts as far as it can. -/
def entered (s : State) (c : Nat) (f : Frame) (kind : MKind) (foot : Foot) : IRes :=
  .done (State.runMatrix 10 (s.enqueue (s.ins c f) kind foot).2 c)

theorem enter_of_room {n : Nat} {foot : Foot} (entries : s.entries c < 8)
    (room : ((s.inFlight c s.fresh).map fun g => g.spans.length).sum + n ≤ 32) (h : foot.spans.length ≤ n) (kind : MKind) :
    s.enter (s.ins c f) kind foot = entered s c f kind foot :=
  State.enter_room entries (State.boardFull_of_room room h)

/-- The panel load of a PLOAD (`b = false`) or TLOAD. -/
def newLoad (s : State) (c : Nat) (f : Frame) (b : Bool) (w : Fmt) (u : Nat) : PanelLoad :=
  ⟨u, 0, f, (s.ctx c).pc, w, fld f 28 20, fld f 32 30, b, gloc (areg s c f 39 36), areg s c f 43 40, gloc (areg s c f 47 44), none,
    s.cyc c, none, none, []⟩

theorem ploadBody_done {b : Bool} {w : Fmt} (hw : Fmt.ofCode (fld f 19 16) = some w) (panel : w.isPanel = true)
    (depth : 1 ≤ fld f 28 20 ∧ fld f 28 20 ≤ w.kMax)
    (base : areg s c f 39 36 % 16 = 0) (stride : areg s c f 43 40 % 16 = 0) (scale : w.isMx = true → areg s c f 47 44 % 8 = 0)
    (rows : s.rowsFault c (areg s c f 39 36) (areg s c f 43 40) (if b then fld f 28 20 else fld f 32 30)
      (((if b then fld f 32 30 else fld f 28 20) * w.bits + 7) / 8) 0x43 1 = none)
    (scales : w.isMx = true → s.rowsFault c (areg s c f 47 44) 8 (fld f 32 30) ((fld f 28 20 + 31) / 32) 0x43 1 = none)
    (queue : (s.mx c).queued.length < 4) (decs : (s.mx c).decs = [])
    (board : s.boardFull (s.ins c f) (newLoad s c f b w 0).foot = false)
    (free : s.conflict (s.ins c f) (newLoad s c f b w 0).foot = false) (att : s.attAhead c s.fresh = false) :
    ploadBody b (s.ins c f) s = .done (State.modMx { s with fresh := s.fresh + 1 } c fun m => { m with
      loads := m.loads ++ [newLoad s c f b w s.fresh] }) := by
  simp only [ploadBody, State.ins_f, hw]
  refine (orFault_of_none ?checks _ _).trans (if_neg ?free)
  case checks =>
    rw [firstFault_eq_none]
    simp only [List.forall_mem_cons, need_eq_none, aligned_eq_none, ite_eq_right_iff, Bool.and_eq_true]
    exact ⟨panel, ⟨decide_eq_true depth.1, decide_eq_true depth.2⟩, base, stride, scale, rows, scales, nofun⟩
  case free =>
    have hq : ¬ 4 ≤ (s.mx c).queued.length := Nat.not_le.mpr queue
    simp only [newLoad] at board free
    simp [hq, decs, board, free, att]

theorem mmaBody_done {a : Fmt} {rows np groups kp : Nat} (ha : Fmt.ofCode (fld f 23 20) = some a)
    (hshape : shapeOf (fld f 27 24) = some (rows, np, groups)) (hnp : np ≤ (s.untaken c).length)
    (hkp : (s.unclaimed c).head?.map (·.kp) = some kp)
    (tiles : fld f 35 32 + (if groups = 4 then 4 else np) ≤ 16)
    (base : areg s c f 39 36 % 16 = 0) (stride : areg s c f 43 40 % 16 = 0) (scale : a.isMx = true → areg s c f 51 48 % 8 = 0)
    (own : ∀ r, r < rows → (mmaMask s c f).testBit r = true →
      s.ownFault c (areg s c f 39 36 + r * areg s c f 43 40) ((kp * a.bits + 7) / 8) 0x43 1 = none ∧
      (a.isMx = true → s.ownFault c (areg s c f 51 48 + r * 8) ((kp + 31) / 32) 0x43 1 = none))
    (entries : s.entries c < 8) (room : ((s.inFlight c s.fresh).map fun g => g.spans.length).sum + 2 ≤ 32) :
    ∃ foot, mmaBody (s.ins c f) s =
      entered s c f (.passes (fld f 31 30) ((List.range np).map (mmaSpec s c f a rows groups (mmaMask s c f) kp)) false) foot := by
  obtain ⟨l, rest, hl, rfl⟩ : ∃ l rest, s.unclaimed c = l :: rest ∧ l.kp = kp := by
    cases h : s.unclaimed c with
    | nil => simp [h] at hkp
    | cons l rest => exact ⟨l, rest, rfl, by simpa [h] using hkp⟩
  obtain ⟨n, rfl⟩ : ∃ n, np = n + 1 := ⟨np - 1, by have := (rows_le_of_shape hshape).2; omega⟩
  simp only [mmaBody, State.ins_f, State.ins_c, ha, hshape, hl, List.take_succ_cons, -Nat.reducePow, -Nat.reduceSub]
  refine ⟨_, (orFault_of_none ?checks _ _).trans (enter_of_room entries room ?span _)⟩
  case checks =>
    rw [firstFault_eq_none]
    simp only [List.forall_mem_cons, need_eq_none, aligned_eq_none, ite_eq_right_iff,
      List.findSome?_eq_none_iff, List.mem_filter, List.mem_range, and_imp, -Nat.reducePow, -Nat.reduceSub]
    exact ⟨decide_eq_true tiles, decide_eq_true hnp, base, stride, scale, fun r hr hb => (own r hr hb).1,
      fun mx r hr hb => (own r hr hb).2 mx, nofun⟩
  case span =>
    rw [List.length_append]
    refine Nat.add_le_add (hull_length_le _) (?_ : _ ≤ 1)
    split
    · exact hull_length_le _
    · exact Nat.zero_le 1

theorem mmawgBody_done {w a : Fmt} (hw : Fmt.ofCode (fld f 19 16) = some w) (ha : Fmt.ofCode (fld f 23 20) = some a) {q : Plan}
    (hq : mmawgPlan (s.ins c f) s w a = q) (checks : firstFault q.checks = none) (entries : s.entries c < 8)
    (decs : (s.mx c).decs = []) (board : s.boardFull (s.ins c f) q.foot = false) (free : s.conflict (s.ins c f) q.foot = false)
    (att : s.attAhead c s.fresh = false) : mmawgBody (s.ins c f) s = .done (State.runMatrix 10
      (State.modMx (s.enqueue (s.ins c f) (.passes (fld f 31 30) q.todo true) q.foot).2 c fun m => { m with
        loads := m.loads ++ (q.loads s.fresh).flatten }) c) := by
  subst hq
  simp only [mmawgBody, State.ins_f, hw, ha]
  exact (orFault_of_none checks _ _).trans (if_neg (by simp [Nat.not_le.mpr entries, decs, board, free, att]))

/-- The mask of an ACCST (R73). -/
def accstMask (s : State) (c : Nat) (f : Frame) : Nat := if bitOf f 50 then areg s c f 49 46 % 65536 else 65535

/-- Where the rows that an ACCST writes begin. -/
def accstRows (s : State) (c : Nat) (f : Frame) : List Nat :=
  (List.range (fld f 29 26 + 1)).flatMap fun q => ((List.range 16).filter (accstMask s c f).testBit).map fun r =>
    areg s c f 33 30 + q * areg s c f 41 38 + r * areg s c f 37 34

theorem accstBody_done {o : Fmt} (ho : Fmt.ofCode (fld f 19 16) = some o) (out : o.isOut = true)
    (cols : 1 ≤ fld f 45 43 ∧ fld f 45 43 ≤ 4) (tiles : fld f 25 22 + (fld f 29 26 + 1) ≤ 16)
    (base : areg s c f 33 30 % 16 = 0) (row : areg s c f 37 34 % 16 = 0) (tile : areg s c f 41 38 % 16 = 0)
    (own : ∀ q r, q < fld f 29 26 + 1 → r < 16 → (accstMask s c f).testBit r = true → s.ownFault c
      (areg s c f 33 30 + q * areg s c f 41 38 + r * areg s c f 37 34) (fld f 45 43 * o.bytes) 0x43 1 = none)
    (entries : s.entries c < 8) (room : ((s.inFlight c s.fresh).map fun g => g.spans.length).sum + 1 ≤ 32) :
    accstBody (s.ins c f) s = entered s c f
      (.accst (fld f 21 20) (fld f 25 22) (fld f 29 26 + 1) (fld f 45 43) o (gloc (areg s c f 33 30)) (areg s c f 37 34)
        (areg s c f 41 38) (accstMask s c f) (bitOf f 42))
      ⟨hull ((accstRows s c f).flatMap fun a => rowSpan a 0 1 (fld f 45 43 * o.bytes) true), []⟩ := by
  simp only [accstBody, State.ins_f, ho]
  refine (orFault_of_none ?checks _ _).trans (enter_of_room entries room (hull_length_le _) _)
  rw [firstFault_eq_none]
  simp only [List.forall_mem_cons, need_eq_none, aligned_eq_none, Bool.and_eq_true, List.findSome?_eq_none_iff, List.mem_flatMap,
    List.mem_map, List.mem_filter, List.mem_range]
  refine ⟨out, ⟨⟨decide_eq_true cols.1, decide_eq_true cols.2⟩, decide_eq_true tiles⟩, base, row, tile, ?_, nofun⟩
  rintro - ⟨q, hq, r, ⟨hr, hb⟩, rfl⟩
  exact own q r hq hr hb

theorem accmvBody_done (even : fld f 31 26 % 2 = 0) (entries : s.entries c < 8)
    (room : ((s.inFlight c s.fresh).map fun g => g.spans.length).sum + 0 ≤ 32) : accmvBody (s.ins c f) s =
      entered s c f (.accmv (fld f 21 20) (fld f 25 22) (fld f 31 26) (bitOf f 32))
        ⟨[], [(fld f 31 26, true), (fld f 31 26 + 1, true)]⟩ := by
  refine (orFault_of_none ?checks _ _).trans (enter_of_room entries room (by exact Nat.le_refl 0) _)
  simp [firstFault_eq_none, even]

theorem gwsetBody_done (flags : fld f 35 24 ≤ 4080) (base : areg s c f 19 16 % 16 = 0) (stride : areg s c f 23 20 % 16 = 0)
    (own : ∀ k, k < 16 → (fld f 51 36).testBit k = true → s.ownFault c (areg s c f 19 16 + k * areg s c f 23 20) 1 0x43 1 = none)
    (entries : s.entries c < 8) (room : ((s.inFlight c s.fresh).map fun g => g.spans.length).sum + 0 ≤ 32) :
    gwsetBody (s.ins c f) s = entered s c f
      (.gwset (gloc (areg s c f 19 16)) (areg s c f 23 20) (fld f 51 36) (fld f 35 24) (fld f 67 52)) Foot.none := by
  refine (orFault_of_none ?checks _ _).trans (enter_of_room entries room (by exact Nat.le_refl 0) _)
  rw [firstFault_eq_none]
  simp only [List.forall_mem_cons, need_eq_none, aligned_eq_none, List.findSome?_eq_none_iff, List.mem_range, ite_eq_right_iff]
  exact ⟨decide_eq_true flags, base, stride, own, nofun⟩

theorem gwaitBody_done (entries : s.entries c < 8) : gwaitBody (s.ins c f) s = .done (State.runMatrix 10
    (State.modCtx (s.enqueue (s.ins c f) (.gwait (fld f 19 16)) Foot.none).2 c fun x => { x with
      pend := x.pend ++ [(fld f 19 16, s.fresh)] }) c) :=
  if_neg (Nat.not_le.mpr entries)

/-- CONV in the matrix queue: the setting of its outputs, its passes, and its tap decoder. -/
def convQueued (s : State) (c : Nat) (f : Frame) (d : List Byte) (wf : Fmt) (q : Plan) : State :=
  let bias := if fld f 51 50 = 2 then some (gloc (areg s c f 35 32)) else none
  let t := (s.enqueue (s.ins c f) (.convInit (fld f 49 48) (convRows (s.ins c f) s d) bias (wf == .int8)) q.foot).2
  let v := (t.enqueue (s.ins c f) (.passes (fld f 49 48) q.todo true) q.foot).2
  State.modMx v c fun m => { m with decs := m.decs ++ [⟨t.fresh, v.cyc c, [], q.loads t.fresh⟩] }

theorem convBody_done {wf xf : Fmt} {d : List Byte} {q : Plan} (align : areg s c f 19 16 % 16 = 0)
    (own : s.ownFault c (areg s c f 19 16) 64 0xA4 1 = none) (att : s.attAhead c s.fresh = false)
    (first : s.conflict (s.ins c f) ⟨[⟨gloc (areg s c f 19 16), gloc (areg s c f 19 16) + 64, false⟩], []⟩ = false)
    (clean : s.poisoned (gloc (areg s c f 19 16)) 64 = false) (hd : s.read (gloc (areg s c f 19 16)) 64 = d)
    (hq : convPlan (s.ins c f) s d wf xf = q) (sound : convDescFault d = none) (hw : Fmt.ofCode (rd d 0x13 1) = some wf)
    (hx : Fmt.ofCode (rd d 0xF 1) = some xf) (checks : firstFault q.checks = none) (entries : s.entries c < 8)
    (board : s.boardFull (s.ins c f) q.foot = false) (free : s.conflict (s.ins c f) q.foot = false) :
    convBody (s.ins c f) s = .done (State.runMatrix 10 (convQueued s c f d wf q) c) := by
  subst hq hd
  have desc : firstFault [need (areg s c f 19 16 % 16 == 0) 0xA5 1 (areg s c f 19 16),
      s.ownFault c (areg s c f 19 16) 64 0xA4 1] = none := by
    simp [firstFault_eq_none, align, own]
  simp only [convBody, State.ins_f, State.ins_c, State.ins_n, desc, att, first, clean, sound, hw, hx, Bool.or_self,
    Bool.false_eq_true, if_false]
  exact (orFault_of_none checks _ _).trans (if_neg (by simp [Nat.not_le.mpr entries, board, free]))

end Bodies

/-- Settles O59: each instruction's meaning completes with what it leaves in the matrix unit, and `State.startOp_done` is the rest of its
issue. What the passes of an MMA feed is `mem_mmaSpec`. -/
theorem matrixInstructionsEnterTheirQueue : Obligations.MatrixInstructionsEnterTheirQueue := by
  intro s c f ar own queued goes room
  refine ⟨fun b w hop R hd hw => ?load, fun a rows np groups kp hop R hd ha hshape => ?mma, fun w a hop R hd hw ha => ?mmawg,
    fun o hop R hd ho => ?accst, fun hop R hz even entries hroom => ?accmv, fun hop R hz fb base stride slots entries hroom => ?gwset,
    fun hop R hz entries => ?gwait, fun wf xf hop R hd align hown att first clean => ?conv⟩
  case load =>
    intro kp nc panel k1 k2 base stride scale rows scales queue decs l hroom free att
    rw [exec_pload_or_tload, State.startOp_done hop R hd (ploadBody_done hw panel ⟨k1, k2⟩ base stride scale rows scales queue decs
      (State.boardFull_of_room hroom (PanelLoad.foot_length_le _)) free att)]
    rfl
  case mma =>
    intro mask tile hnp hkp tiles base stride scale slots entries hroom
    obtain ⟨foot, done⟩ := mmaBody_done ha hshape hnp hkp tiles base stride scale slots entries hroom
    refine ⟨_, foot, ?len, by rw [exec_mma, State.startOp_done hop R hd done], fun p sp hsp => ?spec⟩
    case len => simp
    case spec =>
      obtain ⟨hp, rfl⟩ := List.getElem?_eq_some_iff.mp hsp
      rw [List.getElem_map, List.getElem_range]
      exact ⟨rfl, rfl, rfl, rfl, fun r => mem_mmaSpec (rows_le_of_shape hshape).1⟩
  case mmawg =>
    intro q checks entries decs board free att
    rw [exec_mmawg, State.startOp_done hop R hd (mmawgBody_done hw ha rfl checks entries decs board free att)]
  case accst =>
    intro n nc mask out c1 c4 tiles base row tile slots entries hroom rows
    rw [exec_accst, State.startOp_done hop R hd (accstBody_done ho out ⟨c1, c4⟩ tiles base row tile slots entries hroom)]
    rfl
  case accmv =>
    rw [exec_accmv, State.startOp_done hop R (decodeCheck_of_zero _ hz rfl) (accmvBody_done even entries hroom)]
  case gwset =>
    rw [exec_gwset, State.startOp_done hop R (decodeCheck_of_zero _ hz rfl) (gwsetBody_done fb base stride slots entries hroom)]
    rfl
  case gwait =>
    rw [exec_gwait, State.startOp_done hop R (decodeCheck_of_zero _ hz rfl) (gwaitBody_done entries)]
  case conv =>
    intro d q sound hw hx checks entries board free bias t v
    rw [exec_conv, State.startOp_done hop R hd
      (convBody_done align hown att first clean rfl rfl sound hw hx checks entries board free)]
    rfl

end Sys2Proof.Machine

/-! # The vector and row engines: saved memory, what their instructions write, and what they leave -/

namespace Sys2Proof.Machine

/-! ## A range saved and put back (R157, R160, R161) -/

section Restore

variable {α : Type}

theorem SMap.get?_of_above {k : Nat} {m : SMap α} (h : SMap.sorted m = true) (a : SMap.above k m = true) : SMap.get? m k = none := by
  induction m with
  | nil => rfl
  | cons p m ih =>
    obtain ⟨i, x⟩ := p
    rw [SMap.sorted_cons, Bool.and_eq_true] at h
    have hk : k < i := by simpa [SMap.above] using a
    rw [SMap.get?_cons, if_neg (by omega), ih h.2 (SMap.above_of_le k i m (by omega) h.1)]

theorem SMap.get?_filter (m : SMap α) (q : Nat → Bool) (k : Nat) :
    SMap.get? (m.filter fun p => q p.1) k = if q k then SMap.get? m k else none := by
  induction m with
  | nil => simp
  | cons p m ih =>
    obtain ⟨i, x⟩ := p
    rw [List.filter_cons, SMap.get?_cons]
    rcases eq_or_ne k i with rfl | hk
    · split <;> simp_all [SMap.get?_cons]
    · split <;> simp_all [SMap.get?_cons]

/-- Listing a sorted table's entries over another's: the first table's entry where it has one, else the other's. -/
theorem SMap.get?_foldl_put (l m : SMap α) (k : Nat) (h : SMap.sorted l = true) :
    SMap.get? (l.foldl (fun m p => SMap.put m p.1 p.2) m) k = (SMap.get? l k).or (SMap.get? m k) := by
  induction l generalizing m with
  | nil => rfl
  | cons p l ih =>
    obtain ⟨i, x⟩ := p
    rw [SMap.sorted_cons, Bool.and_eq_true] at h
    rw [List.foldl_cons, ih _ h.2, SMap.get?_cons]
    rcases eq_or_ne k i with rfl | hk
    · simp [SMap.get?_of_above h.2 h.1]
    · simp [hk]

/-- The entries of one table inside a range over those of another outside it. -/
theorem SMap.get?_restored (old new : SMap α) (lo hi k : Nat) (h : SMap.sorted old = true) :
    SMap.get? ((old.filter fun p => Memory.inside lo hi p.1).foldl (fun m p => SMap.put m p.1 p.2)
      (new.filter fun p => !Memory.inside lo hi p.1)) k = SMap.get? (if Memory.inside lo hi k then old else new) k := by
  rw [SMap.get?_foldl_put _ _ _ (SMap.sorted_filter _ _ h), SMap.get?_filter,
    SMap.get?_filter new fun a => !Memory.inside lo hi a]
  cases Memory.inside lo hi k <;> simp

namespace Memory

variable {old new : Memory} {lo hi : Nat}

/-- Outside the range that is kept, nothing is undefined. -/
theorem undefAt_clip_outside (m : Memory) {a : Nat} (h : inside lo hi a = false) : (m.clip lo hi).undefAt a = none := by
  refine find?_flatMap_none _ _ _ fun u => List.find?_eq_none.mpr fun v hv => ?_
  simp only [clipUndef, List.mem_filter, List.mem_singleton, decide_eq_true_eq] at hv
  obtain ⟨rfl, -⟩ := hv
  simp only [inside, Bool.and_eq_false_iff, decide_eq_false_iff_not] at h
  simp only [Bool.and_eq_true, decide_eq_true_eq]
  omega

/-- Memory `new` with the range put back that was saved of `old`. -/
def restored (old new : Memory) (lo hi : Nat) : Memory := (new.cut lo hi).join (old.clip lo hi)

theorem seed_restored (old new : Memory) (lo hi a : Nat) : ((restored old new lo hi).undefAt a).map (·.seed) =
    ((if inside lo hi a then old else new).undefAt a).map (·.seed) := by
  rw [restored, undefAt_join]
  cases h : inside lo hi a with
  | true => rw [undefAt_cut_inside _ _ _ _ h, Option.or_none, undefAt_clip_inside _ _ _ _ h, if_pos rfl]
  | false => rw [undefAt_clip_outside _ h, Option.none_or, undefAt_cut_outside _ _ _ _ h, if_neg Bool.false_ne_true]

theorem byte_restored (ho : old.wf = true) (a : Nat) :
    (restored old new lo hi).byte a = (if inside lo hi a then old else new).byte a := by
  obtain ⟨⟨sorted, -⟩, -⟩ := (wf_iff old).mp ho
  rw [byte, byte, dflt_of_seed a (seed_restored old new lo hi a), SMap.getD, SMap.getD, restored, join, cut, clip,
    SMap.get?_restored _ _ _ _ _ sorted, apply_ite cells]

theorem granPois_restored (ho : old.wf = true) (a : Nat) :
    (restored old new lo hi).granPois a = (if inside lo hi a then old else new).granPois a := by
  obtain ⟨-, sorted, -⟩ := (wf_iff old).mp ho
  rw [granPois, granPois, dfltPois_of_seed a (seed_restored old new lo hi a), SMap.getD, SMap.getD, restored, join, cut, clip,
    SMap.get?_restored _ _ _ _ _ sorted, apply_ite pois]

theorem wf_restored (ho : old.wf = true) (hn : new.wf = true) : (restored old new lo hi).wf = true := by
  have kept {α : Type} (l : SMap α) (p : Nat × α) (hp : p ∈ l.filter fun p => !inside lo hi p.1) :
      (old.clip lo hi).undefAt p.1 = none :=
    undefAt_clip_outside old (by simpa using (List.mem_filter.mp hp).2)
  have saved {α : Type} (l : SMap α) (p : Nat × α) (hp : p ∈ l.filter fun p => inside lo hi p.1) :
      (new.cut lo hi).undefAt p.1 = none :=
    undefAt_cut_inside new lo hi p.1 (List.mem_filter.mp hp).2
  exact wf_join _ _ (wf_cut new lo hi hn) (wf_clip old lo hi ho) (kept _) (fun p hp _ => saved _ p hp) (kept _)
    fun p hp _ => saved _ p hp

end Memory

end Restore

/-- Settles O58: the range's listing and seeds come from the saved memory, those outside from the other (`Memory.restored`). -/
theorem savedMemoryReturnsUnchanged : Obligations.SavedMemoryReturnsUnchanged := by
  intro old new lo hi ho hn back
  refine ⟨Memory.wf_restored ho hn, fun a => ?_⟩
  have hb : back.byte a = _ := Memory.byte_restored ho a
  have hp : back.granPois a = _ := Memory.granPois_restored ho a
  rw [hb, hp]
  refine ⟨fun h => ?inside, fun h => ?outside⟩
  case inside =>
    have hin : Memory.inside lo hi a = true := by simpa [Memory.inside] using h
    simp [hin]
  case outside =>
    have hout : Memory.inside lo hi a = false := by
      simp only [Memory.inside, Bool.and_eq_false_iff, decide_eq_false_iff_not]
      omega
    simp [hout]

end Sys2Proof.Machine

/-! ## What an instruction of these engines writes (R120, R125, R143)

An instruction of the vector or row engine leaves its core's context but for vector registers, records and the arithmetic status word,
and all memory but the ranges of its outputs. -/

namespace Sys2Proof.Machine

/-- Context `y` comes from `x` by writes to vector registers in `V`, records in `R` and the arithmetic status word. -/
structure Ctx.Within (V R : Set Nat) (x y : Ctx) : Prop where
  rest : y = { x with v := y.v, side := y.side, sidePois := y.sidePois, astat := y.astat }
  vecs : V = ∅ → y.v = x.v
  regs : ∀ r ∉ V, y.getV r = x.getV r
  recs : R = ∅ → y.side = x.side
  side : ∀ k ∉ R, SMap.getD y.side k 0 = SMap.getD x.side k 0

namespace Ctx.Within

variable {V R : Set Nat} {x y z : Ctx}

theorem refl (V R : Set Nat) (x : Ctx) : Within V R x x := ⟨rfl, fun _ => rfl, fun _ _ => rfl, fun _ => rfl, fun _ _ => rfl⟩

theorem trans (h : Within V R x y) (g : Within V R y z) : Within V R x z where
  rest := by rw [g.rest, h.rest]
  vecs e := (g.vecs e).trans (h.vecs e)
  regs r hr := (g.regs r hr).trans (h.regs r hr)
  recs e := (g.recs e).trans (h.recs e)
  side k hk := (g.side k hk).trans (h.side k hk)

theorem sticky (h : Within V R x y) (bits : W32) : Within V R x (y.sticky bits) :=
  h.trans ⟨rfl, fun _ => rfl, fun _ _ => rfl, fun _ => rfl, fun _ _ => rfl⟩

theorem setV (h : Within V R x y) {r : Nat} (hr : r ∈ V) (w : BitVec 1024) : Within V R x (y.setV r w) := h.trans
  { rest := rfl
    vecs e := absurd (e ▸ hr) (Set.notMem_empty r)
    regs _ hk := Ctx.getV_setV_other _ _ _ _ fun e => hk (e ▸ hr)
    recs _ := rfl
    side _ _ := rfl }

theorem setSide (h : Within V R x y) {n : Nat} (hn : n ∈ R) (w : BitVec 128) : Within V R x (y.setSide n w) := h.trans
  { rest := rfl
    vecs _ := rfl
    regs _ _ := rfl
    recs e := absurd (e ▸ hn) (Set.notMem_empty n)
    side _ hk := SMap.getD_setD_other _ _ _ _ _ _ fun e => hk (e ▸ hn) }

theorem foldl {α : Type} {l : List α} {g : Ctx → α → Ctx} (h : Within V R x y)
    (hg : ∀ z ∈ l, ∀ y, Within V R x y → Within V R x (g y z)) : Within V R x (l.foldl g y) := by
  induction l generalizing y with
  | nil => exact h
  | cons z l ih => exact ih (hg z List.mem_cons_self y h) fun w hw => hg w (List.mem_cons_of_mem z hw)

/-- Element codes go to the registers that hold their places. -/
theorem putElems {v bits : Nat} {codes : List Nat} (h : Within V R x y) (hv : ∀ k < codes.length, v + k * bits / 1024 ∈ V) :
    Within V R x (putElems y v bits codes) :=
  h.foldl fun z hz _ hy => hy.setV (hv z.2 (List.snd_lt_of_mem_zipIdx hz)) _

/-- Consecutive records from `k` on take values one by one. -/
theorem setSides {α : Type} {qs : List α} {k : Nat} (h : Within V R x y) (hk : ∀ i < qs.length, k + i ∈ R) (g : α → BitVec 128) :
    Within V R x (qs.zipIdx.foldl (fun (x : Ctx) (q : α × Nat) => x.setSide (k + q.2) (g q.1)) y) :=
  h.foldl fun q hq _ hy => hy.setSide (hk q.2 (List.snd_lt_of_mem_zipIdx hq)) _

end Ctx.Within

/-- Place `k` of elements of `bits` bits lies in the registers that `n` elements of `w` bits take. -/
theorem reg_of_elem_lt (v : Nat) {k n bits w : Nat} (hk : k < n) (hb : bits ≤ w) (hw : 0 < w) :
    v ≤ v + k * bits / 1024 ∧ v + k * bits / 1024 < v + (n * w + 1023) / 1024 := by
  have := Nat.mul_le_mul_left k hb
  have := Nat.mul_lt_mul_of_pos_right hk hw
  omega

/-! ### Own stores (R310) -/

namespace State

variable {s t : State} {a n lo hi : Nat}

theorem inRegion_of_regions (h : t.regions = s.regions) (a n : Nat) : t.inRegion a n = s.inRegion a n := by
  rw [inRegion, inRegion, h]

/-- A part of a range that touches no open region touches none. -/
theorem inRegion_part {b m : Nat} (h : s.inRegion a n = false) (hlo : a ≤ b) (hhi : b + m ≤ a + n) : s.inRegion b m = false := by
  simp only [inRegion, List.any_eq_false, meet, Bool.or_eq_true, Bool.and_eq_true, decide_eq_true_eq] at h ⊢
  intro r hr hm
  refine h r hr ?_
  omega

theorem spoil_of_not_inRegion (h : s.inRegion a n = false) : s.spoil a n = s := by
  have none : s.regions.filter (fun r => meet a n r.2.base (16 * r.2.count) || meet a n r.2.shadow (8 * r.2.count)) = [] :=
    List.filter_eq_nil_iff.mpr (List.any_eq_false.mp h)
  rw [spoil, none, List.foldl_nil]

theorem spoil_frame (s : State) (a n : Nat) : ∃ m k r, s.spoil a n = { s with mem := m, fresh := k, regions := r } := by
  unfold spoil
  generalize s.regions.filter _ = l
  induction l generalizing s with
  | nil => exact ⟨_, _, _, rfl⟩
  | cons r l ih =>
    obtain ⟨m, k, rs, h⟩ := ih { s.forget r.2.base (r.2.base + 16 * r.2.count) with
      regions := SMap.put s.regions r.1 { r.2 with elems := [] } }
    exact ⟨m, k, rs, h⟩

theorem ownStore_frame (s : State) (a : Nat) (bs : List Byte) :
    ∃ m k r, s.ownStore a bs = { s with mem := m, fresh := k, regions := r } := by
  obtain ⟨m, k, r, h⟩ := spoil_frame (s.store a bs) a bs.length
  exact ⟨m, k, r, h⟩

@[simp] theorem ownStore_cores (s : State) (a : Nat) (bs : List Byte) : (s.ownStore a bs).cores = s.cores := by
  obtain ⟨m, k, r, h⟩ := ownStore_frame s a bs
  rw [h]

@[simp] theorem ownStore_core (s : State) (a : Nat) (bs : List Byte) (c : Nat) : (s.ownStore a bs).core c = s.core c := by
  rw [core, ownStore_cores, core]

@[simp] theorem ownStore_ctx (s : State) (a : Nat) (bs : List Byte) (c : Nat) : (s.ownStore a bs).ctx c = s.ctx c := by
  rw [ctx, ownStore_core, ctx]

theorem ownStore_of_not_inRegion {bs : List Byte} (h : s.inRegion a bs.length = false) : s.ownStore a bs = s.store a bs :=
  spoil_of_not_inRegion ((inRegion_of_regions (store_regions s a bs false) a bs.length).trans h)

/-! ### Writes of a core -/

/-- State `u` comes from `s` by writes of core `c` to its vector registers in `V`, its records in `R`, its arithmetic status word, and the
ranges of memory in `A`; where these touch no open region, the regions stay too. -/
structure Writes (c : Nat) (A : Set (Nat × Nat)) (V R : Set Nat) (s u : State) : Prop where
  rest : u = { s with cores := u.cores, mem := u.mem, fresh := u.fresh, regions := u.regions }
  others : ∀ k, k ≠ c → u.core k = s.core k
  ctx : Ctx.Within V R (s.ctx c) (u.ctx c)
  mem : (∀ p ∈ A, s.inRegion p.1 p.2 = false) → u.regions = s.regions ∧
    ∀ b, (∀ p ∈ A, b < p.1 ∨ p.1 + p.2 ≤ b) → u.mem.byte b = s.mem.byte b

namespace Writes

variable {c : Nat} {A : Set (Nat × Nat)} {V R : Set Nat} {u : State}

theorem refl (c : Nat) (A : Set (Nat × Nat)) (V R : Set Nat) (s : State) : Writes c A V R s s :=
  ⟨rfl, fun _ _ => rfl, .refl V R _, fun _ => ⟨rfl, fun _ _ => rfl⟩⟩

theorem trans (h : Writes c A V R s t) (g : Writes c A V R t u) : Writes c A V R s u where
  rest := by rw [g.rest, h.rest]
  others k hk := (g.others k hk).trans (h.others k hk)
  ctx := h.ctx.trans g.ctx
  mem free := by
    obtain ⟨hr, hb⟩ := h.mem free
    obtain ⟨gr, gb⟩ := g.mem fun p hp => (inRegion_of_regions hr p.1 p.2).trans (free p hp)
    exact ⟨gr.trans hr, fun b out => (gb b out).trans (hb b out)⟩

theorem modCtx {g : Ctx → Ctx} (h : Writes c A V R s t) (hg : Ctx.Within V R (t.ctx c) (g (t.ctx c))) :
    Writes c A V R s (t.modCtx c g) := h.trans
  { rest := rfl
    others _ hk := core_modCtx_other _ _ _ _ hk
    ctx := by rwa [ctx_modCtx_same]
    mem _ := ⟨rfl, fun _ _ => rfl⟩ }

theorem setFlags (h : Writes c A V R s t) (bits : W32) : Writes c A V R s (t.setFlags c bits) :=
  h.modCtx ((Ctx.Within.refl V R _).sticky bits)

theorem fresh (h : Writes c A V R s t) (n : Nat) : Writes c A V R s { t with fresh := n } :=
  h.trans ⟨rfl, fun _ _ => rfl, .refl V R _, fun _ => ⟨rfl, fun _ _ => rfl⟩⟩

/-- A store into one of the ranges. -/
theorem ownStore (h : Writes c A V R s t) {bs : List Byte} {p : Nat × Nat} (hp : p ∈ A) (hlo : p.1 ≤ a)
    (hhi : a + bs.length ≤ p.1 + p.2) : Writes c A V R s (t.ownStore a bs) := h.trans
  { rest := by
      obtain ⟨m, k, r, h⟩ := ownStore_frame t a bs
      rw [h]
    others k _ := ownStore_core t a bs k
    ctx := by
      rw [ownStore_ctx]
      exact .refl V R _
    mem free := by
      rw [ownStore_of_not_inRegion (inRegion_part (free p hp) hlo hhi)]
      refine ⟨rfl, fun b out => Memory.byte_store_outside _ _ _ _ _ ?_⟩
      have := out p hp
      omega }

/-- Forgetting a part of one of the ranges (R125, R155). -/
theorem forget (h : Writes c A V R s t) {p : Nat × Nat} (hp : p ∈ A) (hlo : p.1 ≤ lo) (hhi : hi ≤ p.1 + p.2) :
    Writes c A V R s (t.forget lo hi) := h.trans
  { rest := rfl
    others _ _ := rfl
    ctx := .refl V R _
    mem _ := by
      refine ⟨rfl, fun b out => Memory.byte_forget_outside _ _ _ _ _ ?_⟩
      have := out p hp
      omega }

theorem foldl {α : Type} {l : List α} {g : State → α → State} (h : Writes c A V R s t)
    (hg : ∀ y ∈ l, ∀ u, Writes c A V R s u → Writes c A V R s (g u y)) : Writes c A V R s (l.foldl g t) := by
  induction l generalizing t with
  | nil => exact h
  | cons y l ih => exact ih (hg y List.mem_cons_self t h) fun z hz => hg z (List.mem_cons_of_mem y hz)

theorem iterate {n : Nat} {g : Nat → State → State} (h : Writes c A V R s t)
    (hg : ∀ k < n, ∀ u, Writes c A V R s u → Writes c A V R s (g k u)) : Writes c A V R s (iterate n t g) :=
  h.foldl fun k hk u => hg k (List.mem_range.mp hk) u

/-- The fields of its core's context that no such instruction writes. -/
theorem kept (h : Writes c A V R s u) : (u.ctx c).a = (s.ctx c).a ∧ (u.ctx c).l = (s.ctx c).l ∧ (u.ctx c).p = (s.ctx c).p ∧
    (u.ctx c).pc = (s.ctx c).pc ∧ (u.ctx c).flags = (s.ctx c).flags ∧ (u.ctx c).mx = (s.ctx c).mx ∧ (u.ctx c).uops = (s.ctx c).uops := by
  rw [h.ctx.rest]
  exact ⟨rfl, rfl, rfl, rfl, rfl, rfl, rfl⟩

end Writes

@[simp] theorem freeCodes_length (s : State) (n bits : Nat) : (s.freeCodes n bits).1.length = n := by simp [freeCodes]

end State

end Sys2Proof.Machine

/-! ## Bytes and numbers (R4) -/

namespace Sys2Proof.Machine

@[simp] theorem length_le_bytes (n v : Nat) : (le n v).length = n := by
  induction n generalizing v with
  | zero => rfl
  | succ n ih => rw [le, List.length_cons, ih]

/-- Bytes spell the number they were taken from, as far as they reach. -/
theorem leNat_le (n v : Nat) : leNat (le n v) = v % 256 ^ n := by
  induction n generalizing v with
  | zero => rw [le, leNat, pow_zero, Nat.mod_one]
  | succ n ih => rw [le, leNat, ih, BitVec.toNat_ofNat, Nat.pow_succ' (n := n), Nat.mod_mul (a := 256)]

theorem leNat_lt (bs : List Byte) : leNat bs < 256 ^ bs.length := by
  induction bs with
  | nil => exact Nat.one_pos
  | cons b bs ih =>
    have := b.isLt
    rw [leNat, List.length_cons, pow_succ']
    omega

@[simp] theorem length_read (m : Memory) (a n : Nat) : (m.read a n).length = n := by simp [Memory.read]

/-- `w` bits hold the `n` bytes read when as many fit. -/
theorem toNat_ofNat_read (m : Memory) (a n : Nat) {w : Nat} (h : 256 ^ n ≤ 2 ^ w) :
    (BitVec.ofNat w (leNat (m.read a n))).toNat = leNat (m.read a n) := by
  rw [BitVec.toNat_ofNat, Nat.mod_eq_of_lt (lt_of_lt_of_le (leNat_lt _) ((length_read m a n).symm ▸ h))]

/-- A part of the bytes read is what reading that part gives. -/
theorem Memory.take_drop_read (m : Memory) (a : Nat) {n off k : Nat} (h : off + k ≤ n) :
    ((m.read a n).drop off).take k = m.read (a + off) k := by
  apply List.ext_getElem
  · simp only [List.length_take, List.length_drop, length_read]
    omega
  · intro i h1 h2
    simp [Memory.read, Nat.add_assoc]

theorem rd_read (m : Memory) (a : Nat) {n off k : Nat} (h : off + k ≤ n) : rd (m.read a n) off k = leNat (m.read (a + off) k) := by
  rw [rd, m.take_drop_read a h]

/-- Reading inside a store gives that part of the bytes stored. -/
theorem Memory.read_store_part (m : Memory) (a : Nat) (bs : List Byte) {off k : Nat} (h : off + k ≤ bs.length) :
    (m.store a bs).read (a + off) k = (bs.drop off).take k := by
  apply List.ext_getElem
  · simp only [List.length_take, List.length_drop, length_read]
    omega
  · intro i h1 h2
    have hi : off + i < bs.length := by
      rw [length_read] at h1
      omega
    simp [Memory.read, Nat.add_assoc, byte_store_inside m a (off + i) bs false hi]

theorem length_flatMap_of_forall {α β : Type} {g : α → List β} {n : Nat} {l : List α} (h : ∀ x ∈ l, (g x).length = n) :
    (l.flatMap g).length = l.length * n := by
  rw [List.length_flatMap, List.map_congr_left h, List.map_const', List.sum_replicate, smul_eq_mul]

/-- Piece `k` of equal pieces laid one behind another. -/
theorem take_drop_flatMap {α β : Type} {g : α → List β} {n : Nat} (h : ∀ x, (g x).length = n) {l : List α} {k : Nat} {x : α}
    (hx : l[k]? = some x) : ((l.flatMap g).drop (n * k)).take n = g x := by
  induction l generalizing k with
  | nil => cases hx
  | cons y l ih =>
    rw [List.flatMap_cons]
    cases k with
    | zero =>
      obtain rfl : y = x := by simpa using hx
      rw [Nat.mul_zero, List.drop_zero, List.take_left' (h y)]
    | succ k =>
      rw [Nat.mul_succ, Nat.add_comm, ← List.drop_drop, List.drop_left' (h y)]
      exact ih (by simpa using hx)

/-! ## What computations with flags answer (R106, R153) -/

/-- Whatever the flags before, the computation's result has the property. -/
def Fl.Yields {α : Type} (P : α → Prop) (m : Fl α) : Prop := ∀ b : W32, P (m.run b).1

namespace Fl.Yields

variable {α β : Type} {P : β → Prop}

theorem pure {x : β} (h : P x) : Yields P (pure x : Fl β) := fun _ => h

theorem bind {Q : α → Prop} {m : Fl α} {f : α → Fl β} (h : Yields Q m) (g : ∀ x, Q x → Yields P (f x)) : Yields P (m >>= f) :=
  fun b => g _ (h b) _

/-- The result of one run. -/
theorem of_run {m : Fl β} {x : β} {b b' : W32} (h : Yields P m) (e : m.run b = (x, b')) : P x := by
  have := h b
  rwa [e] at this

/-- A step whose result does not matter. -/
theorem step {m : Fl α} {f : α → Fl β} (g : ∀ x, Yields P (f x)) : Yields P (m >>= f) := fun _ => g _ _

theorem mapM {P : α → β → Prop} {g : α → Fl β} {l : List α} (h : ∀ x ∈ l, Yields (P x) (g x)) :
    Yields (List.Forall₂ P l) (l.mapM g) := by
  induction l with
  | nil => exact .pure .nil
  | cons x l ih =>
    rw [List.mapM_cons]
    refine .bind (h x List.mem_cons_self) fun y hy => .bind (ih fun z hz => h z (List.mem_cons_of_mem x hz)) fun ys hys => ?_
    exact .pure (.cons hy hys)

theorem mapM_length (g : α → Fl β) (l : List α) : Yields (fun ys => ys.length = l.length) (l.mapM g) :=
  fun b => (mapM (P := fun _ _ => True) (fun _ _ _ => trivial) b).length_eq.symm

theorem mapM_all {g : α → Fl β} {l : List α} (h : ∀ x ∈ l, Yields P (g x)) : Yields (fun ys => ∀ y ∈ ys, P y) (l.mapM g) :=
  fun b => by
    have hf : List.Forall₂ (fun _ => P) l _ := mapM h b
    generalize (StateT.run (l.mapM g) b).1 = ys at hf ⊢
    induction hf with
    | nil => exact fun y hy => absurd hy List.not_mem_nil
    | cons hy _ ih => exact List.forall_mem_cons.mpr ⟨hy, ih fun x hx => h x (List.mem_cons_of_mem _ hx)⟩

theorem flatMapM_all {g : α → Fl (List β)} {l : List α} (h : ∀ x ∈ l, Yields (fun ys => ∀ y ∈ ys, P y) (g x)) :
    Yields (fun ys => ∀ y ∈ ys, P y) (l.flatMapM g) := by
  induction l with
  | nil => exact .pure fun y hy => absurd hy List.not_mem_nil
  | cons x l ih =>
    rw [List.flatMapM_cons]
    refine .bind (h x List.mem_cons_self) fun y hy => .bind (ih fun z hz => h z (List.mem_cons_of_mem x hz)) fun ys hys => ?_
    exact .pure fun z hz => (List.mem_append.mp hz).elim (hy z) (hys z)

end Fl.Yields

end Sys2Proof.Machine

/-! ## Issue of the vector and row instructions (R120, R135, R143, R155) -/

namespace Sys2Proof.Machine

namespace State

variable {s : State} {c : Nat} {f : Frame}

/-- An instruction that a ready core takes and whose meaning faults. -/
theorem startOp_fault {t : State} {x : FaultInfo} {op : Nat} {dec : Option FaultInfo} {regs : List Nat} {body : Ins → State → IRes}
    (hop : opcode f = op) (R : Ready s c f regs) (hd : dec = none) (h : body (s.ins c f) s = .fault t x) :
    s.startOp op c f (issueCore c f dec regs body) = t.fault c (s.ctx c).pc f x := by
  rw [startOp_ready R op hop, hd, issueCore_fault R h]

/-- A vector or row instruction that a ready core takes and that nothing stops. -/
theorem startOp_clear {v : VOp} {op : Nat} {dec : Option FaultInfo} {regs : List Nat} {body : Ins → State → IRes}
    (hop : opcode f = op) (R : Ready s c f regs) (hd : dec = none) (hb : body (s.ins c f) s = v.run (s.ins c f) s)
    (C : v.Clear (s.ins c f) s) : s.startOp op c f (issueCore c f dec regs body) = s.pass (v.act s) c :=
  startOp_done hop R hd (hb.trans (VOp.run_clear C))

theorem byte_freeRange_outside (s : State) (c : Nat) {a n b : Nat} (h : b < a ∨ a + n ≤ b) :
    (s.freeRange c a n).mem.byte b = s.mem.byte b := by
  unfold freeRange
  split
  · exact Memory.byte_forget_outside _ _ _ _ _ h
  · rfl

@[simp] theorem freeSide_mem (s : State) (c : Nat) (rs : List Nat) : (s.freeSide c rs).mem = s.mem := rfl

end State

theorem VOp.run_unsound {v : VOp} {i : Ins} {s : State} {x : FaultInfo} (h : firstFault v.checks = some x) :
    v.run i s = v.stop i s x := by
  rw [VOp.run, h]

/-! ## SMST and SMLD (R145) -/

section SideMemory

variable {s : State} {c : Nat} {f : Frame}

theorem exec_smst_fault {t : State} {x : FaultInfo} (hop : opcode f = 0x8C) (R : Ready s c f [fld f 43 40, fld f 39 36])
    (hz : Zero f [(127, 44), (23, 16)]) (h : smBody false (s.ins c f) s = .fault t x) :
    exec (.smst c f) s = .next (t.fault c (s.ctx c).pc f x) :=
  congrArg Host.Outcome.next (State.startOp_fault hop R (decodeCheck_of_zero 0x68 hz rfl) h)

theorem exec_smst_clear (hop : opcode f = 0x8C) (R : Ready s c f [fld f 43 40, fld f 39 36]) (hz : Zero f [(127, 44), (23, 16)])
    (C : (smstOp (s.ins c f) s).Clear (s.ins c f) s) : exec (.smst c f) s = .next (s.pass ((smstOp (s.ins c f) s).act s) c) :=
  congrArg Host.Outcome.next (State.startOp_clear (body := smBody false) hop R (decodeCheck_of_zero 0x68 hz rfl) rfl C)

theorem exec_smld_done {t : State} (hop : opcode f = 0x8D) (R : Ready s c f [fld f 43 40, fld f 39 36])
    (hz : Zero f [(127, 44), (23, 16)]) (h : smBody true (s.ins c f) s = .done t) : exec (.smld c f) s = .next (s.pass t c) :=
  congrArg Host.Outcome.next (State.startOp_done hop R (decodeCheck_of_zero 0x68 hz rfl) h)

/-- A faulting SMST stores nothing: at most its own bytes are not defined (R155). -/
theorem smst_fault {x : FaultInfo} (h : firstFault (smstOp (s.ins c f) s).checks = some x) :
    ∃ t, smBody false (s.ins c f) s = .fault t x ∧ BytesOutside s t (gloc (areg s c f 43 40)) (16 * (fld f 35 24 + 1)) :=
  ⟨_, VOp.run_unsound h, fun b hb => (congrArg (·.byte b) (State.freeSide_mem _ _ _)).trans (State.byte_freeRange_outside s c hb)⟩

theorem smst_checks : (smstOp (s.ins c f) s).checks = [need (areg s c f 43 40 % 16 == 0) 0x64 3 (areg s c f 43 40),
    s.ownFault c (areg s c f 43 40) (16 * (fld f 35 24 + 1)) 0x63 3, recsOk (areg s c f 39 36) (fld f 35 24 + 1)] := rfl

theorem smst_unaligned (h : areg s c f 43 40 % 16 ≠ 0) :
    firstFault (smstOp (s.ins c f) s).checks = some (faultOf 0x64 3 (areg s c f 43 40)) := by
  have align : need (areg s c f 43 40 % 16 == 0) 0x64 3 (areg s c f 43 40) = some (faultOf 0x64 3 (areg s c f 43 40)) :=
    if_neg (by simpa using h)
  rw [smst_checks, align]
  rfl

theorem smst_past (align : areg s c f 43 40 % 16 = 0)
    (own : s.ownFault c (areg s c f 43 40) (16 * (fld f 35 24 + 1)) 0x63 3 = none)
    (h : 4096 < areg s c f 39 36 + (fld f 35 24 + 1)) : firstFault (smstOp (s.ins c f) s).checks = some (faultOf 0x66 3) := by
  have recs : recsOk (areg s c f 39 36) (fld f 35 24 + 1) = some (faultOf 0x66 3) := if_neg (by simpa using h)
  rw [smst_checks, need_eq_none.mpr (beq_iff_eq.mpr align), own, recs]
  rfl

/-- The bytes of `n` records from `k` on. -/
def recBytes (x : Ctx) (k n : Nat) : List Byte := (List.range n).flatMap fun i => le 16 (SMap.getD x.side (k + i) 0).toNat

theorem length_recBytes (x : Ctx) (k n : Nat) : (recBytes x k n).length = 16 * n := by
  rw [recBytes, length_flatMap_of_forall fun _ _ => length_le_bytes 16 _, List.length_range, Nat.mul_comm]

theorem leNat_recBytes (x : Ctx) (k : Nat) {n i : Nat} (hi : i < n) :
    leNat (((recBytes x k n).drop (16 * i)).take 16) = (SMap.getD x.side (k + i) 0).toNat := by
  rw [recBytes, take_drop_flatMap (fun _ => length_le_bytes 16 _) (List.getElem?_range hi), leNat_le]
  exact Nat.mod_eq_of_lt (BitVec.isLt _)

theorem fld_count_le (f : Frame) : fld f 35 24 + 1 ≤ 4096 := Nat.mod_lt _ (by decide)

theorem recsBad_eq_none {k n : Nat} (hn : n ≤ 4096) (clean : ∀ i, i < 2 * n → SMap.getD (s.ctx c).sidePois (2 * k + i) false = false) :
    recsBad s c k n = none := by
  unfold recsBad
  rw [Nat.min_eq_left hn, if_neg]
  simpa using clean

theorem smst_clear (align : areg s c f 43 40 % 16 = 0)
    (own : s.ownFault c (areg s c f 43 40) (16 * (fld f 35 24 + 1)) 0x63 3 = none)
    (recs : areg s c f 39 36 + (fld f 35 24 + 1) ≤ 4096)
    (starts : Starts s (s.ins c f) 30
      ⟨[⟨gloc (areg s c f 43 40), gloc (areg s c f 43 40) + 16 * (fld f 35 24 + 1), true⟩], []⟩)
    (open' : s.frozenFault 3 [(gloc (areg s c f 43 40), 16 * (fld f 35 24 + 1))] = none)
    (clean : ∀ k, k < 2 * (fld f 35 24 + 1) → SMap.getD (s.ctx c).sidePois (2 * areg s c f 39 36 + k) false = false) :
    (smstOp (s.ins c f) s).Clear (s.ins c f) s where
  sound := by
    rw [smst_checks, need_eq_none.mpr (beq_iff_eq.mpr align), own, recsOk, need_eq_none.mpr (decide_eq_true recs)]
    rfl
  late := rfl
  free := starts
  clean := recsBad_eq_none (fld_count_le f) clean
  open' := by
    have outs : (smstOp (s.ins c f) s).foot.outs = [(gloc (areg s c f 43 40), 16 * (fld f 35 24 + 1))] := by
      simp [smstOp, Foot.outs, areg]
    rwa [outs]

end SideMemory

end Sys2Proof.Machine

namespace Sys2Proof.Machine

section SideLoad

variable {s : State} {c : Nat} {f : Frame}

/-- Consecutive records from `k` on take values one by one. -/
def loadRecs (x : Ctx) (k : Nat) (vs : List (BitVec 128)) : Ctx :=
  vs.zipIdx.foldl (fun (x : Ctx) (y : BitVec 128 × Nat) => x.setSide (k + y.2) y.1) x

theorem loadRecs_within (x : Ctx) (k : Nat) (vs : List (BitVec 128)) :
    Ctx.Within ∅ {r | k ≤ r ∧ r < k + vs.length} x (loadRecs x k vs) :=
  (Ctx.Within.refl _ {r | k ≤ r ∧ r < k + vs.length} x).setSides
    (fun i hi => ⟨Nat.le_add_right k i, Nat.add_lt_add_left hi k⟩) id

theorem side_foldl_setSide (vs : List (BitVec 128)) (k m i : Nat) {v : BitVec 128} (hv : vs[i]? = some v) (x : Ctx) :
    SMap.getD ((vs.zipIdx m).foldl (fun (x : Ctx) (y : BitVec 128 × Nat) => x.setSide (k + y.2) y.1) x).side (k + (m + i)) 0 = v := by
  induction vs generalizing m i x with
  | nil => cases hv
  | cons w vs ih =>
    rw [List.zipIdx_cons, List.foldl_cons]
    cases i with
    | zero =>
      obtain rfl : w = v := by simpa using hv
      have later : Ctx.Within ∅ {r | k + m < r} (x.setSide (k + m) w)
          ((vs.zipIdx (m + 1)).foldl (fun (x : Ctx) (y : BitVec 128 × Nat) => x.setSide (k + y.2) y.1) (x.setSide (k + m) w)) :=
        (Ctx.Within.refl _ _ _).foldl fun y hy _ h => h.setSide (Nat.add_lt_add_left (List.le_snd_of_mem_zipIdx hy) k) _
      exact (later.side (k + m) (Nat.lt_irrefl _)).trans (SMap.getD_setD_same ..)
    | succ i =>
      have := ih (m + 1) i (by simpa using hv) (x.setSide (k + m) w)
      rwa [Nat.add_assoc m, Nat.add_comm 1] at this

theorem side_loadRecs (x : Ctx) (k : Nat) {vs : List (BitVec 128)} {i : Nat} {v : BitVec 128} (hv : vs[i]? = some v) :
    SMap.getD (loadRecs x k vs).side (k + i) 0 = v := by
  have := side_foldl_setSide vs k 0 i hv x
  rwa [Nat.zero_add] at this

/-- The records that an SMLD reads. -/
def readRecs (s : State) (a n : Nat) : List (BitVec 128) :=
  (List.range n).map fun k => BitVec.ofNat 128 (leNat (s.mem.read (a + 16 * k) 16))

@[simp] theorem length_readRecs (s : State) (a n : Nat) : (readRecs s a n).length = n := by simp [readRecs]

theorem readRecs_getElem? (s : State) (a : Nat) {k n : Nat} (hk : k < n) :
    (readRecs s a n)[k]? = some (BitVec.ofNat 128 (leNat (s.mem.read (a + 16 * k) 16))) := by
  simp [readRecs, hk]

theorem smldBody_done (align : areg s c f 43 40 % 16 = 0)
    (own : s.ownFault c (areg s c f 43 40) (16 * (fld f 35 24 + 1)) 0x63 3 = none)
    (recs : areg s c f 39 36 + (fld f 35 24 + 1) ≤ 4096)
    (starts : Starts s (s.ins c f) 30
      ⟨[⟨gloc (areg s c f 43 40), gloc (areg s c f 43 40) + 16 * (fld f 35 24 + 1), false⟩], []⟩)
    (clean : s.poisoned (gloc (areg s c f 43 40)) (16 * (fld f 35 24 + 1)) = false)
    (kinds : ∀ k, k < fld f 35 24 + 1 → leNat (s.mem.read (gloc (areg s c f 43 40) + 16 * k) 16) / 2 ^ 124 ≤ 5) :
    smBody true (s.ins c f) s = .done (s.modCtx c fun x =>
      loadRecs x (areg s c f 39 36) (readRecs s (gloc (areg s c f 43 40)) (fld f 35 24 + 1))) := by
  have checks : firstFault [need (areg s c f 43 40 % 16 == 0) 0x64 3 (areg s c f 43 40),
      s.ownFault c (areg s c f 43 40) (16 * (fld f 35 24 + 1)) 0x63 3, recsOk (areg s c f 39 36) (fld f 35 24 + 1)] = none := by
    simp [firstFault_eq_none, align, own, recsOk, recs]
  have good : (readRecs s (gloc (areg s c f 43 40)) (fld f 35 24 + 1)).takeWhile (fun v => decide (fld v 127 124 ≤ 5)) =
      readRecs s (gloc (areg s c f 43 40)) (fld f 35 24 + 1) := by
    rw [List.takeWhile_eq_self_iff]
    simp only [readRecs, List.mem_map, List.mem_range, decide_eq_true_eq]
    rintro - ⟨k, hk, rfl⟩
    rw [fld, toNat_ofNat_read _ _ _ (by norm_num)]
    exact (Nat.mod_le _ _).trans (kinds k hk)
  unfold smBody
  dsimp only
  rw [if_pos rfl]
  split
  next x h => exact absurd (h.symm.trans checks) (Option.some_ne_none x)
  next =>
    refine (State.admit_clear _ _ starts).trans ((if_neg (Bool.not_eq_true _ ▸ clean)).trans ((if_pos ?_).trans ?_))
    · exact (congrArg List.length good).trans (length_readRecs ..)
    · exact congrArg (fun l => IRes.done (s.modCtx c fun x => loadRecs x (areg s c f 39 36) l)) good

end SideLoad

/-! ## RSTAT and RFIN (R150, R151) -/

section Statistics

variable {s : State} {c : Nat} {f : Frame}

theorem exec_rstat_clear (hop : opcode f = 0x88) (R : Ready s c f [fld f 47 44]) (hd : rstatDec f = none)
    (C : (rstatOp (s.ins c f) s).Clear (s.ins c f) s) : exec (.rstat c f) s = .next (s.pass ((rstatOp (s.ins c f) s).act s) c) :=
  congrArg Host.Outcome.next (State.startOp_clear (body := rstatBody) hop R hd rfl C)

theorem exec_rfin_clear (hop : opcode f = 0x89) (R : Ready s c f [fld f 31 28]) (hz : Zero f [(127, 32), (21, 20)])
    (C : (rfinOp (s.ins c f) s).Clear (s.ins c f) s) : exec (.rfin c f) s = .next (s.pass ((rfinOp (s.ins c f) s).act s) c) :=
  congrArg Host.Outcome.next (State.startOp_clear (body := rfinBody) hop R (decodeCheck_of_zero 0x68 hz rfl) rfl C)

/-- RSTAT on a row answers as many values as the row has scores. -/
theorem rstatRow_length (r : Rec) (sc : List XF) : Fl.Yields (fun q => q.2.2.length = sc.length) (rstatRow r sc) := by
  unfold rstatRow
  dsimp only
  split
  · exact .step fun al => .bind (.mapM_length _ sc) fun p hp => .step fun _ => .step fun _ => .step fun _ => .pure hp
  · exact .step fun al => .bind (.mapM_length _ sc) fun p hp => .step fun _ => .step fun _ => .step fun _ => .pure hp

theorem fld_rows_le (f : Frame) : fld f 19 16 + 1 ≤ 16 := Nat.mod_lt _ (by decide)

/-- Sixteen 32-bit elements or fewer lie in one register. -/
theorem reg_of_row (f : Frame) (v : Nat) {k : Nat} (hk : k < fld f 19 16 + 1) : v + k * 32 / 1024 = v := by
  have := fld_rows_le f
  omega

/-- RSTAT writes the registers of its scores, the register of its factors, and its records. -/
theorem rstat_act (sound : firstFault (rstatOp (s.ins c f) s).checks = none) :
    ∃ g, (rstatOp (s.ins c f) s).act s = s.modCtx c g ∧ Ctx.Within
    {r | r = fld f 37 32 ∨ fld f 43 38 ≤ r ∧ r < fld f 43 38 + ((fld f 19 16 + 1) * (fld f 31 26 + 1) * 32 + 1023) / 1024}
    {k | areg s c f 47 44 ≤ k ∧ k < areg s c f 47 44 + (fld f 19 16 + 1)} (s.ctx c) (g (s.ctx c)) := by
  have bits : ((Fmt.ofCode (fld f 23 20)).getD .fp32).bits ≤ 32 := by
    have h := need_eq_none.mp (firstFault_eq_none.mp sound _ List.mem_cons_self)
    simp only [State.ins_f, Bool.or_eq_true, beq_iff_eq] at h
    rcases h with h | h <;> rw [h] <;> decide
  unfold rstatOp
  dsimp only
  split
  next rs fl run =>
    have hn : rs.length = fld f 19 16 + 1 := ((Fl.Yields.mapM_length _ _).of_run run).trans List.length_range
    have hp : ∀ q ∈ rs, q.2.2.length = fld f 31 26 + 1 :=
      (Fl.Yields.mapM_all fun r _ b => (rstatRow_length _ _ b).trans (by simp)).of_run run
    refine ⟨_, rfl, .sticky (.setSides (.putElems (.putElems (.refl ..) ?values) ?factors) ?records
      fun q : Rec × XF × List XF => q.1.toBits) _⟩
    case values =>
      intro k hk
      rw [List.length_map, length_flatMap_of_forall fun q hq => (List.length_map _).trans (hp q hq), hn] at hk
      exact .inr (reg_of_elem_lt _ hk bits (by decide))
    case factors =>
      intro k hk
      rw [List.length_map, hn] at hk
      exact .inl (reg_of_row f _ hk)
    case records => exact fun i hi => ⟨Nat.le_add_right _ i, Nat.add_lt_add_left (hn ▸ hi) _⟩

/-- RFIN writes one register and its records. -/
theorem rfin_act : ∃ g, (rfinOp (s.ins c f) s).act s = s.modCtx c g ∧ Ctx.Within {fld f 27 22}
    {k | areg s c f 31 28 ≤ k ∧ k < areg s c f 31 28 + (fld f 19 16 + 1)} (s.ctx c) (g (s.ctx c)) := by
  unfold rfinOp
  dsimp only
  split
  next rs fl run =>
    have hn : rs.length = fld f 19 16 + 1 := ((Fl.Yields.mapM_length _ _).of_run run).trans List.length_range
    refine ⟨_, rfl, .sticky (.setSides (.putElems (.refl ..) ?values) ?records fun q : Rec × XF => q.1.toBits) _⟩
    case values =>
      intro k hk
      rw [List.length_map, hn] at hk
      exact reg_of_row f _ hk
    case records => exact fun i hi => ⟨Nat.le_add_right _ i, Nat.add_lt_add_left (hn ▸ hi) _⟩

end Statistics

/-- Settles O36: SMST and SMLD by their bytes and records (`leNat_recBytes`, `side_loadRecs`), RSTAT and RFIN by what they write. -/
theorem recordsAreStoredLoadedAndFinished : Obligations.RecordsAreStoredLoadedAndFinished := by
  intro s c f g sx n row core
  have only {V R g'} (h : Ctx.Within V R (s.ctx c) (g' (s.ctx c))) :
      core (s.modCtx c g') ∧ Ctx.Within V R (s.ctx c) ((s.modCtx c g').ctx c) := by
    have W : State.Writes c ∅ V R s (s.modCtx c g') := (State.Writes.refl ..).modCtx h
    exact ⟨⟨rfl, W.others, W.kept⟩, W.ctx⟩
  refine ⟨fun hop R hz => ⟨fun align => ?unaligned, fun align own => ⟨fun past => ?past, fun recs starts open' clean => ?store⟩⟩,
    fun hop R hz align own recs starts clean kinds => ?load, fun hop R hd C => ?rstat, fun hop R hz C => ?rfin⟩
  case unaligned =>
    obtain ⟨t, body, out⟩ := smst_fault (smst_unaligned align)
    exact ⟨t, exec_smst_fault hop R hz body, out⟩
  case past =>
    obtain ⟨t, body, out⟩ := smst_fault (smst_past align own past)
    exact ⟨t, exec_smst_fault hop R hz body, out⟩
  case store =>
    refine ⟨s.ownStore (gloc g) (recBytes (s.ctx c) sx n), exec_smst_clear hop R hz (smst_clear align own recs starts open' clean), fun free => ?_⟩
    have len := length_recBytes (s.ctx c) sx n
    rw [State.ownStore_of_not_inRegion (len ▸ free)]
    refine ⟨⟨rfl, fun _ _ => rfl, rfl, rfl, rfl, rfl, rfl, rfl, rfl⟩, rfl, fun b hb => ?_, fun k hk => ?_⟩
    · exact Memory.byte_store_outside _ _ _ _ _ (len ▸ hb)
    · rw [State.store, Memory.read_store_part s.mem (gloc g) _ (by omega), leNat_recBytes _ _ hk]
  case load =>
    obtain ⟨hcore, W⟩ := only (g' := fun x => loadRecs x sx (readRecs s (gloc g) n)) (loadRecs_within (s.ctx c) sx _)
    refine ⟨_, exec_smld_done hop R hz (smldBody_done align own recs starts clean kinds), hcore, rfl, W.vecs rfl,
      fun k hk => ?_, fun k hk => W.side k ?_⟩
    · rw [State.ctx_modCtx_same]
      exact (congrArg BitVec.toNat (side_loadRecs (s.ctx c) sx (readRecs_getElem? s (gloc g) hk))).trans (toNat_ofNat_read _ _ _ (by norm_num))
    · rw [length_readRecs]
      rintro ⟨h1, h2⟩
      omega
  case rstat =>
    obtain ⟨g', act, h⟩ := rstat_act C.sound
    obtain ⟨hcore, W⟩ := only h
    refine ⟨s.modCtx c g', act ▸ exec_rstat_clear hop R hd C, hcore, rfl, fun k hk => W.side k ?_, fun r hr hv => W.regs r ?_⟩
    · rintro ⟨h1, h2⟩
      have : k < areg s c f 47 44 ∨ areg s c f 47 44 + fld f 19 16 + 1 ≤ k := hk
      omega
    · rintro (h | ⟨h1, h2⟩)
      · exact hr h
      · omega
  case rfin =>
    obtain ⟨g', act, h⟩ := rfin_act (s := s) (c := c) (f := f)
    obtain ⟨hcore, W⟩ := only h
    refine ⟨s.modCtx c g', act ▸ exec_rfin_clear hop R hz C, hcore, rfl, fun k hk => W.side k ?_, fun r hr => W.regs r hr⟩
    rintro ⟨h1, h2⟩
    have : k < areg s c f 31 28 ∨ areg s c f 31 28 + fld f 19 16 + 1 ≤ k := hk
    omega

end Sys2Proof.Machine

/-! ## Outputs of the engines: operands, rows and pairs (R122 to R125, R137 to R138, R147) -/

namespace Sys2Proof.Machine

/-- The format a field names. -/
def fmtOf (f : Frame) (hi lo : Nat) : Fmt := (Fmt.ofCode (fld f hi lo)).getD .fp32

theorem Fmt.bits_pos (w : Fmt) : 0 < w.bits := by cases w <;> decide

/-- Whole bytes hold elements without padding. -/
theorem length_bytes_of_bits {bits : Nat} (n : Nat) (h : bits % 8 = 0) : n * (bits / 8) = (n * bits + 7) / 8 := by
  obtain ⟨q, rfl⟩ := Nat.dvd_of_mod_eq_zero h
  have e : n * (8 * q) = 8 * (n * q) := Nat.mul_left_comm n 8 q
  rw [e, Nat.mul_div_cancel_left q (by decide)]
  omega

theorem length_packCodes (bits : Nat) (codes : List Nat) : (packCodes bits codes).length = (codes.length * bits + 7) / 8 := by
  unfold packCodes
  split
  next h => rw [length_flatMap_of_forall fun _ _ => length_le_bytes _ _, length_bytes_of_bits _ h]
  next => exact length_le_bytes _ _

theorem length_pairBytes (p : Pair) : (pairBytes p).length = 8 := by simp [pairBytes]

@[simp] theorem length_mxQuant (w : Fmt) (vs : List XF) : (mxQuant w vs).2.length = vs.length := by
  unfold mxQuant
  split
  · simp
  · split <;> simp

/-- Quantising block by block keeps the number of elements. -/
theorem length_mxQuant_blocks (w : Fmt) (xs : List XF) (k : Nat) :
    ((List.range k).flatMap fun j => (mxQuant w ((xs.drop (32 * j)).take 32)).2).length = min (32 * k) xs.length := by
  induction k with
  | zero => simp
  | succ k ih =>
    rw [List.range_succ, List.flatMap_append, List.length_append, ih, List.flatMap_singleton, length_mxQuant, List.length_take,
      List.length_drop]
    omega

/-- The first `k` ranges of a numbered family. -/
def Spans (k : Nat) (spans : Nat → Nat × Nat) : Set (Nat × Nat) := {p | ∃ i < k, spans i = p}

theorem mem_spans {k i : Nat} {spans : Nat → Nat × Nat} (h : i < k) : spans i ∈ Spans k spans := ⟨i, h, rfl⟩

namespace State.Writes

variable {s t u : State} {c : Nat} {A : Set (Nat × Nat)} {V R : Set Nat}

theorem only_spans {k : Nat} {spans : Nat → Nat × Nat} (h : Writes c (Spans k spans) V R s u)
    (free : ∀ i, i < k → s.inRegion (spans i).1 (spans i).2 = false) : u.regions = s.regions ∧
    ∀ b, (∀ i, i < k → b < (spans i).1 ∨ (spans i).1 + (spans i).2 ≤ b) → u.mem.byte b = s.mem.byte b := by
  obtain ⟨regions, bytes⟩ := h.mem (by rintro _ ⟨i, hi, rfl⟩; exact free i hi)
  exact ⟨regions, fun b out => bytes b (by rintro _ ⟨i, hi, rfl⟩; exact out i hi)⟩

/-- Element codes go to the bytes of an output in memory, or to the registers of one in registers. -/
theorem put (h : Writes c A V R s t) (o : Opnd) {codes : List Nat}
    (hmem : o.mem = true → ∃ p ∈ A, p.1 ≤ o.loc ∧ o.loc + codes.length * o.fmt.bytes ≤ p.1 + p.2)
    (hreg : o.mem = false → ∀ k < codes.length, o.loc + k * o.fmt.bits / 1024 ∈ V) : Writes c A V R s (o.put t c codes) := by
  unfold Opnd.put
  split
  next hm =>
    obtain ⟨p, hp, hlo, hhi⟩ := hmem hm
    exact h.ownStore hp hlo (by rwa [length_flatMap_of_forall fun _ _ => length_le_bytes _ _])
  next hm => exact h.modCtx ((Ctx.Within.refl ..).putElems (hreg (Bool.not_eq_true _ ▸ hm)))

theorem putRow (h : Writes c A V R s t) (r : Rows) (clash : Bool) (i : Nat) {vs : List XF} {p : Nat × Nat} (hp : p ∈ A)
    (hlo : p.1 ≤ r.at i 0) (hhi : r.at i 0 + vs.length * r.fmt.bytes ≤ p.1 + p.2) : Writes c A V R s (r.put t c clash i vs) := by
  unfold Rows.put
  cases clash with
  | true =>
    refine ((h.fresh _).ownStore hp hlo ?_).setFlags _
    rwa [length_flatMap_of_forall fun _ _ => length_le_bytes _ _, List.length_map, List.length_range, List.length_map]
  | false =>
    refine (h.ownStore hp hlo ?_).setFlags _
    rwa [length_flatMap_of_forall fun _ _ => length_le_bytes _ _, List.length_map, List.length_map]

theorem addPair (h : Writes c A V R s t) {a : Nat} (x : XF) {p : Nat × Nat} (hp : p ∈ A) (hlo : p.1 ≤ a)
    (hhi : a + 8 ≤ p.1 + p.2) : Writes c A V R s (addPair t c a x) := by
  unfold Machine.addPair
  exact (h.ownStore hp hlo (by rwa [length_pairBytes])).setFlags _

end State.Writes

/-! ## VLD, VST and VRED (R137, R138) -/

section Moves

variable {s : State} {c : Nat} {f : Frame}

/-- The element count of VLD and VST. -/
def moveCount (s : State) (c : Nat) (f : Frame) : Nat := count s c (bitOf f 37) (fld f 36 24) (fld f 27 24)

/-- VLD writes the registers its elements take. -/
theorem vld_writes : State.Writes c ∅
    {r | fld f 51 46 ≤ r ∧ r < fld f 51 46 + (moveCount s c f * (fmtOf f 41 38).bits + 1023) / 1024} ∅ s
    ((vmoveOp true (s.ins c f) s).act s) := by
  unfold vmoveOp
  dsimp only
  rw [if_pos rfl]
  refine .setFlags (.put ?_ _ (fun h => absurd h Bool.false_ne_true) fun _ k hk => ?_) _
  · split
    · exact (State.Writes.refl ..).fresh _
    · exact .refl ..
  · rw [List.length_map, List.length_map, List.length_range] at hk
    exact reg_of_elem_lt _ (lt_of_lt_of_le hk (Nat.min_le_left _ _)) le_rfl (Fmt.bits_pos _)

theorem vld_mem : ((vmoveOp true (s.ins c f) s).act s).mem = s.mem := by
  unfold vmoveOp
  dsimp only
  rw [if_pos rfl]
  split <;> rfl

/-- The ranges that VST stores: its elements, and the scales of MX formats. -/
def vstOut (s : State) (c : Nat) (f : Frame) (i : Nat) : Nat × Nat :=
  if i = 0 then (gloc (areg s c f 55 52), (moveCount s c f * (fmtOf f 45 42).bits + 7) / 8)
  else if (fmtOf f 45 42).isMx then (gloc (areg s c f 59 56), (moveCount s c f + 31) / 32) else (0, 0)

theorem vst_writes : State.Writes c (Spans 2 (vstOut s c f)) ∅ ∅ s ((vmoveOp false (s.ins c f) s).act s) := by
  have count_le : min (moveCount s c f) 8192 ≤ moveCount s c f := Nat.min_le_left _ _
  have elems : vstOut s c f 0 = (gloc (areg s c f 55 52), (moveCount s c f * (fmtOf f 45 42).bits + 7) / 8) := rfl
  have bits_le := Nat.mul_le_mul_right (fmtOf f 45 42).bits count_le
  unfold vmoveOp
  dsimp only
  rw [if_neg Bool.false_ne_true]
  split
  next mx =>
    have scales : vstOut s c f 1 = (gloc (areg s c f 59 56), (moveCount s c f + 31) / 32) := if_pos mx
    refine ((State.Writes.refl ..).ownStore (mem_spans (by decide : 0 < 2)) (elems ▸ le_rfl) ?elems).ownStore
      (mem_spans (by decide : 1 < 2)) (scales ▸ le_rfl) ?scales
    case elems =>
      rw [elems, length_packCodes, List.flatMap_map, length_mxQuant_blocks, List.length_map, List.length_range, Nat.min_eq_right (by omega)]
      exact Nat.add_le_add_left (Nat.div_le_div_right (Nat.add_le_add_right bits_le 7)) _
    case scales =>
      rw [scales, List.length_map, List.length_map, List.length_range]
      exact Nat.add_le_add_left (Nat.div_le_div_right (Nat.add_le_add_right count_le 31)) _
  next mx =>
    refine ((State.Writes.refl ..).ownStore (mem_spans (by decide : 0 < 2)) (elems ▸ le_rfl) ?elems).setFlags _
    case elems =>
      have whole : (fmtOf f 45 42).bits % 8 = 0 := by
        change ¬ (fmtOf f 45 42).isMx = true at mx
        revert mx
        cases fmtOf f 45 42 <;> decide
      rw [elems, length_flatMap_of_forall fun _ _ => length_le_bytes _ _, List.length_map, List.length_map, List.length_range]
      refine Nat.add_le_add_left ((length_bytes_of_bits _ whole).le.trans ?_) _
      exact Nat.div_le_div_right (Nat.add_le_add_right bits_le 7)

/-- VRED stores the eight bytes of its pair. -/
theorem vred_writes : State.Writes c (Spans 1 fun _ => (gloc (areg s c f 59 56), 8)) ∅ ∅ s ((vredOp (s.ins c f) s).act s) := by
  unfold vredOp
  dsimp only
  split
  next p bits run =>
    have out := mem_spans (spans := fun _ => (gloc (areg s c f 59 56), 8)) Nat.one_pos
    split
    next =>
      refine (((State.Writes.refl ..).fresh _).ownStore out le_rfl ?_).setFlags _
      rw [List.length_map, State.freeCodes_length]
    next => exact ((State.Writes.refl ..).ownStore out le_rfl (length_pairBytes p ▸ le_rfl)).setFlags _

/-! ## UPLOAD (R127) -/

/-- The micro-program of `n` words in the bytes that UPLOAD reads. -/
def progOf (bs : List Byte) (n : Nat) : UProg :=
  ⟨(List.range n).map fun k => BitVec.ofNat 32 (rd bs (4 * k) 4), (List.range 32).map fun k => BitVec.ofNat 32 (rd bs (0x80 + 4 * k) 4)⟩

theorem progOf_read (m : Memory) (a : Nat) {n : Nat} (hn : n ≤ 32) : progOf (m.read a 256) n =
    ⟨(List.range n).map fun k => BitVec.ofNat 32 (leNat (m.read (a + 4 * k) 4)),
     (List.range 32).map fun k => BitVec.ofNat 32 (leNat (m.read (a + 128 + 4 * k) 4))⟩ := by
  have word {k : Nat} (hk : k < 32) : rd (m.read a 256) (4 * k) 4 = leNat (m.read (a + 4 * k) 4) := rd_read m a (by omega)
  have const {k : Nat} (hk : k < 32) : rd (m.read a 256) (0x80 + 4 * k) 4 = leNat (m.read (a + 128 + 4 * k) 4) := by
    rw [rd_read m a (by omega), Nat.add_assoc]
  rw [progOf, List.map_congr_left fun k hk => congrArg _ (word (lt_of_lt_of_le (List.mem_range.mp hk) hn)),
    List.map_congr_left fun k hk => congrArg _ (const (List.mem_range.mp hk))]

theorem fld_ops_le (f : Frame) : fld f 28 24 + 1 ≤ 32 := Nat.mod_lt _ (by decide)

theorem uploadBody_done (align : areg s c f 19 16 % 16 = 0) (own : s.ownFault c (areg s c f 19 16) 256 0x63 2 = none)
    (starts : Starts s (s.ins c f) 21 ⟨[⟨gloc (areg s c f 19 16), gloc (areg s c f 19 16) + 256, false⟩], []⟩)
    (clean : s.poisoned (gloc (areg s c f 19 16)) 256 = false)
    (good : ∀ k, k < fld f 28 24 + 1 → (UWord.of (leNat (s.mem.read (gloc (areg s c f 19 16) + 4 * k) 4))).ok = true) :
    uploadBody (s.ins c f) s = .done (s.modCtx c fun x => { x with
      uops := SMap.put x.uops (fld f 23 20) (progOf (s.mem.read (gloc (areg s c f 19 16)) 256) (fld f 28 24 + 1)) }) := by
  have checks : firstFault [need (areg s c f 19 16 % 16 == 0) 0x64 2 (areg s c f 19 16),
      s.ownFault c (areg s c f 19 16) 256 0x63 2] = none := by
    simp [firstFault_eq_none, align, own]
  have ok : (progOf (s.mem.read (gloc (areg s c f 19 16)) 256) (fld f 28 24 + 1)).ops.all
      (fun w => (UWord.of w.toNat).ok) = true := by
    rw [progOf_read _ _ (fld_ops_le f)]
    simp only [List.all_map, List.all_eq_true, List.mem_range, Function.comp, toNat_ofNat_read s.mem _ 4 (w := 32) (by norm_num)]
    exact good
  unfold uploadBody
  dsimp only
  split
  next x h => exact absurd (h.symm.trans checks) (Option.some_ne_none x)
  next => exact (State.admit_clear _ _ starts).trans ((if_neg (Bool.not_eq_true _ ▸ clean)).trans (if_pos ok))

end Moves

end Sys2Proof.Machine

/-! ## Rows of results: NORMF, NORMB, SMAXF and SMAXB (R146 to R149) -/

namespace Sys2Proof.Machine

/-! ### How many elements a row's result has -/

/-- NORMF answers an element for each of the row. -/
theorem normRow_length (rms : Bool) (eps : XF) (xs : List XF) (gam bet : Nat → XF) :
    Fl.Yields (fun q => q.2.2.length = xs.length) (normRow rms eps xs gam bet) := by
  unfold normRow
  dsimp only
  split
  · refine .step fun q => .step fun t => .step fun ms => .step fun v => .step fun r => .bind (.mapM_length _ _) fun y hy => .pure ?_
    exact hy.trans List.length_zipIdx
  · refine .step fun t => .step fun mean => .bind (.mapM_length _ _) fun d hd => .step fun q => .step fun u => .step fun var =>
      .step fun v => .step fun r => .bind (.mapM_length _ _) fun y hy => .pure ?_
    exact (hy.trans List.length_zipIdx).trans hd

/-- NORMB answers at most an element, and at most a pair of addends, for each of the row. -/
theorem normBackRow_length (rms save : Bool) (mean r : XF) (xs dys : List XF) (gam : Nat → XF) :
    Fl.Yields (fun q => q.1.length ≤ xs.length ∧ q.2.length ≤ xs.length) (normBackRow rms save mean r xs dys gam) := by
  unfold normBackRow
  dsimp only
  refine .bind (.mapM_length _ xs) fun xh hxh => .step fun g => ?_
  have within {α β : Type} {ps : List α} {qs : List β} (h : qs.length = ps.length) (hp : ps.length ≤ xh.length) :
      qs.length ≤ xs.length := h.le.trans (hp.trans hxh.le)
  have zipped {α : Type} (l : List α) : (l.zip xh).length ≤ xh.length := List.length_zip.le.trans (Nat.min_le_right _ _)
  split
  all_goals
    refine .step fun a => .step fun q => .step fun t => .step fun b => .bind (.mapM_length _ _) fun dx hdx => ?_
    split
    · exact .bind (.mapM_length _ _) fun gs hgs => .pure ⟨within hdx (zipped g), within hgs (zipped dys)⟩
    · exact .pure ⟨within hdx (zipped g), Nat.zero_le _⟩

/-- SMAXB answers at most an element for each of the row. -/
theorem smaxBackRow_length (tau : XF) (ys : List (Option XF)) (dys : List XF) :
    Fl.Yields (fun q => q.length ≤ ys.length) (smaxBackRow tau ys dys) := by
  unfold smaxBackRow
  exact .step fun q => .step fun p b => (Fl.Yields.mapM_length _ _ b).le.trans (List.length_zip.le.trans (Nat.min_le_left _ _))

/-- SMAXF answers an element for each of the row. -/
theorem smaxRow_length (tau : XF) (xs : List (Option XF)) : Fl.Yields (fun q => q.2.2.2.length = xs.length) (smaxRow tau xs) := by
  unfold smaxRow
  refine .bind (.mapM_length _ xs) fun z hz => ?_
  dsimp only
  split
  · exact .step fun _ => .pure (List.length_map _)
  · split
    case' isTrue => refine .step fun _ => ?_
    all_goals
      refine .bind (.mapM_length _ z) fun e he => .step fun l => .step fun lg => .step fun lse => .bind (.mapM_length _ e) fun y hy => ?_
      exact .pure ((hy.trans he).trans hz)

/-! ### NORMF and NORMB -/

section Rows

variable {s : State} {c : Nat} {f : Frame}

@[simp] theorem length_row (s : State) (r : Rows) (i : Nat) : (r.row s i).length = r.len := by simp [Rows.row]

/-- Row `i` of a row instruction's results. -/
def rowOut (s : State) (c : Nat) (f : Frame) (i : Nat) : Nat × Nat :=
  (gloc (areg s c f 63 60) + i * areg s c f 75 72, areg s c f 79 76 * (fmtOf f 51 48).bytes)

/-- Gradient pairs of NORMF and NORMB: one of each kind for an element, or for an element of a group (R147). -/
def gradCount (s : State) (c : Nat) (f : Frame) : Nat :=
  if fld f 43 42 = 2 then areg s c f 95 92 / 2 ^ 32 % 2 ^ 32 * (areg s c f 79 76 / max (areg s c f 95 92 % 2 ^ 32) 1)
  else areg s c f 79 76

/-- The ranges that NORMF and NORMB store: their rows and, with gradients, the gradient area. -/
def normOut (s : State) (c : Nat) (f : Frame) (b : Bool) (i : Nat) : Nat × Nat :=
  if i < areg s c f 83 80 then rowOut s c f i
  else if b && bitOf f 39 then (gloc (areg s c f 91 88), 16 * gradCount s c f) else (0, 0)

/-- The pair that element `k` of row `r` adds to. -/
def gradIdx (s : State) (c : Nat) (f : Frame) (r k : Nat) : Nat :=
  if fld f 43 42 = 2 then
    r % (areg s c f 95 92 / 2 ^ 32 % 2 ^ 32) * (areg s c f 79 76 / (areg s c f 95 92 % 2 ^ 32)) + k / (areg s c f 95 92 % 2 ^ 32)
  else k

/-- What the shape check of NORMF and NORMB says (R146). -/
theorem norm_shape (h : firstFault (normShape (s.ins c f) s) = none) : areg s c f 79 76 ≤ 1048576 ∧ (fld f 43 42 = 2 →
    0 < areg s c f 95 92 % 2 ^ 32 ∧ 0 < areg s c f 95 92 / 2 ^ 32 % 2 ^ 32 ∧ areg s c f 79 76 % (areg s c f 95 92 % 2 ^ 32) = 0) := by
  rw [firstFault_eq_none] at h
  unfold normShape at h
  simp only [List.forall_mem_cons, need_eq_none, State.ins_c, State.ins_f, Bool.and_eq_true, Bool.or_eq_true,
    Bool.not_eq_true', beq_eq_false_iff_ne, bne_iff_ne, beq_iff_eq] at h
  obtain ⟨⟨-, hlen⟩, groups, -⟩ := h
  have len : areg s c f 79 76 ≤ 1048576 := of_decide_eq_true hlen
  refine ⟨len, fun grp => ?_⟩
  obtain ⟨⟨hP, hng⟩, hdvd⟩ := groups.resolve_left fun h => h grp
  exact ⟨Nat.pos_of_ne_zero hP, Nat.pos_of_ne_zero hng, Nat.min_eq_left len ▸ hdvd⟩

theorem gradIdx_lt (h : firstFault (normShape (s.ins c f) s) = none) (r : Nat) {k : Nat} (hk : k < areg s c f 79 76) :
    gradIdx s c f r k < gradCount s c f := by
  obtain ⟨-, groups⟩ := norm_shape h
  unfold gradIdx gradCount
  split
  next grp =>
    obtain ⟨hP, hng, hdvd⟩ := groups grp
    have row : r % (areg s c f 95 92 / 2 ^ 32 % 2 ^ 32) + 1 ≤ areg s c f 95 92 / 2 ^ 32 % 2 ^ 32 := Nat.mod_lt r hng
    have elem : k / (areg s c f 95 92 % 2 ^ 32) < areg s c f 79 76 / (areg s c f 95 92 % 2 ^ 32) :=
      Nat.div_lt_div_of_lt_of_dvd (Nat.dvd_of_mod_eq_zero hdvd) hk
    rw [Nat.max_eq_left hP]
    have := Nat.mul_le_mul_right (areg s c f 79 76 / (areg s c f 95 92 % 2 ^ 32)) row
    rw [Nat.add_mul, Nat.one_mul] at this
    omega
  next => exact hk

/-- Of `n` pairs of dγ and then `n` of dβ at `a`, pair `i` of either kind lies in the area. -/
theorem gammaPair_le (a : Nat) {i n : Nat} (h : i < n) : a + 8 * i + 8 ≤ a + 16 * n := by omega
theorem betaPair_le (a : Nat) {i m n : Nat} (h : i < n) (hm : m = n) : a + 8 * (m + i) + 8 ≤ a + 16 * n := by omega

theorem State.Writes.forget_if {t : State} {A : Set (Nat × Nat)} {V R : Set Nat} (h : State.Writes c A V R s t) {lo hi : Nat}
    {d : Prop} [Decidable d] (hd : d → ∃ p ∈ A, p.1 ≤ lo ∧ hi ≤ p.1 + p.2) :
    State.Writes c A V R s (if d then t.forget lo hi else t) := by
  split
  next h' =>
    obtain ⟨p, hp, hlo, hhi⟩ := hd h'
    exact h.forget hp hlo hhi
  next => exact h

/-- A row of results is stored in its own range. -/
theorem State.Writes.putRowOut {t : State} {A : Set (Nat × Nat)} {V R : Set Nat} (h : State.Writes c A V R s t) {n len i : Nat}
    (hout : rowOut s c f i ∈ A) (clash : Bool) {vs : List XF} (hlen : vs.length ≤ areg s c f 79 76) :
    State.Writes c A V R s (Rows.put t c ⟨areg s c f 63 60, areg s c f 75 72, n, len, fmtOf f 51 48⟩ clash i vs) := by
  refine h.putRow _ clash i hout (Nat.le_add_right _ _) ?_
  have := Nat.mul_le_mul_right (fmtOf f 51 48).bytes hlen
  simp only [Rows.at, rowOut, Nat.zero_mul]
  omega

/-- NORMF and NORMB store their rows of results and, with gradients, the gradient area; their records are their own matter. -/
theorem norm_writes (b : Bool) (shape : firstFault (normShape (s.ins c f) s) = none) :
    State.Writes c (Spans (areg s c f 83 80 + 1) (normOut s c f b)) ∅ Set.univ s ((normOp b (s.ins c f) s).act s) := by
  have len : min (areg s c f 79 76) 1048576 = areg s c f 79 76 := Nat.min_eq_left (norm_shape shape).1
  have row {r : Nat} (hr : r < min (areg s c f 83 80) 65536) : rowOut s c f r ∈ Spans (areg s c f 83 80 + 1) (normOut s c f b) := by
    have hr := lt_of_lt_of_le hr (Nat.min_le_left _ _)
    exact ⟨r, Nat.lt_succ_of_lt hr, if_pos hr⟩
  have area (h : (b && bitOf f 39) = true) :
      (gloc (areg s c f 91 88), 16 * gradCount s c f) ∈ Spans (areg s c f 83 80 + 1) (normOut s c f b) :=
    ⟨areg s c f 83 80, Nat.lt_succ_self _, (if_neg (lt_irrefl _)).trans (if_pos h)⟩
  have count : (if fld f 43 42 == 2 then areg s c f 95 92 / 2 ^ 32 % 2 ^ 32 *
      (min (areg s c f 79 76) 1048576 / max (areg s c f 95 92 % 2 ^ 32) 1) else min (areg s c f 79 76) 1048576) = gradCount s c f := by
    simp [gradCount, len]
  have idx (r k : Nat) (hk : k < min (areg s c f 79 76) 1048576) : (if fld f 43 42 == 2 then r % (areg s c f 95 92 / 2 ^ 32 % 2 ^ 32) *
      (min (areg s c f 79 76) 1048576 / (areg s c f 95 92 % 2 ^ 32)) + k / (areg s c f 95 92 % 2 ^ 32) else k) < gradCount s c f := by
    have := gradIdx_lt shape r (len ▸ hk)
    simpa [gradIdx, len] using this
  unfold normOp
  dsimp only [State.ins_c, State.ins_f]
  refine .forget_if (.iterate (.refl ..) fun r hr t ht => ?rows) fun clash => ?area
  case area => exact ⟨_, area (Bool.and_eq_true_iff.mp clash).1, le_rfl, Nat.add_le_add_left (Nat.mul_le_mul_left 16 count.le) _⟩
  case rows =>
    split
    next =>
      split
      next dx gs fl run =>
        obtain ⟨hdx, hgs⟩ := Fl.Yields.of_run (normBackRow_length _ _ _ _ _ _ _) run
        rw [length_row] at hdx hgs
        have hrow n l clash := (ht.putRowOut (n := n) (len := l) (row hr) clash (hdx.trans len.le)).setFlags fl
        split
        next save =>
          refine (hrow _ _ _).foldl fun z hz u hu => ?_
          have hi := idx r z.2 (lt_of_lt_of_le (List.snd_lt_of_mem_zipIdx hz) hgs)
          exact (hu.addPair _ (area save) (Nat.le_add_right _ _) (gammaPair_le _ hi)).addPair _ (area save) (Nat.le_add_right _ _)
            (betaPair_le _ hi count)
        next => exact hrow _ _ _
    next =>
      split
      next mean rstd ys fl run =>
        have hy := Fl.Yields.of_run (normRow_length _ _ _ _ _) run
        rw [length_row] at hy
        have hrow n l clash := (ht.putRowOut (n := n) (len := l) (row hr) clash (hy.trans len).le).setFlags fl
        split
        next => exact (hrow _ _ _).modCtx ((Ctx.Within.refl ..).setSide (Set.mem_univ _) _)
        next => exact hrow _ _ _

end Rows

end Sys2Proof.Machine

namespace Sys2Proof.Machine

/-! ### SMAXF and SMAXB -/

section Softmax

variable {s : State} {c : Nat} {f : Frame}

/-- SMAXF and SMAXB store their rows of results; their records are their own matter. -/
theorem smax_writes (b : Bool) :
    State.Writes c (Spans (areg s c f 83 80) (rowOut s c f)) ∅ Set.univ s ((smaxOp b (s.ins c f) s).act s) := by
  have len {m : Nat} (h : m ≤ min (areg s c f 79 76) 1048576) : m ≤ areg s c f 79 76 := h.trans (Nat.min_le_left _ _)
  unfold smaxOp
  dsimp only [State.ins_c, State.ins_f]
  refine .iterate (.refl ..) fun r hr t ht => ?_
  have out : rowOut s c f r ∈ Spans (areg s c f 83 80) (rowOut s c f) := mem_spans (lt_of_lt_of_le hr (Nat.min_le_left _ _))
  split
  next =>
    split
    next dx fl run =>
      have hdx := Fl.Yields.of_run (P := fun dx => dx.length ≤ min (areg s c f 79 76) 1048576)
        (.bind (.mapM_length _ _) fun ys hys b => (smaxBackRow_length _ ys _ b).trans
          (hys.trans ((List.length_map _).trans List.length_range)).le) run
      exact (ht.putRowOut out _ (len hdx)).setFlags _
  next =>
    split
    next m lse em ys fl run =>
      have hy := Fl.Yields.of_run (smaxRow_length _ _) run
      rw [List.length_map, List.length_range] at hy
      have hrow n l clash := (ht.putRowOut (n := n) (len := l) out clash (len hy.le)).setFlags fl
      split
      next => exact (hrow _ _ _).modCtx ((Ctx.Within.refl ..).setSide (Set.mem_univ _) _)
      next => exact hrow _ _ _

end Softmax

/-! ## Pooling: POOL and POOLB (R139 to R142) -/

section Pool

variable {s : State} {c : Nat} {f : Frame}

theorem mem_boxOf {ds p : List Nat} (h : p ∈ boxOf ds) : ∃ a < nth ds 0, ∃ b < nth ds 1, ∃ d < nth ds 2, p = [a, b, d] := by
  simp only [boxOf, List.mem_flatMap, List.mem_map, List.mem_range] at h
  obtain ⟨a, ha, b, hb, d, hd, rfl⟩ := h
  exact ⟨a, ha, b, hb, d, hd, rfl⟩

/-- An element of a tensor lies in the range that the tensor takes. -/
theorem tensorAt_le {ds p : List Nat} (str : List Nat) {cb cbw b l : Nat} (es : Nat) (hp : p ∈ boxOf ds) (hb : b < cb) (hl : l < cbw) :
    tensorAt str p b l es + es ≤ tensorLen ds str cb cbw es := by
  obtain ⟨x, hx, y, hy, z, hz, rfl⟩ := mem_boxOf hp
  have h0 := Nat.mul_le_mul_right (nth str 0) (Nat.le_sub_one_of_lt hx)
  have h1 := Nat.mul_le_mul_right (nth str 1) (Nat.le_sub_one_of_lt hy)
  have h2 := Nat.mul_le_mul_right (nth str 2) (Nat.le_sub_one_of_lt hz)
  have h3 := Nat.mul_le_mul_right (nth str 3) (Nat.le_sub_one_of_lt hb)
  have h4 := Nat.mul_le_mul_right es (Nat.succ_le_of_lt hl)
  rw [Nat.succ_mul] at h4
  have len : tensorLen ds str cb cbw es = 0 + (nth ds 0 - 1) * nth str 0 + (nth ds 1 - 1) * nth str 1 + (nth ds 2 - 1) * nth str 2 +
      (cb - 1) * nth str 3 + cbw * es := rfl
  have at' : tensorAt str [x, y, z] b l es = x * nth str 0 + y * nth str 1 + z * nth str 2 + b * nth str 3 + l * es := rfl
  omega

theorem mem_chans {cb cbw : Nat} {ch : Nat × Nat}
    (h : ch ∈ (List.range cb).flatMap fun b => (List.range cbw).map fun l => (b, l)) : ch.1 < cb ∧ ch.2 < cbw := by
  simp only [List.mem_flatMap, List.mem_map, List.mem_range] at h
  obtain ⟨b, hb, l, hl, rfl⟩ := h
  exact ⟨hb, hl⟩

/-- Length of the output tensor of POOL (`false`) and of POOLB (`true`). -/
def poolLen (f : Frame) (b : Bool) (w : Win3) : Nat :=
  if b then tensorLen w.ins w.xs w.cb w.cbw (fmtOf f 31 28).bytes else tensorLen w.outs w.ys w.cb w.cbw (fmtOf f 31 28).bytes

theorem State.Writes.freeCodes_if {t : State} {A : Set (Nat × Nat)} {V R : Set Nat} (h : State.Writes c A V R s t) (d : Prop) [Decidable d]
    (l : List Nat) (n bits : Nat) : State.Writes c A V R s (if d then t.freeCodes n bits else (l, t)).2 := by
  split
  · exact h.fresh _
  · exact h

/-- POOL and POOLB store their output tensor. -/
theorem pool_writes (b : Bool) (w : Win3) : State.Writes c (Spans 1 fun _ => (gloc (areg s c f 39 36), poolLen f b w)) ∅ ∅ s
    ((poolOp b (s.ins c f) s w).act s) := by
  have out := mem_spans (spans := fun _ => (gloc (areg s c f 39 36), poolLen f b w)) Nat.one_pos
  unfold poolOp
  dsimp only [State.ins_c, State.ins_f]
  split
  next vs fl run =>
    have inside : ∀ v ∈ vs, v.1 + (fmtOf f 31 28).bytes ≤ poolLen f b w := by
      refine Fl.Yields.of_run (P := fun vs => ∀ v ∈ vs, v.1 + (fmtOf f 31 28).bytes ≤ poolLen f b w) ?_ run
      cases b with
      | false =>
        refine .flatMapM_all fun ch hch => .mapM_all fun p hp => .step fun v => .pure ?_
        exact tensorAt_le _ _ hp (mem_chans hch).1 (mem_chans hch).2
      | true =>
        refine .flatMapM_all fun ch hch => .step fun m => .pure fun v hv => ?_
        obtain ⟨q, hq, rfl⟩ := List.mem_map.mp hv
        exact tensorAt_le _ _ hq (mem_chans hch).1 (mem_chans hch).2
    refine .setFlags (((State.Writes.refl ..).freeCodes_if _ _ _ _).foldl fun z hz t ht => ?_) _
    obtain ⟨v, hv, e⟩ := List.mem_map.mp (List.of_mem_zip hz).1
    refine ht.ownStore out (Nat.le_add_right _ _) ?_
    rw [length_le_bytes, Nat.add_assoc, ← e]
    exact Nat.add_le_add_left (inside v hv) _

end Pool

end Sys2Proof.Machine

/-! ## Moves, reductions, pooling and rows leave what they leave (R120, R137 to R149) -/

namespace Sys2Proof.Machine

section Clear

variable {s : State} {c : Nat} {f : Frame}

theorem exec_vld_clear (hop : opcode f = 0x62) (R : Ready s c f (vldRegs f)) (hd : vldDec f = none)
    (C : (vmoveOp true (s.ins c f) s).Clear (s.ins c f) s) : exec (.vld c f) s = .next (s.pass ((vmoveOp true (s.ins c f) s).act s) c) :=
  congrArg Host.Outcome.next (State.startOp_clear (body := vldBody) hop R hd rfl C)

theorem exec_vst_clear (hop : opcode f = 0x63) (R : Ready s c f (vldRegs f)) (hd : vldDec f = none)
    (C : (vmoveOp false (s.ins c f) s).Clear (s.ins c f) s) :
    exec (.vst c f) s = .next (s.pass ((vmoveOp false (s.ins c f) s).act s) c) :=
  congrArg Host.Outcome.next (State.startOp_clear (body := vstBody) hop R hd rfl C)

theorem exec_vred_clear (hop : opcode f = 0x64) (R : Ready s c f (vredRegs f)) (hd : vredDec f = none)
    (C : (vredOp (s.ins c f) s).Clear (s.ins c f) s) : exec (.vred c f) s = .next (s.pass ((vredOp (s.ins c f) s).act s) c) :=
  congrArg Host.Outcome.next (State.startOp_clear (body := vredBody) hop R hd rfl C)

theorem exec_upload_done {t : State} (hop : opcode f = 0x68) (R : Ready s c f [fld f 19 16]) (hz : Zero f [(127, 29)])
    (h : uploadBody (s.ins c f) s = .done t) : exec (.upload c f) s = .next (s.pass t c) :=
  congrArg Host.Outcome.next (State.startOp_done hop R (decodeCheck_of_zero 0x68 hz rfl) h)

theorem normBody_run (b : Bool) (shape : firstFault (normShape (s.ins c f) s) = none) :
    normBody b (s.ins c f) s = (normOp b (s.ins c f) s).run (s.ins c f) s := by
  rw [normBody, shape]

theorem exec_norm_clear (b : Bool) (hop : opcode f = if b then 0x81 else 0x80) (R : Ready s c f (normRegs b f)) (hd : normDec b f = none)
    (shape : firstFault (normShape (s.ins c f) s) = none) (C : (normOp b (s.ins c f) s).Clear (s.ins c f) s) :
    exec (if b then .normb c f else .normf c f) s = .next (s.pass ((normOp b (s.ins c f) s).act s) c) := by
  cases b with
  | false => exact congrArg Host.Outcome.next (State.startOp_clear hop R hd (normBody_run false shape) C)
  | true => exact congrArg Host.Outcome.next (State.startOp_clear hop R hd (normBody_run true shape) C)

theorem smaxBody_run (b : Bool) (shape : smaxShape (s.ins c f) s = none) :
    smaxBody b (s.ins c f) s = (smaxOp b (s.ins c f) s).run (s.ins c f) s := by
  rw [smaxBody, shape]

theorem exec_smax_clear (b : Bool) (hop : opcode f = if b then 0x85 else 0x84) (R : Ready s c f (smaxRegs b f)) (hd : smaxDec b f = none)
    (shape : smaxShape (s.ins c f) s = none) (C : (smaxOp b (s.ins c f) s).Clear (s.ins c f) s) :
    exec (if b then .smaxb c f else .smaxf c f) s = .next (s.pass ((smaxOp b (s.ins c f) s).act s) c) := by
  cases b with
  | false => exact congrArg Host.Outcome.next (State.startOp_clear hop R hd (smaxBody_run false shape) C)
  | true => exact congrArg Host.Outcome.next (State.startOp_clear hop R hd (smaxBody_run true shape) C)

/-- The window descriptor of POOL and POOLB. -/
def poolWin (s : State) (c : Nat) (f : Frame) : Win3 := Win3.of (s.read (gloc (areg s c f 43 40)) 64)

theorem poolBody_run (b : Bool) (xv : (fmtOf f 27 24).isVec = true) (yv : (fmtOf f 31 28).isVec = true)
    (align : areg s c f 43 40 % 16 = 0) (own : s.ownFault c (areg s c f 43 40) 64 0x63 2 = none)
    (free : s.conflict (s.ins c f) ⟨[⟨gloc (areg s c f 43 40), gloc (areg s c f 43 40) + 64, false⟩], []⟩ = false)
    (clean : s.poisoned (gloc (areg s c f 43 40)) 64 = false) (rsvd : (poolWin s c f).rsvd = true) (ok : (poolWin s c f).ok = true) :
    poolBody b (s.ins c f) s = (poolOp b (s.ins c f) s (poolWin s c f)).run (s.ins c f) s := by
  have checks : firstFault [need ((fmtOf f 27 24).isVec && (fmtOf f 31 28).isVec) 0x61 2,
      need (areg s c f 43 40 % 16 == 0) 0x64 2 (areg s c f 43 40), s.ownFault c (areg s c f 43 40) 64 0x63 2] = none := by
    simp [firstFault_eq_none, xv, yv, align, own]
  have descr : firstFault [need (poolWin s c f).rsvd 0x68 2, need (poolWin s c f).ok 0x62 2] = none := by
    simp [firstFault_eq_none, rsvd, ok]
  unfold poolBody
  dsimp only
  split
  next x h => exact absurd (h.symm.trans checks) (Option.some_ne_none x)
  next =>
    refine (if_neg (Bool.not_eq_true _ ▸ free)).trans ((if_neg (Bool.not_eq_true _ ▸ clean)).trans ?_)
    split
    next x h => exact absurd (h.symm.trans descr) (Option.some_ne_none x)
    next => rfl

theorem exec_pool_clear (b : Bool) (hop : opcode f = if b then 0x6D else 0x6C) (R : Ready s c f (poolRegs b f)) (hd : poolDec b f = none)
    (run : poolBody b (s.ins c f) s = (poolOp b (s.ins c f) s (poolWin s c f)).run (s.ins c f) s)
    (C : (poolOp b (s.ins c f) s (poolWin s c f)).Clear (s.ins c f) s) :
    exec (if b then .poolb c f else .pool c f) s = .next (s.pass ((poolOp b (s.ins c f) s (poolWin s c f)).act s) c) := by
  cases b with
  | false => exact congrArg Host.Outcome.next (State.startOp_clear hop R hd run C)
  | true => exact congrArg Host.Outcome.next (State.startOp_clear hop R hd run C)

end Clear

/-- Settles O37: each instruction's writes (`vld_writes` to `pool_writes`, `uploadBody_done`), and what `State.Writes` leaves. -/
theorem movesReductionsAndRowsStoreOnlyTheirOutputs : Obligations.MovesReductionsAndRowsStoreOnlyTheirOutputs := by
  intro s c f ar fm keeps only
  have kept {A V R u} (W : State.Writes c A V R s u) : keeps u := by
    obtain ⟨ha, hl, hp, hpc, hflags, hmx, -⟩ := W.kept
    exact ⟨W.rest, W.others, ha, hl, hp, hpc, hflags, hmx⟩
  refine ⟨fun hop R hd C => ?vld, fun hop R hd C => ?vst, fun hop R hd C => ?vred,
    fun hop R hz align own starts clean good => ?upload, fun b hop R hd shape C => ?norm, fun b hop R hd shape C => ?smax,
    fun b hop R hd xv yv align own free clean rsvd ok C => ?pool⟩
  case vld =>
    have W := vld_writes (s := s) (c := c) (f := f)
    refine ⟨_, exec_vld_clear hop R hd C, kept W, vld_mem, W.ctx.recs rfl, fun r hr => W.ctx.regs r fun h => ?_⟩
    obtain ⟨h1, h2⟩ := h
    exact hr.elim (Nat.not_lt.mpr h1) (Nat.not_le.mpr h2)
  case vst =>
    have W := vst_writes (s := s) (c := c) (f := f)
    exact ⟨_, exec_vst_clear hop R hd C, kept W, W.ctx.vecs rfl, W.ctx.recs rfl, W.only_spans⟩
  case vred =>
    have W := vred_writes (s := s) (c := c) (f := f)
    exact ⟨_, exec_vred_clear hop R hd C, kept W, W.ctx.vecs rfl, W.ctx.recs rfl, W.only_spans⟩
  case upload =>
    refine ⟨_, exec_upload_done hop R hz (uploadBody_done align own starts clean good), ?_⟩
    dsimp only [keeps]
    rw [State.ctx_modCtx_same]
    exact ⟨⟨rfl, fun k hk => State.core_modCtx_other _ _ _ _ hk, rfl, rfl, rfl, rfl, rfl, rfl⟩, rfl, rfl, rfl,
      fun k hk => SMap.get?_put_other _ _ _ _ hk, (SMap.get?_put_same _ _ _).trans (congrArg some (progOf_read _ _ (fld_ops_le f)))⟩
  case norm =>
    have W := norm_writes b shape
    exact ⟨_, exec_norm_clear b hop R hd shape C, kept W, W.ctx.vecs rfl, W.only_spans⟩
  case smax =>
    have W := smax_writes (s := s) (c := c) (f := f) b
    exact ⟨_, exec_smax_clear b hop R hd shape C, kept W, W.ctx.vecs rfl, W.only_spans⟩
  case pool =>
    have W := pool_writes (s := s) (c := c) (f := f) b (poolWin s c f)
    have run := poolBody_run b xv yv align own free clean rsvd ok
    exact ⟨_, exec_pool_clear b hop R hd run C, kept W, W.ctx.vecs rfl, W.ctx.recs rfl, W.only_spans⟩

end Sys2Proof.Machine

/-! ## A VMP that an UPLOAD of another pipeline holds back (R127, R129, R135) -/

namespace Sys2Proof.Machine

/-- A VMP of one FP32 element in V0 without outputs. -/
def heldVmp : Frame := 0x61#128

/-- A running program of 64 frames. -/
def heldProg : Prog :=
  { st := 3, streets := 1, avenues := 1, entry := 0, textLen := 1024, spadUse := 0, deckUse := 0, save := 0, saveLen := 0,
    place := some (0, 0), slot := none, order := 0, arg := 0, recs := [], nfault := 0, runFrom := none, runCyc := 0, slice := 1000,
    still := 0, fail := false, switches := 0, saved := [], seed := 0 }

/-- An empty micro-program in slot 0, and an UPLOAD in the queue of pipeline 50, where no issue of the model puts one. -/
def heldCtx : Ctx :=
  { Ctx.start with pc := 0x20, uops := [(0, ⟨[], []⟩)], uq := [⟨0, 50, 0, 0x68#128, Ctx.start.a, Ctx.start.l, Foot.none⟩] }

/-- Core 0 runs the program in that context. -/
def heldState : State :=
  { State.reset with
    mem := ⟨[], [], []⟩, pw := { Power.reset with pstate := 3, seq := none }, progs := [(1, heldProg)]
    cores := [(0, { Core.idle with st := 1, holder := 1, ctx := heldCtx })] }

theorem heldState_ready : Ready heldState 0 heldVmp (vmpRegs heldVmp) where
  runs := by decide
  clock := by decide
  fresh := by decide
  front := by decide
  text := ⟨heldProg, by decide, by decide⟩
  clean := by decide +kernel
  pred := by decide
  drained := by decide
  regs := by decide

theorem heldState_clear : (vmpOp (heldState.ins 0 heldVmp) heldState).Clear (heldState.ins 0 heldVmp) heldState where
  sound := by decide +kernel
  late := by decide +kernel
  free := by decide +kernel
  clean := by decide +kernel
  open' := by decide +kernel

theorem vmpBody_of_uploading {s : State} {i : Ins} (h : s.uploading i = true) : vmpBody i s = .hold := if_pos h

/-- A VMP that an UPLOAD in any queue is before waits. -/
theorem exec_vmp_uploading {s : State} {c : Nat} {f : Frame} (hop : opcode f = 0x61) (R : Ready s c f (vmpRegs f)) (hd : vmpDec f = none)
    (h : s.uploading (s.ins c f) = true) : exec (.vmp c f) s = .next (s.wait c f) := by
  refine congrArg Host.Outcome.next ((State.startOp_ready R 0x61 hop _).trans ?_)
  rw [runVmp, hd, State.issueCore_hold R (vmpBody_of_uploading h)]

/-- Refutes O35: `VOp.Clear` asks for no earlier instruction of VMP's own pipeline, while VMP waits for an UPLOAD in any queue, and in
`heldState` one stands in another queue: the VMP waits and its core stays where it is. -/
theorem not_elementStreamsWriteTheirOutputs : ¬ Obligations.ElementStreamsWriteTheirOutputs := by
  intro h
  have dec : vmpDec heldVmp = none := by decide +kernel
  obtain ⟨-, vmp, -⟩ := h heldState 0 heldVmp
  obtain ⟨u, done, -, -, -, -, -, -, pc, -⟩ := vmp ⟨by decide, heldState_ready, dec⟩ heldState_clear
  rw [exec_vmp_uploading (by decide) heldState_ready dec (by decide +kernel), Host.Outcome.next.injEq] at done
  have goes_on : ((heldState.pass u 0).ctx 0).pc = (heldState.ctx 0).pc + 16 := by rw [State.pass, State.ctx_advance_same]
  rw [← done] at goes_on
  exact absurd goes_on (by decide)

end Sys2Proof.Machine

/-! # Core programs: the issue of an instruction, and what each control instruction does (R167 to R197)

`exec_of_coreRow` reads `exec` of a core's instruction off its row in `coreRow`. The lemmas `exec_row_…` say what it comes to for each
answer that the instruction's meaning can give; the control instructions then only need their own meaning. -/

namespace Sys2Proof.Machine

/-! ## What the sequencer does before an instruction's own meaning (R168, R169, R175, R179, R180) -/

namespace State

variable {s : State} {c : Nat} {f : Frame}

/-- A running core whose clock is on, and which holds no other instruction, takes the row's instruction. -/
theorem start_of_running (runs : (s.core c).st = 1) (clock : s.clocked c = true) (fresh : (s.core c).issued = false)
    (front : ∀ w, (s.ctx c).hold = some w → w.frame = f) (run : State → State) : s.start c f run = run s := by
  have held : (match (s.core c).ctx.hold with | some w => w.frame == f | none => true) = true := by
    cases hw : (s.core c).ctx.hold with
    | none => rfl
    | some w => simpa using front w hw
  unfold start
  simp only [runs, clock, fresh, decide_true, Bool.not_false, Bool.and_true, Bool.true_and]
  exact if_pos held

theorem start_ready {regs : List Nat} (R : Ready s c f regs) (run : State → State) : s.start c f run = run s :=
  start_of_running R.runs R.clock R.fresh R.front run

section Checks

variable {p : Prog} {dec : Option FaultInfo} {regs : List Nat} {body : Ins → State → IRes}
  (hp : s.prog (s.core c).holder = some p)

include hp

theorem issueCore_past_text (past : p.textLen ≤ (s.ctx c).pc) :
    s.issueCore c f dec regs body = s.fault c (s.ctx c).pc f (faultOf 6 0) := by
  simp only [issueCore, hp, if_pos past]

variable (ht : (s.ctx c).pc < p.textLen)

include ht

theorem issueCore_poisoned (bad : s.poisoned (textBase (s.core c).holder + (s.ctx c).pc) 16 = true) :
    s.issueCore c f dec regs body = s.fault c (s.ctx c).pc f (faultOf 5 0) := by
  simp only [issueCore, hp, if_neg (Nat.not_le.mpr ht), bad, if_true]

variable (clean : s.poisoned (textBase (s.core c).holder + (s.ctx c).pc) 16 = false)

include clean

theorem issueCore_refused (e : FaultInfo) : s.issueCore c f (some e) regs body = s.fault c (s.ctx c).pc f e := by
  simp only [issueCore, hp, if_neg (Nat.not_le.mpr ht), clean, Bool.false_eq_true, if_false]

theorem issueCore_skipped (skip : executes (s.ctx c) f = false) : s.issueCore c f none regs body = s.pass s c := by
  simp only [issueCore, hp, if_neg (Nat.not_le.mpr ht), clean, skip, Bool.false_eq_true, if_false, Bool.not_false, if_true, pass]

theorem issueCore_waits (exe : executes (s.ctx c) f = true)
    (h : drain f = true ∧ s.works c (s.core c).holder ≠ [] ∨ regPending (s.ctx c) regs = true) :
    s.issueCore c f none regs body = s.wait c f := by
  have stalled : (drain f && !(s.works c (s.core c).holder).isEmpty) = true ∨ regPending (s.ctx c) regs = true := by simpa using h
  simp only [issueCore, hp, if_neg (Nat.not_le.mpr ht), clean, exe, Bool.false_eq_true, if_false, Bool.not_true]
  rcases stalled with drains | pends
  · rw [if_pos drains]
  · rw [if_pos pends, ite_self]

end Checks

theorem issueCore_queue {lane : Nat} {foot : Foot} {dst regs : List Nat} {body : Ins → State → IRes} (R : Ready s c f regs)
    (h : body (s.ins c f) s = .queue lane foot dst) : s.issueCore c f none regs body = s.intoQueue c f lane foot dst := by
  obtain ⟨p, -, e⟩ := State.issueCore_ready R body
  rw [e, h]

/-- A branch of a ready core: the target fault, or the core goes on there (R175). -/
theorem issueCore_jump {t : State} {a : Int} {p : Prog} {regs : List Nat} {body : Ins → State → IRes} (R : Ready s c f regs)
    (hp : s.prog (s.core c).holder = some p) (h : body (s.ins c f) s = .jump t a) : s.issueCore c f none regs body =
      if a < 0 ∨ (p.textLen : Int) ≤ a then t.fault c (s.ctx c).pc f (faultOf 6 0 a.toNat) else t.advance c a.toNat := by
  obtain ⟨q, hq, e⟩ := State.issueCore_ready R body
  obtain rfl : q = p := Option.some.inj (hq.symm.trans hp)
  simp only [e, h, Bool.or_eq_true, decide_eq_true_eq]

/-- A full queue of the unit stalls the issue (R179). -/
theorem intoQueue_full {lane : Nat} {foot : Foot} {dst : List Nat}
    (full : 8 ≤ ((s.ctx c).uq.filter fun q => q.lane / 10 == lane / 10).length) : s.intoQueue c f lane foot dst = s.wait c f :=
  if_pos full

/-- With room, the instruction enters the queue with the scalar registers as they are, and its destinations are marked (R179, R180). -/
theorem intoQueue_room {lane : Nat} {foot : Foot} {dst : List Nat}
    (room : ((s.ctx c).uq.filter fun q => q.lane / 10 == lane / 10).length < 8) : s.intoQueue c f lane foot dst =
      s.pass (State.modCtx { s with fresh := s.fresh + 1 } c fun y => { y with
        uq := (s.ctx c).uq ++ [⟨s.fresh, lane, (s.ctx c).pc, f, (s.ctx c).a, (s.ctx c).l, foot⟩]
        pend := (s.ctx c).pend ++ dst.map fun d => (d, s.fresh) }) c :=
  if_neg (Nat.not_le.mpr room)

end State

/-! ## The rows of `coreRow` -/

/-- What the row's command does: the instruction issues, if its frame is one of the row's. -/
def CoreRow.issue (r : CoreRow) (s : State) : State :=
  match r.modes with
  | none => s.startOp r.op r.core r.frame (State.issueCore r.core r.frame r.dec r.regs r.body)
  | some ms =>
    if ms.contains (fld r.frame 17 16) then
      s.startOp r.op r.core r.frame (State.issueCore r.core r.frame r.dec r.regs r.body)
    else s

theorem CoreRow.issue_of_fits {r : CoreRow} (h : r.fits) (s : State) :
    r.issue s = s.start r.core r.frame (State.issueCore r.core r.frame r.dec r.regs r.body) := by
  obtain ⟨hop, hm⟩ := h
  unfold issue
  split
  · exact if_pos hop
  · next ms e => rw [if_pos (by simpa using hm ms e)]; exact if_pos hop

/-- Every row of `coreRow` says what `exec` does. -/
theorem exec_of_coreRow {i : Instr} {r : CoreRow} (h : coreRow i = some r) (s : State) : exec i s = .next (r.issue s) := by
  unfold coreRow at h
  split at h
  all_goals cases h
  all_goals
    simp only [CoreRow.issue]
    rfl

section Row

variable {i : Instr} {op c : Nat} {f : Frame} {modes : Option (List Nat)} {dec : Option FaultInfo} {regs : List Nat}
  {body : Ins → State → IRes} (hr : coreRow i = some ⟨op, c, f, modes, dec, regs, body⟩)
  (fits : CoreRow.fits ⟨op, c, f, modes, dec, regs, body⟩) {s t : State}

include hr fits

theorem exec_row_running (runs : (s.core c).st = 1) (clock : s.clocked c = true) (fresh : (s.core c).issued = false)
    (front : ∀ w, (s.ctx c).hold = some w → w.frame = f) : exec i s = .next (s.issueCore c f dec regs body) := by
  rw [exec_of_coreRow hr, CoreRow.issue_of_fits fits, State.start_of_running runs clock fresh front]

variable (hd : dec = none) (R : Ready s c f regs)

include hd R

theorem exec_row_ready : exec i s = .next (s.issueCore c f none regs body) := by
  rw [exec_row_running hr fits R.runs R.clock R.fresh R.front, hd]

theorem exec_row_done (h : body (s.ins c f) s = .done t) : exec i s = .next (s.pass t c) := by
  rw [exec_row_ready hr fits hd R, State.issueCore_done R h]

theorem exec_row_stop (h : body (s.ins c f) s = .stop t) : exec i s = .next t := by
  rw [exec_row_ready hr fits hd R, State.issueCore_stop R h]

theorem exec_row_hold (h : body (s.ins c f) s = .hold) : exec i s = .next (s.wait c f) := by
  rw [exec_row_ready hr fits hd R, State.issueCore_hold R h]

theorem exec_row_fault {x : FaultInfo} (h : body (s.ins c f) s = .fault t x) : exec i s = .next (t.fault c (s.ctx c).pc f x) := by
  rw [exec_row_ready hr fits hd R, State.issueCore_fault R h]

theorem exec_row_queue {lane : Nat} {foot : Foot} {dst : List Nat} (h : body (s.ins c f) s = .queue lane foot dst) :
    exec i s = .next (s.intoQueue c f lane foot dst) := by
  rw [exec_row_ready hr fits hd R, State.issueCore_queue R h]

theorem exec_row_jump {a : Int} {p : Prog} (hp : s.prog (s.core c).holder = some p) (h : body (s.ins c f) s = .jump t a) :
    exec i s = .next (if a < 0 ∨ (p.textLen : Int) ≤ a then t.fault c (s.ctx c).pc f (faultOf 6 0 a.toNat)
      else t.advance c a.toNat) := by
  rw [exec_row_ready hr fits hd R, State.issueCore_jump R hp h]

end Row

/-- Settles O10: the row gives `exec` (`exec_of_coreRow`); the checks before the instruction and the answers of its meaning are the cases of
`State.issueCore`. -/
theorem everyCoreInstructionIssuesItsEffect : Obligations.EveryCoreInstructionIssuesItsEffect := by
  refine ⟨fun i r s p hr fits runs clock fresh front hp => ?checks, fun i r s hr fits hd R => ?answers⟩
  case checks =>
    rw [exec_row_running hr fits runs clock fresh front]
    refine ⟨fun past => ?_, fun ht bad => ?_, fun ht clean e he => ?_, fun ht clean hd skip => ?_, fun ht clean hd exe stalled => ?_⟩
    · rw [State.issueCore_past_text hp past]
    · rw [State.issueCore_poisoned hp ht bad]
    · rw [he, State.issueCore_refused hp ht clean]
    · rw [hd, State.issueCore_skipped hp ht clean skip]
    · rw [hd, State.issueCore_waits hp ht clean exe stalled]
  case answers =>
    refine ⟨fun t => exec_row_done hr fits hd R, fun t => exec_row_stop hr fits hd R, exec_row_hold hr fits hd R,
      fun lane foot dst h => ⟨fun full => ?_, fun room => ?_⟩, fun t e => exec_row_fault hr fits hd R,
      fun t a p h hp => exec_row_jump hr fits hd R hp h⟩
    · rw [exec_row_queue hr fits hd R h, State.intoQueue_full full]
    · rw [exec_row_queue hr fits hd R h, State.intoQueue_room room]

end Sys2Proof.Machine

/-! ## Scalar registers, predicates and scalar arithmetic (R160, R171 to R173) -/

namespace Sys2Proof.Machine

section Selectors

variable (x : Ctx) (w : W64)

@[simp] theorem selGet_zero : selGet x 0x18 = 0 := rfl
@[simp] theorem selSet_zero : selSet x 0x18 w = x := rfl

theorem selSet_of_lt_16 {v : Nat} (h : v < 16) : selSet x v w = x.setA v w := if_pos h

theorem selSet_l {v : Nat} (h : v < 8) : selSet x (16 + v) w = x.setL v w := by
  rw [selSet, if_neg (by omega), if_pos (by omega), Nat.add_sub_cancel_left]

theorem selSet_of_24_le {v : Nat} (h : 24 ≤ v) : selSet x v w = x := by
  rw [selSet, if_neg (by omega), if_neg (by omega)]

/-- A selector is one of a0 to a15, one of l0 to l7, or none of these. -/
theorem sel_cases (v : Nat) : v < 16 ∨ (∃ i < 8, v = 16 + i) ∨ 24 ≤ v := by
  rcases Nat.lt_or_ge v 16 with h | h
  · exact .inl h
  · rcases Nat.lt_or_ge v 24 with h' | h'
    · exact .inr (.inl ⟨v - 16, by omega, by omega⟩)
    · exact .inr (.inr h')

theorem selGet_of_lt_16 {v : Nat} (h : v < 16) : selGet x v = x.getA v := if_pos h

theorem selGet_l {v : Nat} (h : v < 8) : selGet x (16 + v) = x.getL v := by
  rw [selGet, if_neg (by omega), if_pos (by omega), Nat.add_sub_cancel_left]

theorem selGet_of_24_le {v : Nat} (h : 24 ≤ v) : selGet x v = 0 := by
  rw [selGet, if_neg (by omega), if_neg (by omega)]

theorem selGet_selSet_same {v : Nat} (h : v < 0x18) : selGet (selSet x v w) v = w := by
  rcases sel_cases v with ha | ⟨i, hi, rfl⟩ | hz
  · rw [selSet_of_lt_16 x w ha, selGet_of_lt_16 _ ha, Ctx.getA_setA_same _ _ _ ha]
  · rw [selSet_l x w hi, selGet_l _ hi, Ctx.getL_setL_same _ _ _ hi]
  · omega

theorem selGet_selSet_other {u v : Nat} (h : u ≠ v) : selGet (selSet x v w) u = selGet x u := by
  rcases sel_cases v with ha | ⟨i, hi, rfl⟩ | hz
  · rw [selSet_of_lt_16 x w ha, selGet, selGet, Ctx.getA_setA_other _ _ _ _ h, Ctx.getL_setA]
  · rw [selSet_l x w hi, selGet, selGet, Ctx.getA_setL]
    split
    · rfl
    · next hu => rw [Ctx.getL_setL_other _ _ _ _ (by omega)]
  · rw [selSet_of_24_le x w hz]

/-- A selector's write touches the scalar registers only. -/
theorem selSet_frame (v : Nat) : selSet x v w = { x with a := (selSet x v w).a, l := (selSet x v w).l } := by
  rcases sel_cases v with ha | ⟨i, hi, rfl⟩ | hz
  · rw [selSet_of_lt_16 x w ha]; rfl
  · rw [selSet_l x w hi]; rfl
  · rw [selSet_of_24_le x w hz]

end Selectors

/-- Going on changes only the core. -/
theorem OnlyCore.pass {s t : State} {c : Nat} (h : OnlyCore s t c) (u : State) : OnlyCore s (u.pass t c) c :=
  h.trans ⟨rfl, fun _ hk => State.core_advance_other _ _ _ _ hk⟩

@[simp] theorem State.ctx_pass_modCtx (s : State) (c : Nat) (g : Ctx → Ctx) :
    (s.pass (s.modCtx c g) c).ctx c = { g (s.ctx c) with pc := (s.ctx c).pc + 16, hold := none } := by
  rw [State.pass, State.ctx_advance_same, State.ctx_modCtx_same]

/-- Settles O4: the laws of selectors and predicates, and `OnlyCore.pass`. -/
theorem scalarRegistersAreSeparate : Obligations.ScalarRegistersAreSeparate := by
  intro x v w
  exact ⟨selGet_selSet_same x w, fun u => selGet_selSet_other x w, selGet_zero x, selSet_zero x w, selSet_frame x w v,
    fun i b hi => ⟨Ctx.getP_setP_same x i b hi, fun j hj => Ctx.getP_setP_other x i j b hi hj, rfl⟩,
    fun s c g => ⟨(OnlyCore.modCtx s c g).pass s, s.ctx_pass_modCtx c g⟩⟩

/-! ### The operations in terms of numbers (R172, R173) -/

section Operations

variable (a b : W64)

theorem toNat_salu_sub : (salu 0x1 a b).toNat = (a.toNat + (2 ^ 64 - b.toNat)) % 2 ^ 64 := by
  rw [Nat.add_comm]
  exact BitVec.toNat_sub a b

theorem toNat_salu_shl : (salu 0x6 a b).toNat = a.toNat * 2 ^ (b.toNat % 64) % 2 ^ 64 := by
  rw [← Nat.shiftLeft_eq]
  exact BitVec.toNat_shiftLeft

theorem toNat_salu_shr : (salu 0x7 a b).toNat = a.toNat / 2 ^ (b.toNat % 64) := by
  rw [← Nat.shiftRight_eq_div_pow]
  exact BitVec.toNat_ushiftRight a (b.toNat % 64)

theorem toInt_salu_sar : (salu 0x8 a b).toInt = a.toInt / (2 : Int) ^ (b.toNat % 64) := by
  have shift : (salu 0x8 a b).toInt = a.toInt >>> (b.toNat % 64) := BitVec.toInt_sshiftRight
  rw [shift, Int.shiftRight_eq_div_pow]
  norm_cast

theorem toInt_salu_min : (salu 0x9 a b).toInt = min a.toInt b.toInt := by
  rw [min_def]
  exact apply_ite BitVec.toInt ..

theorem toInt_salu_max : (salu 0xA a b).toInt = max a.toInt b.toInt := by
  rw [max_def]
  exact apply_ite BitVec.toInt ..

theorem toNat_salu_minu : (salu 0xB a b).toNat = min a.toNat b.toNat := by
  rw [min_def]
  exact apply_ite BitVec.toNat ..

theorem toNat_salu_maxu : (salu 0xC a b).toNat = max a.toNat b.toNat := by
  rw [max_def]
  exact apply_ite BitVec.toNat ..

/-- MULHU: the high half of a product of two words is a word. -/
theorem toNat_salu_mulhu : (salu 0xD a b).toNat = a.toNat * b.toNat / 2 ^ 64 := by
  have high : a.toNat * b.toNat / 2 ^ 64 < 2 ^ 64 :=
    Nat.div_lt_of_lt_mul (Nat.mul_lt_mul'' a.isLt b.isLt)
  exact (BitVec.toNat_ofNat ..).trans (Nat.mod_eq_of_lt high)

end Operations

/-- Settles O3, operation by operation. -/
theorem saluComputesTheTable : Obligations.SaluComputesTheTable := by
  intro a b
  refine ⟨BitVec.toNat_add a b, toNat_salu_sub a b, BitVec.toNat_mul a b, fun i => BitVec.getLsbD_and, fun i => BitVec.getLsbD_or,
    fun i => BitVec.getLsbD_xor, toNat_salu_shl a b, toNat_salu_shr a b, toInt_salu_sar a b, toInt_salu_min a b, toInt_salu_max a b,
    toNat_salu_minu a b, toNat_salu_maxu a b, toNat_salu_mulhu a b, beq_iff_eq, bne_iff_ne, decide_eq_true_iff, decide_eq_true_iff,
    decide_eq_true_iff, decide_eq_true_iff, fun p q => ⟨rfl, rfl, rfl, rfl⟩⟩

end Sys2Proof.Machine

/-! ## Scalar instructions and branches (R172 to R176) -/

namespace Sys2Proof.Machine

theorem fld_lt (f : Frame) (hi lo : Nat) : fld f hi lo < 2 ^ (hi + 1 - lo) := Nat.mod_lt _ (Nat.two_pow_pos _)

@[simp] theorem selDst_iff {v : Nat} : selDst v = true ↔ v < 0x18 := decide_eq_true_iff
@[simp] theorem selSrc_iff {v : Nat} : selSrc v = true ↔ v ≤ 0x18 := decide_eq_true_iff

/-- What a decoder's last clause asks: with the bit set, the field is zero (R5). -/
theorem imp_zero_iff {b : Bool} {n : Nat} : (!b || n == 0) = true ↔ (b = true → n = 0) := by
  cases b <;> simp

/-- Settles O2: each row decodes, and its meaning completes with the state named. -/
theorem scalarInstructionResults : Obligations.ScalarInstructionResults := by
  intro c f s x b
  refine ⟨fun R hop hz => ?nop, fun R hop hz hdst => ?seti, fun R hop hz hn hdst ha hb himm => ?salu,
    fun R hop hz hn ha hb himm => ?scmp, fun R hop hz => ?plog, fun R hop hz => ?frd, fun R hop hz => ?time⟩
  case nop => exact exec_row_done (i := .nop c f) rfl ⟨hop, nofun⟩ (decodeCheck_of_zero 2 hz rfl) R rfl
  case seti => exact exec_row_done (i := .seti c f) rfl ⟨hop, nofun⟩ (decodeCheck_of_zero 2 hz (selDst_iff.mpr hdst)) R rfl
  case salu =>
    refine exec_row_done (i := .salu c f) rfl ⟨hop, nofun⟩ (decodeCheck_of_zero 2 hz ?_) R rfl
    simp only [Bool.and_eq_true, decide_eq_true_eq, selDst_iff, selSrc_iff, imp_zero_iff]
    exact ⟨⟨⟨⟨hn, hdst⟩, ha⟩, hb⟩, himm⟩
  case scmp =>
    refine exec_row_done (i := .scmp c f) rfl ⟨hop, nofun⟩ (decodeCheck_of_zero 2 hz ?_) R rfl
    simp only [Bool.and_eq_true, decide_eq_true_eq, selSrc_iff, imp_zero_iff]
    exact ⟨⟨⟨hn, ha⟩, hb⟩, himm⟩
  case plog => exact exec_row_done (i := .plog c f) rfl ⟨hop, nofun⟩ (decodeCheck_of_zero 2 hz rfl) R rfl
  case frd => exact exec_row_done (i := .frd c f) rfl ⟨hop, nofun⟩ (decodeCheck_of_zero 2 hz rfl) R rfl
  case time => exact exec_row_done (i := .time c f) rfl ⟨hop, nofun⟩ (decodeCheck_of_zero 0xC8 hz rfl) R rfl

/-! ### Branches -/

/-- LINK: the offset of the following instruction goes to an a-register (R175). -/
def linkWritten (s : State) (c : Nat) (link : Bool) (reg : Nat) : State :=
  if link then s.modCtx c fun x => x.setA reg (BitVec.ofNat 64 ((s.ctx c).pc + 16)) else s

theorem link_setSel (s : State) (c : Nat) (link : Bool) {reg : Nat} (h : reg < 16) :
    (if link then s.setSel c reg (BitVec.ofNat 64 ((s.ctx c).pc + 16)) else s) = linkWritten s c link reg := by
  have set : s.setSel c reg (BitVec.ofNat 64 ((s.ctx c).pc + 16)) = s.modCtx c fun x => x.setA reg (BitVec.ofNat 64 ((s.ctx c).pc + 16)) :=
    congrArg (s.modCtx c) (funext fun x => selSet_of_lt_16 x _ h)
  rw [set]
  rfl

section Branches

variable {c : Nat} {f : Frame} {s : State}

theorem brBody_jump : brBody (s.ins c f) s =
    .jump (linkWritten s c (bitOf f 52) (fld f 51 48)) ((s.ctx c).pc + sgn 32 (fld f 47 16) * 16) := by
  rw [← link_setSel s c _ (fld_lt f 51 48)]
  rfl

theorem briBody_eq : briBody (s.ins c f) s = if ((s.ctx c).getA (fld f 19 16)).toNat % 16 = 0 then
      .jump (linkWritten s c (bitOf f 20) (fld f 24 21)) ((s.ctx c).getA (fld f 19 16)).toNat
    else .fault (linkWritten s c (bitOf f 20) (fld f 24 21)) (faultOf 4 0 ((s.ctx c).getA (fld f 19 16)).toNat) := by
  rw [← link_setSel s c _ (fld_lt f 24 21)]
  exact (ite_congr (propext bne_iff_ne) (fun _ => rfl) fun _ => rfl).trans (ite_not ..)

/-- The count of LEND, one less. -/
def lendCounted (s : State) (c : Nat) (f : Frame) : State :=
  s.modCtx c fun x => x.setL (fld f 18 16) ((s.ctx c).getL (fld f 18 16) - 1)

theorem lendBody_eq : lendBody (s.ins c f) s = if (s.ctx c).getL (fld f 18 16) = 0 then .done s
    else if (s.ctx c).getL (fld f 18 16) = 1 then .done (lendCounted s c f)
    else .jump (lendCounted s c f) ((s.ctx c).pc + sgn 32 (fld f 51 20) * 16) := rfl

end Branches

/-- Settles O5: BR's and BRI's meanings come to a jump from the state in which the link is written, LEND's to one of three cases. -/
theorem branchesGoToTheirTargets : Obligations.BranchesGoToTheirTargets := by
  intro c f s p hp pc goTo link
  refine ⟨fun R hop hz => ?br, fun R hop hz => ?bri, fun R hop hz => ?lend⟩
  case br => exact exec_row_jump (i := .br c f) rfl ⟨hop, nofun⟩ (decodeCheck_of_zero 2 hz rfl) R hp brBody_jump
  case bri =>
    intro t
    have dec := decodeCheck_of_zero 2 hz rfl
    by_cases ht : t % 16 = 0
    · rw [if_pos ht]
      exact exec_row_jump (i := .bri c f) rfl ⟨hop, nofun⟩ dec R hp (briBody_eq.trans (if_pos ht))
    · rw [if_neg ht]
      exact exec_row_fault (i := .bri c f) rfl ⟨hop, nofun⟩ dec R (briBody_eq.trans (if_neg ht))
  case lend =>
    intro n less
    have dec := decodeCheck_of_zero 2 hz rfl
    rcases eq_or_ne n 0 with h0 | h0
    · rw [if_pos h0]
      exact exec_row_done (i := .lend c f) rfl ⟨hop, nofun⟩ dec R (lendBody_eq.trans (if_pos h0))
    · rw [if_neg h0]
      have more := lendBody_eq.trans (if_neg h0)
      rcases eq_or_ne n 1 with h1 | h1
      · rw [if_pos h1]
        exact exec_row_done (i := .lend c f) rfl ⟨hop, nofun⟩ dec R (more.trans (if_pos h1))
      · rw [if_neg h1]
        exact exec_row_jump (i := .lend c f) rfl ⟨hop, nofun⟩ dec R hp (more.trans (if_neg h1))

/-! ## Fences, status, stamps and traps (R178, R187 to R190) -/

section Fences

variable {s : State} {c : Nat} {f : Frame}

theorem busy_of_earlier {q : Work → Bool} (h : ∃ w ∈ s.works c (s.core c).holder, w.uid < s.fresh ∧ q w = true) :
    s.busy (s.ins c f) q = true := by
  obtain ⟨w, hw, early, hq⟩ := h
  exact List.any_eq_true.mpr ⟨w, hw, by simp [early, hq]⟩

theorem busy_of_none {q : Work → Bool} (h : ∀ w ∈ s.works c (s.core c).holder, q w = false) : s.busy (s.ins c f) q = false := by
  refine List.any_eq_false.mpr fun w hw => ?_
  simp [h w hw]

theorem busy_of_works_nil {q : Work → Bool} (h : s.works c (s.core c).holder = []) : s.busy (s.ins c f) q = false :=
  busy_of_none (by simp [h])

/-- ASTAT's effect: the status word is read, and the bits of the mask are cleared (R107). -/
def statusTaken (s : State) (c : Nat) (f : Frame) : State := s.modCtx c fun x =>
  { x.setA (fld f 19 16) (x.astat.setWidth 64) with astat := x.astat &&& ~~~(f.extractLsb' 20 32) }

theorem astatBody_eq : astatBody (s.ins c f) s =
    if s.busy (s.ins c f) (fun _ => true) then .hold else .done (statusTaken s c f) := rfl

/-- The core after HALT (R178). -/
def haltedAt (s : State) (c : Nat) : State :=
  (s.advance c ((s.ctx c).pc + 16)).modCore c fun k => { k with st := 3, halted := true }

/-- HALT's meaning on a core that nothing keeps (R165). -/
theorem haltBody_eq {p : Prog} (idle : s.works c (s.core c).holder = []) (hp : s.prog (s.core c).holder = some p) :
    haltBody (s.ins c f) s = if (p.cores.all fun k => ((haltedAt s c).core k).halted) then
      .stop ((haltedAt s c).stopProgram (s.core c).holder 5) else .stop (haltedAt s c) := by
  have still : (haltedAt s c).prog (s.core c).holder = some p := hp
  simp only [haltedAt] at still
  refine (if_neg (Bool.eq_false_iff.mp (busy_of_works_nil idle))).trans ?_
  simp only [State.ins, still, haltedAt]
  rfl

end Fences

/-- Settles O8: what a fence waits for is what `State.busy` finds. -/
theorem fencesStatusAndStamps : Obligations.FencesStatusAndStamps := by
  intro c f s work earlier
  refine ⟨fun R hop hz => ?bollard, fun R hop hz => ?waitu, fun R hop hz => ?astat, fun R hop hz edge step => ?phase,
    fun R hop hz => ?halt⟩
  case bollard => exact exec_row_done (i := .bollard c f) rfl ⟨hop, nofun⟩ (decodeCheck_of_zero 2 hz rfl) R rfl
  case waitu =>
    have dec := decodeCheck_of_zero 2 hz rfl
    exact ⟨fun idle => exec_row_done (i := .waitu c f) rfl ⟨hop, nofun⟩ dec R (if_neg (Bool.eq_false_iff.mp (busy_of_none idle))),
      fun h => exec_row_hold (i := .waitu c f) rfl ⟨hop, nofun⟩ dec R (if_pos (busy_of_earlier h))⟩
  case astat =>
    have dec := decodeCheck_of_zero 2 hz rfl
    exact ⟨fun idle => exec_row_done (i := .astat c f) rfl ⟨hop, nofun⟩ dec R
      (astatBody_eq.trans (if_neg (Bool.eq_false_iff.mp (busy_of_works_nil idle)))),
      fun h => exec_row_hold (i := .astat c f) rfl ⟨hop, nofun⟩ dec R (astatBody_eq.trans (if_pos (busy_of_earlier h)))⟩
  case phase =>
    have good : (fld f 25 24 != 3 && (bitOf f 30 || fld f 29 26 == 0)) = true := by
      rw [Bool.and_eq_true, bne_iff_ne]
      exact ⟨edge, by simpa [or_iff_not_imp_left] using step⟩
    have dec := decodeCheck_of_zero 0xC8 hz good
    exact ⟨fun idle => exec_row_done (i := .phase c f) rfl ⟨hop, nofun⟩ dec R
        (if_neg (Bool.eq_false_iff.mp (busy_of_works_nil idle))),
      fun h => exec_row_hold (i := .phase c f) rfl ⟨hop, nofun⟩ dec R (if_pos (busy_of_earlier h))⟩
  case halt =>
    intro t p hp
    have dec := decodeCheck_of_zero 2 hz rfl
    refine ⟨fun idle more => ?_, fun idle all => ?_, fun h => ?_⟩
    · have body := (haltBody_eq (f := f) idle hp).trans (if_neg (Bool.eq_false_iff.mp more))
      exact exec_row_stop (i := .halt c f) rfl ⟨hop, nofun⟩ dec R body
    · have body := (haltBody_eq (f := f) idle hp).trans (if_pos all)
      exact exec_row_stop (i := .halt c f) rfl ⟨hop, nofun⟩ dec R body
    · exact exec_row_hold (i := .halt c f) rfl ⟨hop, nofun⟩ dec R (if_pos (busy_of_earlier h))

/-! ### Traps and opcodes that name no instruction (R6, R170, R190) -/

/-- An opcode that names no instruction raises the fault of its class. -/
theorem runNone_ready {s : State} {c : Nat} {f : Frame} (R : Ready s c f []) :
    runNone c f s = s.fault c (s.ctx c).pc f ⟨classCause (opcode f), 0, 0, 0, 0⟩ := by
  obtain ⟨p, hp, ht⟩ := R.text
  exact State.issueCore_refused hp ht R.clean _

theorem classCause_illegal {op : Nat} (h : 0xD0 ≤ op) : classCause op = 0x01 := by
  rw [classCause]
  repeat rw [if_neg (by omega)]

theorem classCause_assigned {op : Nat} (h : op < 0xD0) : classCause op =
    if op < 0x20 then 0x02 else if op < 0x40 then 0x21 else if op < 0x60 then 0x48 else if op < 0x90 then 0x68
      else if op < 0xA0 then 0x98 else if op < 0xB0 then 0xA8 else if op < 0xC0 then 0xB9 else 0xC8 := by
  rw [classCause, if_pos h]

theorem exec_illegalOpcode (c : Nat) (f : Frame) (s : State) : exec (.illegalOpcode c f) s =
    .next (if 0xD0 ≤ opcode f then s.start c f (runNone c f) else s) := rfl

theorem exec_unassignedOpcode (c : Nat) (f : Frame) (s : State) : exec (.unassignedOpcode c f) s =
    .next (if 0xD0 ≤ opcode f || assignedOps.contains (opcode f) then s else s.start c f (runNone c f)) := rfl

/-- Settles O9: TRAP's meaning is its fault; the other opcodes come to the fault of their class. -/
theorem trapsAndIllegalOpcodesFault : Obligations.TrapsAndIllegalOpcodesFault := by
  intro c f s R op
  refine ⟨fun hop hz => ?trap, fun h => ?illegal, fun h unassigned => ?unassigned⟩
  case trap => exact exec_row_fault (i := .trap c f) rfl ⟨hop, nofun⟩ (decodeCheck_of_zero 2 hz rfl) R rfl
  case illegal => rw [exec_illegalOpcode, if_pos h, State.start_ready R, runNone_ready R, classCause_illegal h]
  case unassigned =>
    have named : ¬ (0xD0 ≤ opcode f || assignedOps.contains (opcode f)) = true := by
      simpa [List.contains_iff_mem] using ⟨h, unassigned⟩
    rw [exec_unassignedOpcode, if_neg named, State.start_ready R, runNone_ready R, classCause_assigned h]

end Sys2Proof.Machine

/-! ## Scalar memory: SLD and SST (R24, R174, R310) -/

namespace Sys2Proof.Machine

theorem ownTouch_of_ownRange {c a n : Nat} (h : ownRange c a n = true) (hn : 0 < n) : ownTouch c a n = true := by
  have spill : spillLo = 228352 := rfl
  have spad : spadSize = 262144 := rfl
  simp only [ownRange, ownTouch, Bool.or_eq_true, Bool.and_eq_true, decide_eq_true_eq] at h ⊢
  omega

theorem scalarFoot_own {s : State} {c g n : Nat} (wr : Bool) (dev : gdev g = s.fab.devnum) (own : ownRange c (gloc g) n = true)
    (hn : 0 < n) : scalarFoot s c g n wr = ⟨[⟨gloc g, gloc g + n, wr⟩], []⟩ :=
  if_pos (by simp [dev, ownTouch_of_ownRange own hn])

theorem scalarFoot_far {s : State} {c g n : Nat} (wr : Bool) (dev : gdev g ≠ s.fab.devnum) : scalarFoot s c g n wr = Foot.none :=
  if_neg (by simp [dev])

namespace State

variable {s : State} {c g n : Nat}

theorem ownFault_own (valid : gvalid g = true) (dev : gdev g = s.fab.devnum) (thawed : s.fab.fcu = 0)
    (own : ownRange c (gloc g) n = true) (loc unit : Nat) : s.ownFault c g n loc unit = none := by
  simp [ownFault, valid, dev, thawed, own]

/-- A read of a core's own memory that is served in place gives its bytes and marks. -/
theorem readPiece_own {a : Nat} (hm : s.inMap c = true) (thawed : s.fab.fcu = 0) (own : ownRange c a n = true) (hn : 0 < n)
    (served : ∀ h, s.servedBy c = some h → s.savedOf h c = none) : s.readPiece a n = (St.ok, s.mem.readP a n) := by
  obtain ⟨site, mc⟩ := State.site_own hm thawed own hn served
  simp [readPiece, site, mcDown, mc]

theorem uidFor_fresh (s : State) : s.uidFor s.fresh = (s.fresh, { s with fresh := s.fresh + 1 }) := if_neg (Nat.lt_irrefl _)

theorem fencedOff_ins (s : State) (c : Nat) (f : Frame) : s.fencedOff (s.ins c f) = s.fenced c := by simp [fencedOff]

end State

theorem Memory.map_fst_readP (m : Memory) (a n : Nat) : (m.readP a n).map (·.1) = m.read a n := by
  simp [readP, read, Function.comp_def]

section Load

variable {s : State} {i : Ins}

theorem sizeOf'_pos (f : Frame) : 0 < sizeOf' f := Nat.two_pow_pos _

theorem sldBody_unaligned (h : slAddr s i % sizeOf' i.f ≠ 0) : sldBody i s = .fault s (faultOf 4 6 (slAddr s i)) :=
  if_pos (by simpa using h)

theorem sstBody_unaligned (h : slAddr s i % sizeOf' i.f ≠ 0) : sstBody i s = .fault s (faultOf 4 6 (slAddr s i)) :=
  if_pos (by simpa using h)

variable (align : slAddr s i % sizeOf' i.f = 0)

include align

theorem sldBody_invalid (h : gvalid (slAddr s i) = false) : sldBody i s = .fault s (faultOf 3 6 (slAddr s i)) := by
  simp [sldBody, align, h]

theorem sstBody_invalid (h : gvalid (slAddr s i) = false) : sstBody i s = .fault s (faultOf 3 6 (slAddr s i)) := by
  simp [sstBody, align, h]

variable (valid : gvalid (slAddr s i) = true)

include valid

section Local

variable (dev : gdev (slAddr s i) = s.fab.devnum) (own : ownRange i.c (gloc (slAddr s i)) (sizeOf' i.f) = true)

include dev own

/-- An SLD of the core's own memory whose bytes are clean completes with the value they spell. -/
theorem sldBody_own (room : s.loadsOut i.c i.h + s.queuedOps i 6 < 16)
    (starts : Starts s i 60 ⟨[⟨gloc (slAddr s i), gloc (slAddr s i) + sizeOf' i.f, false⟩], []⟩)
    (read : s.readPiece (gloc (slAddr s i)) (sizeOf' i.f) = (St.ok, s.mem.readP (gloc (slAddr s i)) (sizeOf' i.f)))
    (clean : ∀ b ∈ s.mem.readP (gloc (slAddr s i)) (sizeOf' i.f), b.2 = false) : sldBody i s =
      .done (s.setSel i.c (fld i.f 20 16)
        (sldValue (leNat (s.mem.read (gloc (slAddr s i)) (sizeOf' i.f))) (sizeOf' i.f) (bitOf i.f 27))) := by
  have sound : (s.mem.readP (gloc (slAddr s i)) (sizeOf' i.f)).any (·.2) = false := by simpa using clean
  simp only [sldBody, align, valid, scalarFoot_own false dev own (sizeOf'_pos _), Nat.not_le.mpr room, dev, read, sound,
    State.admit_clear _ _ starts, Memory.map_fst_readP]
  rfl

/-- An SST to the core's own memory outside frozen ranges is a store. -/
theorem sstBody_own (thawed : s.fab.fcu = 0) (open' : s.inFrozen (gloc (slAddr s i)) (sizeOf' i.f) = false)
    (starts : Starts s i 60 ⟨[⟨gloc (slAddr s i), gloc (slAddr s i) + sizeOf' i.f, true⟩], []⟩) : sstBody i s =
      .done (s.ownStore (gloc (slAddr s i)) (le (sizeOf' i.f) (selGet (s.ctx i.c) (fld i.f 20 16)).toNat)) := by
  simp only [sstBody, align, valid, scalarFoot_own true dev own (sizeOf'_pos _), dev, open',
    State.admit_clear _ _ starts, State.ownFault_own valid dev thawed own]
  rfl

end Local

section Remote

variable (dev : gdev (slAddr s i) ≠ s.fab.devnum) (unfenced : s.fencedOff i = false) (starts : Starts s i 60 Foot.none) {u : Nat}
  {s' t : State} (num : s.uidFor i.n = (u, s'))

include dev unfenced starts num

/-- An SLD of another device whose request is accepted goes on with its register marked. -/
theorem sldBody_remote (room : s.loadsOut i.c i.h + s.queuedOps i 6 < 16)
    (sent : s'.gReadPiece (slAddr s i) (sizeOf' i.f) 1 (some i.h) (.load i.c i.h u i.pc i.f (BitVec.ofNat 64 (slAddr s i))
      (fld i.f 20 16) (sizeOf' i.f) (bitOf i.f 27)) = (.out, t)) : sldBody i s =
      .done (t.modCtx i.c fun x => { x with pend := x.pend ++ [(fld i.f 20 16, u)] }) := by
  simp only [sldBody, align, valid, scalarFoot_far false dev, Nat.not_le.mpr room, dev, unfenced,
    State.admit_clear _ _ starts, num, sent]
  rfl

/-- An SST to another device whose request is accepted goes on. -/
theorem sstBody_remote (sent : s'.gWritePiece (slAddr s i)
      ((le (sizeOf' i.f) (selGet (s.ctx i.c) (fld i.f 20 16)).toNat).map fun b => (b, false)) 1 (some i.h)
      (.store i.c i.h u i.pc i.f (BitVec.ofNat 64 (slAddr s i))) = (.out, t)) : sstBody i s = .done t := by
  simp only [sstBody, align, valid, scalarFoot_far true dev, dev, unfenced, State.admit_clear _ _ starts, num, sent]
  rfl

end Remote

end Load

/-- Settles O6: SLD's and SST's meanings by the address: unaligned, not a global address, the core's own memory, another device. -/
theorem localScalarLoadAndStore : Obligations.LocalScalarLoadAndStore := by
  refine ⟨?own, ?other⟩
  case own =>
    intro c f s g n i v bs align valid dev thawed hm own served R hz
    refine ⟨?load, ?store⟩
    case load =>
      intro hop hdst clean room starts
      have read := State.readPiece_own hm thawed own (sizeOf'_pos f) served
      exact exec_row_done (i := .sld c f) rfl ⟨hop, nofun⟩ (decodeCheck_of_zero 2 hz (selDst_iff.mpr hdst)) R
        (sldBody_own (i := s.ins c f) align valid dev own room starts read clean)
    case store =>
      intro hop hsrc hsext open' starts
      have good : (selSrc (fld f 20 16) && !bitOf f 27) = true := by simp [hsrc, hsext]
      refine ⟨exec_row_done (i := .sst c f) rfl ⟨hop, nofun⟩ (decodeCheck_of_zero 2 hz good) R
        (sstBody_own (i := s.ins c f) align valid dev own thawed open' starts), fun free => ?_⟩
      have len : bs.length = n := length_le_bytes ..
      rw [State.ownStore_of_not_inRegion (len.symm ▸ free)]
      refine ⟨(OnlyCore.refl _ c).pass s, fun b hb => Memory.byte_store_outside _ _ _ _ _ (len.symm ▸ hb), ?_⟩
      have back := Memory.read_store_part s.mem (gloc g) bs (off := 0) (k := n) (by omega)
      rwa [List.drop_zero, List.take_of_length_le len.le] at back
  case other =>
    intro c f s g n pc i s' R hz
    refine ⟨?load, ?store⟩
    case load =>
      intro hop hdst
      have dec := decodeCheck_of_zero 2 hz (selDst_iff.mpr hdst)
      exact ⟨fun h => exec_row_fault (i := .sld c f) rfl ⟨hop, nofun⟩ dec R (sldBody_unaligned (i := i) h),
        fun align h => exec_row_fault (i := .sld c f) rfl ⟨hop, nofun⟩ dec R (sldBody_invalid (i := i) align h),
        fun align valid dev unfenced starts room t sent => exec_row_done (i := .sld c f) rfl ⟨hop, nofun⟩ dec R
          (sldBody_remote (i := i) align valid dev ((State.fencedOff_ins s c f).trans unfenced) starts (State.uidFor_fresh s) room sent)⟩
    case store =>
      intro hop hsrc hsext
      have good : (selSrc (fld f 20 16) && !bitOf f 27) = true := by simp [hsrc, hsext]
      have dec := decodeCheck_of_zero 2 hz good
      exact ⟨fun h => exec_row_fault (i := .sst c f) rfl ⟨hop, nofun⟩ dec R (sstBody_unaligned (i := i) h),
        fun align h => exec_row_fault (i := .sst c f) rfl ⟨hop, nofun⟩ dec R (sstBody_invalid (i := i) align h),
        fun align valid dev unfenced starts t sent => exec_row_done (i := .sst c f) rfl ⟨hop, nofun⟩ dec R
          (sstBody_remote (i := i) align valid dev ((State.fencedOff_ins s c f).trans unfenced) starts (State.uidFor_fresh s) sent)⟩

end Sys2Proof.Machine

/-! ## Flags: FSIG, FLAG_SIGNAL_APPLY and FWAIT (R181 to R186) -/

namespace Sys2Proof.Machine

/-! ### FSIG -/

section Fsig

variable (s : State) (c : Nat) (f : Frame)

/-- The flag reference of an FSIG. -/
def fsigRef : Nat := ((s.ctx c).getA (fld f 19 16)).toNat
/-- The device, core and flag an FSIG names. -/
def fsigDev : Nat := if bitOf f 20 then s.fab.devnum else nfld (fsigRef s c f) 63 48
def fsigCore : Nat := if bitOf f 20 then c else nfld (fsigRef s c f) 23 12
def fsigFlag : Nat := if bitOf f 20 then fld f 32 21 else nfld (fsigRef s c f) 11 0

/-- Where the signal of an FSIG goes. -/
def fsigDst : SigDst :=
  if fsigDev s c f = s.fab.devnum then .here (fsigCore s c f) (fsigFlag s c f) else .far (fsigDev s c f) (fsigCore s c f) (fsigFlag s c f)

/-- The reference has nonzero reserved bits, or names a core of this device outside the map. -/
def fsigBad : Bool :=
  (!bitOf f 20 && nfld (fsigRef s c f) 47 24 != 0) || (fsigDev s c f = s.fab.devnum && !s.inMap (fsigCore s c f))

/-- The works of the core that a releasing FSIG waits for (R183). -/
def fsigReleased : List Nat :=
  if bitOf f 33 then (s.works c (s.core c).holder).filterMap fun w => if w.writes || w.out then some w.uid else none else []

/-- The core's own signals to the same flag that an FSIG stays behind (R182). -/
def fsigOwn : List Nat :=
  s.sigs.filterMap fun g => match g.src, g.dst with
    | .core c' h _ _, .here k n =>
      if c' = c && h = (s.core c).holder && k = c && n = fsigFlag s c f && fsigCore s c f = c && fsigDst s c f = g.dst then some g.uid
      else none
    | _, _ => none

theorem fsigBody_eq : fsigBody (s.ins c f) s =
    if s.fencedOff (s.ins c f) then .hold
    else if fsigBad s c f then .fault s (faultOf 3 0 (fsigRef s c f))
    else .done (s.signal (.core c (s.core c).holder (s.ctx c).pc f) (fsigDst s c f) (fld f 35 34 == 1)
      (flagArg (s.ctx c) f 36 40 37) (fsigReleased s c f ++ fsigOwn s c f)).2 := rfl

variable {s c f}

theorem mem_fsigReleased {u : Nat} (h : u ∈ fsigReleased s c f) :
    bitOf f 33 = true ∧ ∃ w ∈ s.works c (s.core c).holder, w.uid = u := by
  unfold fsigReleased at h
  split at h
  · next rel =>
    obtain ⟨w, hw, hu⟩ := List.mem_filterMap.mp h
    exact ⟨rel, w, hw, Option.some.inj (Option.ite_none_right_eq_some.mp hu).2⟩
  · cases h

theorem mem_fsigReleased_of_work {w : Work} (rel : bitOf f 33 = true) (hw : w ∈ s.works c (s.core c).holder)
    (h : w.writes = true ∨ w.out = true) : w.uid ∈ fsigReleased s c f := by
  rw [fsigReleased, if_pos rel]
  exact List.mem_filterMap.mpr ⟨w, hw, if_pos (by simpa using h)⟩

theorem mem_fsigOwn {u : Nat} (h : u ∈ fsigOwn s c f) : ∃ g ∈ s.sigs, g.uid = u ∧ g.dst = fsigDst s c f := by
  obtain ⟨g, hg, hu⟩ := List.mem_filterMap.mp h
  refine ⟨g, hg, ?_⟩
  split at hu
  · obtain ⟨same, hu⟩ := Option.ite_none_right_eq_some.mp hu
    simp only [Bool.and_eq_true, decide_eq_true_eq] at same
    exact ⟨Option.some.inj hu, same.2.symm⟩
  · cases hu

theorem fsigBad_iff : fsigBad s c f = true ↔
    bitOf f 20 = false ∧ nfld (fsigRef s c f) 47 24 ≠ 0 ∨ fsigDev s c f = s.fab.devnum ∧ s.inMap (fsigCore s c f) = false := by
  simp [fsigBad]

end Fsig

/-- The operand of a LOCAL flag instruction or of one with a reference: the field it does not use is zero (R5). -/
theorem ite_beq_zero {b : Bool} {m n : Nat} (h : if b then m = 0 else n = 0) : (if b then m == 0 else n == 0) = true := by
  cases b <;> simpa using h

/-! ### A signal that arrives -/

theorem exec_flagSignalApply (ix : Nat) (s : State) : exec (.flagSignalApply ix) s = .next (s.signalApply ix) := rfl

/-- A signal for a core of this device whose time has come is taken off and changes the flag of the program the core is served for. -/
theorem State.signalApply_here {s : State} {ix c n : Nat} {g : Sig} (hg : s.sigs[ix]? = some g) (free : g.after.any s.alive = false)
    (due : g.due ≤ s.now) (hd : g.dst = .here c n) : s.signalApply ix =
      State.modFlag { s with sigs := s.sigs.filter fun x => x.uid != g.uid } c n (signalFn g.set g.val) := by
  simp [signalApply, hg, free, Nat.not_lt.mpr due, hd]

/-! ### FWAIT -/

section Fwait

variable {s : State} {c : Nat} {f : Frame}

theorem fwaitCond_iff {cond : Nat} {x v : W32} : fwaitCond cond x v = true ↔
    if cond = 0 then x ≠ 0 else if cond = 1 then 0 ≤ (x - v).toInt else x = v := by
  rcases cond with _ | _ | cond <;> simp [fwaitCond]

/-- The frame of an FWAIT that its decoder takes (R184). -/
theorem fwait_good (cond : fld f 33 32 < 3) (val : bitOf f 34 = true → fld f 95 64 = 0)
    (tmo : if bitOf f 48 then fld f 127 96 ≠ 0 else fld f 127 96 = 0 ∧ fld f 47 45 = 0) :
    (fld f 33 32 != 3 && (!bitOf f 34 || fld f 95 64 == 0) &&
      (if bitOf f 48 then fld f 127 96 != 0 else fld f 127 96 == 0 && fld f 47 45 == 0)) = true := by
  rw [Bool.and_eq_true, Bool.and_eq_true, bne_iff_ne, imp_zero_iff]
  refine ⟨⟨by omega, val⟩, ?_⟩
  cases hb : bitOf f 48 <;> simpa [hb] using tmo

/-- The condition of an FWAIT, as its meaning finds it. -/
def fwaitMet (s : State) (c : Nat) (f : Frame) : Bool :=
  fwaitCond (fld f 33 32) ((s.ctx c).flag (fld f 31 20)) (flagArg (s.ctx c) f 34 38 35)

/-- What an FWAIT does whose condition holds: CONS takes from the flag, and TEN sets the predicate (R184). -/
def fwaitTaken (s : State) (c : Nat) (f : Frame) : State := s.modCtx c fun y =>
  let z := if bitOf f 39 then
    y.setFlag (fld f 31 20) (y.flag (fld f 31 20) - if fld f 33 32 = 0 then 1 else flagArg (s.ctx c) f 34 38 35) else y
  if bitOf f 48 then z.setP (fld f 47 45) true else z

theorem fwaitBody_met (h : fwaitMet s c f = true) : fwaitBody (s.ins c f) s = .done (fwaitTaken s c f) := if_pos h

variable (h : ¬ fwaitMet s c f = true)

include h

theorem fwaitBody_waits (ten : bitOf f 48 = false) : fwaitBody (s.ins c f) s = .hold :=
  (if_neg h).trans (if_neg (by simp [ten]))

theorem fwaitBody_expired (ten : bitOf f 48 = true) (elapsed : fld f 127 96 ≤ waited (s.ctx c)) : fwaitBody (s.ins c f) s =
    .done (s.modCtx c fun y => y.setP (fld f 47 45) false) := by
  refine (if_neg h).trans ((if_pos (by simp [ten, elapsed])).trans ?_)
  simp [ten]

end Fwait

theorem exec_fwaitTimeout (c : Nat) (s : State) : exec (.fwaitTimeout c) s = .next (s.fwaitExpire c) := rfl

/-- An FWAIT that its core holds, whose TMO has elapsed, tries to issue (R184). -/
theorem State.fwaitExpire_elapsed {s : State} {c : Nat} {w : Hold} (runs : (s.core c).st = 1) (hold : (s.ctx c).hold = some w)
    (hop : opcode w.frame = 0x11) (ten : bitOf w.frame 48 = true) (elapsed : fld w.frame 127 96 ≤ w.waited) :
    s.fwaitExpire c = runFwait c w.frame s := by
  have op : w.frame.toNat % 256 = 0x11 := hop
  simp only [fwaitExpire, hold]
  exact if_pos (by simp [runs, op, ten, elapsed])

/-- Settles O7: FSIG by `fsigBody_eq`, a signal that arrives by `State.signalApply_here`, and FWAIT by its condition. -/
theorem flagInstructionsAndSignals : Obligations.FlagInstructionsAndSignals := by
  refine ⟨?fsig, ?apply, ?fwait⟩
  case fsig =>
    intro c f s hop hz hset hloc hval R v ref dev core flag bad dst work
    have good : (decide (fld f 35 34 < 2) && (if bitOf f 20 then fld f 19 16 == 0 else fld f 32 21 == 0) &&
        (!bitOf f 36 || fld f 95 64 == 0)) = true := by
      rw [Bool.and_eq_true, Bool.and_eq_true, decide_eq_true_eq, imp_zero_iff]
      exact ⟨⟨hset, ite_beq_zero hloc⟩, hval⟩
    have dec := decodeCheck_of_zero 2 hz good
    have fence := State.fencedOff_ins s c f
    refine ⟨fun fenced => ?waits, fun free hbad => ?faults, fun free hbad =>
      ⟨fsigReleased s c f ++ fsigOwn s c f, ?only, ?all, ?sends⟩⟩
    case waits =>
      exact exec_row_hold (i := .fsig c f) rfl ⟨hop, nofun⟩ dec R ((fsigBody_eq s c f).trans (if_pos (fence.trans fenced)))
    case faults =>
      have body := (fsigBody_eq s c f).trans ((if_neg (by simp [fence, free])).trans (if_pos (fsigBad_iff.mpr hbad)))
      exact exec_row_fault (i := .fsig c f) rfl ⟨hop, nofun⟩ dec R body
    case only =>
      intro u hu
      rcases List.mem_append.mp hu with rel | own
      · exact .inr (mem_fsigReleased rel)
      · exact .inl (mem_fsigOwn own)
    case all => exact fun rel w hw h => List.mem_append_left _ (mem_fsigReleased_of_work rel hw h)
    case sends =>
      have body := (fsigBody_eq s c f).trans ((if_neg (by simp [fence, free])).trans (if_neg (fsigBad_iff.not.mpr hbad)))
      exact exec_row_done (i := .fsig c f) rfl ⟨hop, nofun⟩ dec R body
  case apply =>
    intro s ix g c n hg free due hd t
    rw [exec_flagSignalApply, State.signalApply_here hg free due hd]
    rfl
  case fwait =>
    intro c f s hop hz cond val tmo R v x met
    have dec := decodeCheck_of_zero 2 hz (fwait_good cond val tmo)
    have hmet : fwaitMet s c f = true ↔ met := fwaitCond_iff
    refine ⟨fun h => ?taken, fun h ten => ?waits, fun h ten w hw elapsed => ?expired⟩
    case taken => exact exec_row_done (i := .fwait c f) rfl ⟨hop, nofun⟩ dec R (fwaitBody_met (hmet.mpr h))
    case waits => exact exec_row_hold (i := .fwait c f) rfl ⟨hop, nofun⟩ dec R (fwaitBody_waits (hmet.not.mpr h) ten)
    case expired =>
      obtain rfl : w.frame = f := R.front w hw
      have late : fld w.frame 127 96 ≤ waited (s.ctx c) := by simpa [waited, hw] using elapsed
      rw [exec_fwaitTimeout, State.fwaitExpire_elapsed R.runs hw hop ten elapsed, runFwait, dec,
        State.issueCore_done R (fwaitBody_expired (hmet.not.mpr h) ten late)]

end Sys2Proof.Machine

/-! ## Fault records and programs that stop (R165, R196, R197) -/

namespace Sys2Proof.Machine

/-! ### Bytes of a record -/

theorem zeros_eq_le (n : Nat) : zeros n = le n 0 := by
  induction n with
  | zero => rfl
  | succ n ih => rw [le, Nat.zero_div, ← ih]; rfl

theorem rd_le_append (n v : Nat) (bs : List Byte) : rd (le n v ++ bs) 0 n = v % 256 ^ n := by
  rw [rd, List.drop_zero, List.take_left' (length_le_bytes n v), leNat_le]

theorem rd_skip {n off : Nat} (h : n ≤ off) (v k : Nat) (bs : List Byte) : rd (le n v ++ bs) off k = rd bs (off - n) k := by
  obtain ⟨d, rfl⟩ := Nat.exists_eq_add_of_le h
  rw [rd, rd, ← List.drop_drop, List.drop_left' (length_le_bytes n v), Nat.add_sub_cancel_left]

theorem length_fit (n : Nat) (bs : List Byte) : (fit n bs).length = n := by
  simp [fit, zeros]
  omega

theorem fit_eq_take {n : Nat} {bs : List Byte} (h : n ≤ bs.length) : fit n bs = bs.take n := by
  simp [fit, zeros, Nat.sub_eq_zero_of_le h]

section Patch

variable (bs v : List Byte) (off : Nat)

theorem take_patch : (patch bs off v).take off = fit off bs := by
  rw [patch, List.append_assoc, List.take_left' (length_fit off bs)]

theorem drop_patch : (patch bs off v).drop (off + v.length) = bs.drop (off + v.length) := by
  rw [patch, List.drop_left' (by rw [List.length_append, length_fit])]

/-- A patch reads back. -/
theorem rd_patch (n k : Nat) : rd (patch bs off (le n k)) off n = k % 256 ^ n := by
  rw [rd, patch, List.append_assoc, List.drop_left' (length_fit off bs), List.take_left' (length_le_bytes n k), leNat_le]

/-- Patching in the bytes that stand there changes nothing. -/
theorem patch_same {pre suf : List Byte} (h : pre.length = off) : patch (pre ++ v ++ suf) off v = pre ++ v ++ suf := by
  have head : fit off (pre ++ v ++ suf) = pre := by
    rw [fit_eq_take (by simp [h]), List.append_assoc, List.take_left' h]
  rw [patch, head, List.drop_left' (by simp [h])]

end Patch

section Record

variable (s : State) (f : FaultInfo) (c h pc : Nat) (fr : Frame) (p : Prog)

/-- The bytes of a fault record before the number it has among its program's records, and those behind it (R196). -/
def recordHead : List Byte := le 1 f.cause ++ (le 1 f.unit ++ (le 2 c ++ (le 2 h ++ le 1 (p.slot.getD 0xFF))))
def recordTail : List Byte := le 8 pc ++ (le 16 fr.toNat ++ (le 8 f.addr.toNat ++ (le 2 f.status ++ (le 2 0 ++ (le 4 f.detail ++
  (le 8 s.ftime.toNat ++ le 8 0))))))

theorem length_recordHead : (recordHead f c h p).length = 7 := by simp [recordHead]
theorem length_recordTail : (recordTail s f pc fr).length = 56 := by simp [recordTail]

theorem faultRecord_eq : s.faultRecord f c h p pc fr = recordHead f c h p ++ le 1 p.recs.length ++ recordTail s f pc fr := by
  simp [State.faultRecord, recordHead, recordTail, zeros_eq_le]

theorem length_faultRecord : (s.faultRecord f c h p pc fr).length = 64 := by
  simp [faultRecord_eq, length_recordHead, length_recordTail]

/-- The fields of a fault record, at their places (R196). -/
theorem rd_faultRecord : let r := s.faultRecord f c h p pc fr
    rd r 0 1 = f.cause % 256 ∧ rd r 1 1 = f.unit % 256 ∧ rd r 2 2 = c % 256 ^ 2 ∧ rd r 4 2 = h % 256 ^ 2 ∧
    rd r 8 8 = pc % 256 ^ 8 ∧ rd r 0x10 16 = fr.toNat ∧ rd r 0x20 8 = f.addr.toNat ∧ rd r 0x28 2 = f.status % 256 ^ 2 ∧
    rd r 0x2C 4 = f.detail % 256 ^ 4 ∧ rd r 0x30 8 = s.ftime.toNat := by
  intro r
  have frame : fr.toNat % 256 ^ 16 = fr.toNat := Nat.mod_eq_of_lt fr.isLt
  have addr : f.addr.toNat % 256 ^ 8 = f.addr.toNat := Nat.mod_eq_of_lt f.addr.isLt
  have time : s.ftime.toNat % 256 ^ 8 = s.ftime.toNat := Nat.mod_eq_of_lt s.ftime.isLt
  simp only [r, faultRecord_eq, recordHead, recordTail, List.append_assoc]
  refine ⟨?_, ?_, ?_, ?_, ?_, ?_, ?_, ?_, ?_, ?_⟩
  all_goals simp [rd_skip, rd_le_append, frame, addr, time, -Nat.reducePow]

/-! ### The records of a program -/

variable (r : List Byte)

/-- Does a fault of core `c` come in front of those of the same cycle (R197)? -/
def recordFirst : Bool := p.fail && (match p.recs.head? with | some q => decide (c < rd q 2 2) | none => false)

/-- The records with the new one among them, before they are numbered. -/
def recordsWith : List (List Byte) :=
  if recordFirst c p then (r :: p.recs).take 16 else if p.recs.length < 16 then p.recs ++ [r] else p.recs

theorem addRecord_recs : (State.addRecord p c r).recs = (recordsWith c p r).zipIdx.map fun q => patch q.1 7 (le 1 q.2) := rfl

theorem getElem?_addRecord (k : Nat) :
    (State.addRecord p c r).recs[k]? = (recordsWith c p r)[k]?.map fun y => patch y 7 (le 1 k) := by
  rw [addRecord_recs, List.getElem?_map, List.getElem?_zipIdx, Option.map_map, Nat.zero_add]
  rfl

theorem length_addRecord (full : p.recs.length ≤ 16) : (State.addRecord p c r).recs.length = min 16 (p.recs.length + 1) := by
  rw [addRecord_recs, List.length_map, List.length_zipIdx, recordsWith]
  split
  · rw [List.length_take, List.length_cons]
  · split
    · rw [List.length_append, List.length_singleton]
      omega
    · omega

theorem recordsWith_of_first (h : recordFirst c p = true) : recordsWith c p r = (r :: p.recs).take 16 := if_pos h

theorem recordsWith_of_room (h : recordFirst c p = false) (room : p.recs.length < 16) : recordsWith c p r = p.recs ++ [r] :=
  (if_neg (by simp [h])).trans (if_pos room)

end Record

/-! ### Programs that stop -/

namespace State

variable {s : State} {h st : Nat} {p : Prog}

theorem stopProgram_of_inactive (hp : ∀ p, s.prog h = some p → p.active = false) : s.stopProgram h st = s := by
  unfold stopProgram
  split
  · rfl
  · next p e => simp [hp p e]

theorem stopBare_of_inactive (hp : ∀ p, s.prog h = some p → p.active = false) : s.stopBare h st = s := by
  unfold stopBare
  split
  · rfl
  · next p e => simp [hp p e]

theorem progFault_of_inactive (hp : ∀ p, s.prog h = some p → p.active = false) (hs : ∀ p, s.prog h = some p → p.st ≠ 5)
    (c pc : Nat) (fr : Frame) (f : FaultInfo) : s.progFault c h pc fr f = s := by
  unfold progFault
  split
  · rfl
  · next p e => simp [hp p e, hs p e]

theorem active_st_ne (ha : p.active = true) : p.st ≠ 5 := by
  intro e
  simp [Prog.active, e] at ha

/-- The fault of an active program is recorded, and the core of a running one stops (R197). -/
theorem progFault_of_active (hp : s.prog h = some p) (ha : p.active = true) (c pc : Nat) (fr : Frame) (f : FaultInfo) :
    s.progFault c h pc fr f =
      let t := s.setProg h { addRecord p c (s.faultRecord f c h p pc fr) with fail := true }
      if p.st = 3 then (t.modCore c fun k => { k with fault := s.faultRecord f c h p pc fr }).haltCore c h 4 else t := by
  simp only [progFault, hp, if_neg (active_st_ne ha), ha, Bool.not_true, Bool.false_eq_true, if_false]

theorem failOne_of_failed (hp : s.prog h = some p) (fail : p.fail = true) (ha : p.active = true) :
    s.failOne h = s.stopProgram h 6 := by
  simp [failOne, hp, fail, ha]

/-- What becomes of the entry of a program that stops: its state code and no slot, its records kept (R165). -/
def stopped (p : Prog) (st run : Nat) (saved : SMap Saved) : Prog :=
  { p with st := st, slot := none, fail := false, runFrom := none, runCyc := run, saved := saved, recs := p.recs, nfault := p.nfault }

/-- Stopping an active program ends with its entry written and the program off the waiting ones. -/
theorem stopBare_of_active (hp : s.prog h = some p) (ha : p.active = true) (st : Nat) : ∃ (t : State) (run : Nat) (saved : SMap Saved)
    (streams : SMap Stream), s.stopBare h st = State.event
      { t.setProg h (stopped p st run saved) with rot := t.rot.filter (· != h), streams := streams } 1 0
      (BitVec.ofNat 64 h) (BitVec.ofNat 64 st) := by
  unfold stopBare
  simp only [hp, ha, Bool.not_true, Bool.false_eq_true, if_false]
  exact ⟨_, _, _, _, rfl⟩

end State

/-- Settles O11: the record's bytes (`rd_faultRecord`), its place among the others (`recordsWith`), and what stopping leaves of a
program's entry (`State.stopBare_of_active`). -/
theorem faultsAreRecordedAndStopTheProgram : Obligations.FaultsAreRecordedAndStopTheProgram := by
  refine ⟨?fault, fun s h p hp fail ha => State.failOne_of_failed hp fail ha, ?stop, fun s h st hp =>
    ⟨State.stopProgram_of_inactive hp, State.stopBare_of_inactive hp, fun hs => State.progFault_of_inactive hp hs⟩⟩
  case fault =>
    intro s c h pc fr f p hp ha r q
    obtain ⟨cause, unit, core, handle, pc', frame, addr, status, detail, time⟩ := rd_faultRecord s f c h pc fr p
    refine ⟨length_faultRecord .., cause, unit, core, handle, pc', frame, addr, status, detail, time, rfl,
      length_addRecord c p r, fun k x hx => ?number, fun room fail => ?behind, fun y fail head lower => ?front,
      State.progFault_of_active hp ha c pc fr f⟩
    case number =>
      rw [getElem?_addRecord] at hx
      obtain ⟨y, -, rfl⟩ := Option.map_eq_some_iff.mp hx
      exact rd_patch y 7 1 k
    case behind =>
      have last : recordFirst c p = false := by simp [recordFirst, fail]
      have own : patch r 7 (le 1 p.recs.length) = r := by
        simp only [r, faultRecord_eq]
        exact patch_same _ 7 (length_recordHead f c h p)
      rw [getElem?_addRecord, recordsWith_of_room c p r last room, List.getElem?_concat_length, Option.map_some, own]
    case front =>
      have first : recordFirst c p = true := by simp [recordFirst, fail, head, lower]
      refine ⟨patch r 7 (le 1 0), ?_, ?_, drop_patch r (le 1 0) 7⟩
      · rw [List.head?_eq_getElem?, getElem?_addRecord, recordsWith_of_first c p r first]
        rfl
      · rw [take_patch, fit_eq_take]
        exact (length_faultRecord ..).symm ▸ (by decide)
  case stop =>
    intro s h st p hp ha
    obtain ⟨t, run, saved, streams, e⟩ := State.stopBare_of_active hp ha st
    refine ⟨State.stopped p st run saved, ?_, rfl, rfl, rfl, rfl, rfl, rfl, rfl, ?_⟩
    · rw [e, State.prog, State.event_progs]
      exact State.prog_setProg_same ..
    · simp [e]

end Sys2Proof.Machine

/-! # Attention walks: when one starts, and what finishing one does (R215 to R222, R228) -/

namespace Sys2Proof.Machine

/-! ## What an attention instruction uses for itself (R218, R219, R228) -/

/-- When its four banks are released, no engine of a matrix unit holds a live accumulator. -/
theorem Matrix.live_release_all (m : Matrix) : (iterate 4 m fun b m => m.release b).live = 0 := by
  simp only [iterate, List.range, List.range.loop, List.foldl, release, setLive, Bool.false_eq_true, if_false, BitVec.and_assoc]
  exact (congrArg (m.live &&& ·) (by decide)).trans BitVec.and_zero

namespace State

variable {s : State} {c : Nat} {a : Attn}

@[simp] theorem freeAcc_kv (s : State) (c : Nat) (ks : List Nat) : (s.freeAcc c ks).kv = s.kv := rfl
@[simp] theorem freeAcc_mem (s : State) (c : Nat) (ks : List Nat) : (s.freeAcc c ks).mem = s.mem := rfl
@[simp] theorem freeVregs_kv (s : State) (c : Nat) (vs : List Nat) : (s.freeVregs c vs).kv = s.kv := rfl
@[simp] theorem freeVregs_mem (s : State) (c : Nat) (vs : List Nat) : (s.freeVregs c vs).mem = s.mem := rfl

theorem freeAcc_mx_live (s : State) (c : Nat) (ks : List Nat) : ((s.freeAcc c ks).mx c).live = (s.mx c).live := by
  rw [mx, freeAcc, ctx_modCtx_same]
  rfl

theorem freeVregs_mx (s : State) (c : Nat) (vs : List Nat) : (s.freeVregs c vs).mx c = s.mx c := by
  have W : ∀ k (x : Ctx), Ctx.Within Set.univ ∅ x
      (vs.zipIdx.foldl (fun x (y : Nat × Nat) => x.setV y.1 (Config.freeVec (k + y.2))) x) :=
    fun k x => (Ctx.Within.refl _ _ x).foldl fun y _ _ h => h.setV (Set.mem_univ y.1) _
  rw [mx, freeVregs, ctx_modCtx_same, (W _ _).rest]
  rfl

@[simp] theorem attnFree_kv (s : State) (c : Nat) (a : Attn) : (s.attnFree c a).kv = s.kv := by
  rw [attnFree, forget_kv, forget_kv, freeVregs_kv, freeAcc_kv, modCtx_kv]

/-- From start to end of an attention instruction no bank is live. -/
theorem attnFree_live (s : State) (c : Nat) (a : Attn) : ((s.attnFree c a).mx c).live = 0 := by
  have h : ∀ (t : State) (b d e g : Nat), ((t.forget b d).forget e g).mx c = t.mx c := fun _ _ _ _ _ => rfl
  rw [attnFree, h, freeVregs_mx, freeAcc_mx_live, mx, ctx_modCtx_same, Matrix.live_release_all]

theorem attnFree_byte {q : KvPool} {x : Nat} (hq : s.kvPool a.desc.pool = some q)
    (ring : x < a.desc.ring ∨ a.desc.ring + a.desc.rslots * 32 * q.hdim * q.fmt.bytes + 4096 ≤ x)
    (park : x < a.desc.park ∨ a.desc.park + (a.desc.npark + 1) * 128 * q.hdim ≤ x) :
    (s.attnFree c a).mem.byte x = s.mem.byte x := by
  simp only [attnFree, hq]
  rw [forget, Memory.byte_forget_outside _ _ _ _ _ park, forget, Memory.byte_forget_outside _ _ _ _ _ (by omega), freeVregs_mem,
    freeAcc_mem, modCtx_mem]

/-! ## Walks that start (R215, R219) -/

/-- The record of an entry is used, and its length, version and pages are latched for its walk. -/
def walkLatched (s : State) (a : Attn) (ix : Nat) (e : AttEntry) (r : KvSeq) : State :=
  let t := s.setSeq e.seq { r with resident := true, lastUse := s.now }
  { t with kv := { t.kv with latches := t.kv.latches ++ [⟨.walk a.uid ix, e.seq, r.len, r.ver, r.pages⟩] } }

/-- The walk of entry `ix` has started: its record is latched, and the walk holds length and version. -/
def walkBegun (s : State) (c : Nat) (a : Attn) (ix : Nat) (e : AttEntry) (r : KvSeq) : State :=
  (s.walkLatched a ix e r).setWalk c ix ⟨2, r.len, r.ver⟩

section Begin

variable {ix : Nat} {e : AttEntry} {r : KvSeq}

theorem attn_setWalk (ha : s.attn c = some a) (ix : Nat) (w : Walk) :
    (s.setWalk c ix w).attn c = some { a with walks := a.walks.set ix w } := by
  have hc : (s.ctx c).attn = some a := ha
  rw [attn, setWalk, modAttn, ctx_modCtx_same, hc, Option.map_some]

theorem attn_walkBegun (ha : s.attn c = some a) :
    (s.walkBegun c a ix e r).attn c = some { a with walks := a.walks.set ix ⟨2, r.len, r.ver⟩ } :=
  attn_setWalk (s := s.walkLatched a ix e r) ha ix _

@[simp] theorem latches_walkBegun : (s.walkBegun c a ix e r).kv.latches =
    s.kv.latches ++ [⟨.walk a.uid ix, e.seq, r.len, r.ver, r.pages⟩] := rfl

@[simp] theorem mem_walkBegun : (s.walkBegun c a ix e r).mem = s.mem := rfl

theorem useSeq_resident (res : r.resident = true) (n : Nat) :
    s.useSeq n r = some (s.setSeq n { r with resident := true, lastUse := s.now }) := if_pos (by simp [res])

/-- A walk whose record is resident starts; a backward one of MODE 1 has a page of it. -/
theorem beginWalk_resident {q : KvPool} (he : a.entries[ix]? = some e) (hq : s.kvPool a.desc.pool = some q) (inUse : q.phase = 2)
    (hr : s.kvSeq e.seq = some r) (res : r.resident = true)
    (page : a.bwd = true → a.mode = 1 → e.page < (r.len + 15) / 16) : s.beginWalk c a ix = .ok (s.walkBegun c a ix e r) := by
  have hp : (a.bwd && decide (a.mode = 1) && decide ((r.len + 15) / 16 ≤ e.page)) = false := by
    simp only [Bool.and_eq_false_imp, Bool.and_eq_true, decide_eq_true_eq, decide_eq_false_iff_not, Nat.not_le]
    exact fun h => page h.1 h.2
  have up : (q.phase != 2) = false := by simp [inUse]
  simp only [beginWalk, he, hq, hr, hp, up, Bool.false_eq_true, if_false, useSeq_resident res]
  rfl

end Begin

/-! ## The event WALK_COMPLETE (R215, R219, R221) -/

section Complete

variable {ix : Nat} {e : AttEntry} {w : Walk} (ha : s.attn c = some a) (runs : s.running c = true) (he : a.entries[ix]? = some e)
  (hw : a.walks[ix]? = some w)
include ha runs he hw

theorem walkComplete_finished (h : w.phase = 3) : s.walkComplete c ix = s := by
  simp [walkComplete, ha, runs, he, hw, h]

theorem walkComplete_parked (h : w.phase = 0) (full : a.desc.npark < (a.walks.filter fun x => x.phase == 2).length) :
    s.walkComplete c ix = s := by
  simp [walkComplete, ha, runs, he, hw, h, full]

/-- An entry that continues no other and finds at most NPARK under way starts. -/
theorem walkComplete_begins {t : State} (h : w.phase = 0) (room : (a.walks.filter fun x => x.phase == 2).length ≤ a.desc.npark)
    (alone : e.cont = false) (begun : s.beginWalk c a ix = .ok t) : s.walkComplete c ix = t := by
  simp [walkComplete, ha, runs, he, hw, h, Nat.not_lt.mpr room, alone, begun]

/-- What a forward entry does once its keys and values have come: it is attended and stored, and its fetch goes. -/
def attended (s : State) (c : Nat) (a : Attn) (e : AttEntry) (w : Walk) (ix : Nat) (q : KvPool) (f : Fetch) (pages : SMap Nat)
    (tiles : List Nat) : State :=
  dropFetch (fwdEntry (s.touchPages a.desc.pool pages tiles) c a e w q (tilesOf f q w.len tiles)) (.walk a.uid ix)

/-- After an entry the next one starts, where the instruction has one, or faults. -/
def goOn (s : State) (c : Nat) (a : Attn) : State :=
  match (s.endAttn c).nextWalk c with
  | .ok t => t
  | .error i => s.fault c a.pc a.frame i

theorem walkComplete_forward (h : w.phase = 2) (fwd : a.bwd = false) {q : KvPool} {lt : Latch} {f : Fetch}
    {rs : List (List (Nat × Nat))} {ps tiles : List Nat} (hps : (List.range e.nrows).map e.pos = ps)
    (htiles : fedTiles s a.desc w.len ps = tiles) (hq : s.kvPool a.desc.pool = some q)
    (hl : (s.kv.latches.find? fun l => l.holder == .walk a.uid ix) = some lt)
    (sound : s.walkFault c a e w.len q.hdim ps (s.rowsRead a e w.len tiles) = none)
    (straight : (s.touchPages a.desc.pool lt.pages tiles).tableBent q e.seq tiles = false)
    (mapped : (tiles.map fun p => s.pageRanges q e lt.pages p).mapM id = some rs) (hf : s.fetch? (.walk a.uid ix) = some f)
    (here : f.missing = 0) (good : f.status = St.ok) (clean : f.pois = []) : s.walkComplete c ix =
      ((s.attended c a e w ix q f lt.pages tiles).walkEnd c a ix w false).goOn c a := by
  have rows : AttEntry.rows false a.mode e = e.nrows := rfl
  simp only [walkComplete, ha, runs, he, hw, h, fwd, hq, hl, rows, hps, htiles, sound, straight, mapped, hf, here, good, clean,
    attended, Bool.not_true, Bool.false_and, Bool.false_eq_true, if_false, bne_self_eq_false, List.isEmpty_nil, Nat.reduceLeDiff,
    Nat.reduceEqDiff]
  rfl

end Complete

/-- When every entry has finished, no attention instruction is under way and no bank is live. -/
theorem endAttn_finished (ha : s.attn c = some a) (h : ∀ x ∈ a.walks, x.phase = 3) :
    (s.endAttn c).attn c = none ∧ ((s.endAttn c).mx c).live = 0 := by
  have e : s.endAttn c = (s.attnFree c a).modCtx c fun x => { x with attn := none } := by
    have all : (a.walks.all fun w => w.phase == 3) = true := by simpa using h
    simp only [endAttn, ha, all, if_true]
  have dead := attnFree_live s c a
  rw [mx] at dead
  rw [e, attn, mx, ctx_modCtx_same]
  exact ⟨rfl, by rw [dead]⟩

end State

theorem exec_walkComplete (c ix : Nat) (s : State) : exec (.walkComplete c ix) s = .next (s.walkComplete c ix) := rfl

/-- Settles O40: each case is an equation of WALK_COMPLETE, what starting a walk latches is `State.walkBegun`, and the end of the
instruction is `State.endAttn_finished`. -/
theorem attentionWalksStartAndFinish : Obligations.AttentionWalksStartAndFinish := by
  intro s c ix a e w ha runs he hw going
  refine ⟨fun h => ?finished, fun h full => ?parked, fun h room alone q r hq inUse hr res fwd => ?begins,
    fun h fwd q lt f rs hq hl => ?forward, fun h => ?ends⟩
  case finished => rw [exec_walkComplete, State.walkComplete_finished ha runs he hw h]
  case parked => rw [exec_walkComplete, State.walkComplete_parked ha runs he hw h full]
  case begins =>
    have begun : s.beginWalk c a ix = .ok (s.walkBegun c a ix e r) :=
      State.beginWalk_resident he hq inUse hr res fun bwd => absurd (bwd.symm.trans fwd) Bool.noConfusion
    refine ⟨_, by rw [exec_walkComplete, State.walkComplete_begins ha runs he hw h room alone begun], State.latches_walkBegun,
      State.mem_walkBegun, _, State.attn_walkBegun ha, rfl, rfl⟩
  case forward =>
    intro ps tiles sound straight mapped hf here good clean
    rw [exec_walkComplete,
      State.walkComplete_forward ha runs he hw h fwd rfl rfl hq hl sound straight mapped hf here good clean]
    rfl
  case ends =>
    obtain ⟨gone, dead⟩ := State.endAttn_finished ha h
    exact ⟨gone, fun k _ => by simp [dead]⟩

end Sys2Proof.Machine

/-! # Instructions that hand work over: attention, KV edits, HALO, stem jobs, atomics, descriptors and buckets

Each lemma `…Body_…` says what an instruction's meaning answers when nothing is in its way; `exec_row_done` is the rest of its issue. -/

namespace Sys2Proof.Machine

@[simp] theorem State.ins_h {s : State} {c : Nat} {f : Frame} : (s.ins c f).h = (s.core c).holder := rfl

/-- A scalar register as an instruction reads it. -/
theorem toNat_getA (s : State) (c : Nat) (f : Frame) (hi lo : Nat) : ((s.ctx c).getA (fld f hi lo)).toNat = areg s c f hi lo := rfl

/-! ## KVOP, stem instructions, BFILL and OPTIM (R206, R225, R258, R390, R407) -/

section Bodies

variable {s : State} {c : Nat} {f : Frame}

theorem kvopBody_done (align : areg s c f 19 16 % 16 = 0) (own : s.ownFault c (areg s c f 19 16) 32 0x93 4 = none)
    (room : s.editsOut c (s.core c).holder + s.queuedOps (s.ins c f) 0x94 < 8)
    (starts : Starts s (s.ins c f) 41 ⟨[⟨gloc (areg s c f 19 16), gloc (areg s c f 19 16) + 32, true⟩], []⟩)
    (clean : s.poisoned (gloc (areg s c f 19 16)) 16 = false) {after : List Nat} {b : List Byte}
    (hafter : ((s.works c (s.core c).holder).filterMap fun w =>
      if (w.writes || w.out) && decide (w.uid < s.fresh) then some w.uid else none) = after)
    (hb : s.read (gloc (areg s c f 19 16)) 16 = b) : kvopBody (s.ins c f) s =
      .done { s with
        fresh := s.fresh + 1
        kv := { s.kv with edits := s.kv.edits ++ [⟨s.fresh, .core c (s.core c).holder (gloc (areg s c f 19 16)) (fld f 31 20), after,
          rd b 0 1, rd b 4 4, rd b 8 4, rd b 1 3 != 0 || rd b 0xC 4 != 0, if after.isEmpty then s.fresh + 1 else 0⟩] } } := by
  have checks : firstFault [need (areg s c f 19 16 % 16 == 0) 0x94 4 (areg s c f 19 16), s.ownFault c (areg s c f 19 16) 32 0x93 4] =
      none := by
    simp [firstFault_eq_none, align, own]
  subst hafter hb
  simp only [kvopBody, State.ins_c, State.ins_f, State.ins_h, State.ins_n, State.uidFor_fresh, toNat_getA, checks]
  rw [if_neg (Nat.not_le.mpr room), State.admit_clear _ _ starts, if_neg (Bool.eq_false_iff.mp clean)]
  rfl

theorem stemBody_done (room : ((s.works c (s.core c).holder).filter fun w => w.unit == 7).length < 4) : stemBody (s.ins c f) s =
    .done { s with
      fresh := s.fresh + 1
      sreq := s.sreq ++ [⟨s.fresh, c, (s.core c).holder, f, (s.ctx c).pc, areg s c f 19 16, [], 0⟩] } := by
  simp only [stemBody, State.ins_c, State.ins_f, State.ins_h, State.ins_pc, Nat.not_le.mpr room, if_false, State.uid]

section Bucket

variable {x : Bucket} (idle : s.busy (s.ins c f) (·.writes) = false) (hx : s.bucket? (fld f 27 20) = some x)
  (pos : 0 < areg s c f 19 16)
include idle hx pos

theorem bfillBody_part (more : x.fill + areg s c f 19 16 < x.df.valid) : bfillBody (s.ins c f) s =
    .done (s.setBucket (fld f 27 20) { x with fill := x.fill + areg s c f 19 16 }) := by
  simp only [areg] at pos more
  simp [bfillBody, idle, hx, areg, Nat.pos_iff_ne_zero.mp pos, Nat.not_lt.mpr more.le, more.ne]

theorem bfillBody_full (last : x.fill + areg s c f 19 16 = x.df.valid) (notFull : x.full = false) : bfillBody (s.ins c f) s =
    .done (s.setBucket (fld f 27 20) { x with fill := 0, full := true }) := by
  simp only [areg] at pos last
  simp [bfillBody, idle, hx, Nat.pos_iff_ne_zero.mp pos, last, notFull]

end Bucket

theorem optimBody_clear (free : s.uploading (s.ins c f) = false) (C : (optimOp (s.ins c f) s).Clear (s.ins c f) s) :
    optimBody (s.ins c f) s = .done ((optimOp (s.ins c f) s).act s) := by
  simp [optimBody, free, C.sound, C.late, C.clean, C.open', State.admit_clear _ _ C.free]

/-! ## SPOST (R315) -/

theorem spostBody_done {y : Stream} (align : areg s c f 23 20 % 64 = 0) (own : s.ownFault c (areg s c f 23 20) 64 0x23 5 = none)
    (named : areg s c f 19 16 < 2 ^ 24) (hy : s.stream? (areg s c f 19 16) = some y) (mine : y.owner = .prog (s.core c).holder)
    (up : y.stopped = false)
    (starts : Starts s (s.ins c f) 50 ⟨[⟨gloc (areg s c f 23 20), gloc (areg s c f 23 20) + 64, false⟩], []⟩)
    (room : s.spostsOut c (s.core c).holder + s.queuedOps (s.ins c f) 0x20 < 8) {rel : List Nat}
    (hrel : (if bitOf f 24 then (s.works c (s.core c).holder).filterMap
      (fun w => if w.writes && decide (w.uid < s.fresh) then some w.uid else none) else []) = rel) : spostBody (s.ins c f) s =
      .done (State.deliver (s.sposts.length + 1) { s with
        fresh := s.fresh + 1
        sposts := s.sposts ++ [⟨s.fresh, c, (s.core c).holder, (s.ctx c).pc, f, areg s c f 19 16,
          s.read (gloc (areg s c f 23 20)) 64, rel⟩] }) := by
  have checks : firstFault [need (areg s c f 23 20 % 64 == 0) 0x24 5 (areg s c f 23 20), s.ownFault c (areg s c f 23 20) 64 0x23 5,
      need (decide (areg s c f 19 16 < 2 ^ 24) && (y.owner == Owner.prog (s.core c).holder && !y.stopped)) 0x22 5] = none := by
    simpa [firstFault_eq_none, align, own, mine, up] using named
  subst hrel
  simp only [spostBody, hy, State.ins_c, State.ins_f, State.ins_h, State.ins_n, State.ins_pc, State.uidFor_fresh, toNat_getA,
    Nat.not_le.mpr room, if_false, State.admit_clear _ _ starts, List.length_append, List.length_singleton]
  split
  next x h => exact absurd (h.symm.trans checks) (Option.some_ne_none x)
  next => rfl

/-! ## HALO (R255 to R257) -/

section Halo

variable {d : List Byte} {k : W32} (align : areg s c f 23 20 % 16 = 0) (own : s.ownFault c (areg s c f 23 20) 32 0xA4 0 = none)
  (free : s.conflict (s.ins c f) ⟨[⟨gloc (areg s c f 23 20), gloc (areg s c f 23 20) + 32, false⟩], []⟩ = false)
  (clean : s.poisoned (gloc (areg s c f 23 20)) 32 = false) (hd : s.read (gloc (areg s c f 23 20)) 32 = d)
  (hk : BitVec.ofNat 32 (areg s c f 27 24) = k)
include align own free clean hd hk

/-- A HALO whose link descriptor is sound goes on with it and its stripe number. -/
theorem withLink_sound {role : Nat} (sound : haloFault s d role = none) (next : List Byte → W32 → IRes) :
    withLink role (s.ins c f) s next = next d k := by
  have checks : firstFault [need (areg s c f 23 20 % 16 == 0) 0xA5 0 (areg s c f 23 20), s.ownFault c (areg s c f 23 20) 32 0xA4 0] =
      none := by
    simp [firstFault_eq_none, align, own]
  simp only [withLink, State.ins_c, State.ins_f, checks, free, clean, hd, hk, sound, Bool.false_eq_true, if_false]

theorem haloSendBody_done {n dst : Nat} {w : Nat × Nat × State} (hn : rd d 0x10 4 = n) (hdst : rd d 8 8 + k.toNat % 2 * n = dst)
    (sound : haloFault s d 0 = none) (salign : areg s c f 31 28 % 16 = 0) (sown : s.ownFault c (areg s c f 31 28) n 0xA4 0 = none)
    (taken : 0 ≤ ((s.ctx c).flag (rd d 0x14 2) - (k - 1)).toInt) (unfenced : s.fenced c = false)
    (sfree : s.conflict (s.ins c f) ⟨[⟨gloc (areg s c f 31 28), gloc (areg s c f 31 28) + n, false⟩], []⟩ = false)
    (hw : State.gWrite { s with fresh := s.fresh + 1 } dst (s.mem.readP (gloc (areg s c f 31 28)) n) 1 (some (s.core c).holder)
      (.halo c (s.core c).holder s.fresh (s.ctx c).pc f (BitVec.ofNat 64 dst)) = w) (good : w.1 = St.ok) :
    haloSendBody (s.ins c f) s = .done (haloSignal (s.ins c f) w.2.2 d k [s.fresh]) := by
  have checks : firstFault [need (areg s c f 31 28 % 16 == 0) 0xA5 0 (areg s c f 31 28), s.ownFault c (areg s c f 31 28) n 0xA4 0] =
      none := by
    simp [firstFault_eq_none, salign, sown]
  have released : sge ((s.ctx c).flag (rd d 0x14 2)) (k - 1) = true := decide_eq_true taken
  unfold haloSendBody
  dsimp only
  rw [withLink_sound align own free clean hd hk sound]
  subst hw
  simp only [State.ins_c, State.ins_f, State.ins_h, State.ins_pc, hn, hdst, checks, released, State.fencedOff_ins, unfenced, sfree,
    Bool.not_true, Bool.or_self, Bool.false_eq_true, if_false, State.uid, good, if_true]

theorem haloWaitBody_done (sound : haloFault s d 1 = none) (arrived : 0 ≤ ((s.ctx c).flag (rd d 0x14 2) - (k + 1)).toInt) :
    haloWaitBody (s.ins c f) s = .done s := by
  rw [haloWaitBody, withLink_sound align own free clean hd hk sound]
  exact if_pos (decide_eq_true arrived)

theorem haloReleaseBody_done {n a : Nat} (hn : rd d 0x10 4 = n) (ha : gloc (rd d 8 8) + k.toNat % 2 * n = a)
    (sound : haloFault s d 1 = none) (unfenced : s.fenced c = false) (unread : s.stemsRead c (s.core c).holder a (a + n) = false)
    (sfree : s.conflict (s.ins c f) ⟨[⟨a, a + n, true⟩], []⟩ = false) :
    haloReleaseBody (s.ins c f) s = .done (haloSignal (s.ins c f) s d k []) := by
  rw [haloReleaseBody, withLink_sound align own free clean hd hk sound]
  simp only [State.ins_c, State.ins_h, hn, ha, State.fencedOff_ins, unfenced, sfree, unread, Bool.or_self, Bool.false_eq_true, if_false]

end Halo

/-! ## ATOM (R301, R303) -/

/-- The atomic of an ATOM. -/
def atomOp (s : State) (c : Nat) (f : Frame) : AtomOp :=
  ⟨gloc (areg s c f 32 29), fld f 19 16, fld f 24 23, fld f 28 25, atomEa f, (s.ctx c).getA (fld f 36 33), (s.ctx c).getA (fld f 40 37)⟩

/-- The register that takes the old value. -/
def atomDst (f : Frame) : Option Nat := if bitOf f 45 then some (fld f 44 41) else none

/-- The destination of an ATOM is still to be written (R180). -/
def atomMark (c : Nat) (f : Frame) (u : Nat) (s : State) : State :=
  match atomDst f with
  | some r => s.modCtx c fun x => { x with pend := x.pend ++ [(r, u)] }
  | none => s

/-- The packet of an ATOM of another device (R344). -/
def atomPkt (s : State) (c : Nat) (f : Frame) : Packet :=
  let o := atomOp s c f
  { pktBlank with
    op := 3, dst := BitVec.ofNat 16 (gdev (areg s c f 32 29)), addr := BitVec.ofNat 64 (areg s c f 32 29), len := 16,
    aop := BitVec.ofNat 16 (o.op + o.okind * 16 + o.ofmt * 64), ea := BitVec.ofInt 16 o.ea,
    data := le 8 o.v1.toNat ++ le 8 o.v2.toNat }

section Atom

variable {n : Nat} (hn : atomBytes (fld f 19 16) = n)
  (fields : atomFields (fld f 19 16) (fld f 24 23) (fld f 28 25) (atomEa f) = true) (align : areg s c f 32 29 % n = 0)
  (valid : gvalid (areg s c f 32 29) = true)
  (room : s.atomsOut c (s.core c).holder + s.queuedOps (s.ins c f) 0x21 < 64)
  (starts : Starts s (s.ins c f) 50 (scalarFoot s c (areg s c f 32 29) n true))
include hn fields align valid room starts

theorem atomBody_here (dev : gdev (areg s c f 32 29) = s.fab.devnum)
    (unfenced : ownTouch c (gloc (areg s c f 32 29)) n = true ∨ s.fenced c = false)
    (lp : ∀ k x, place (gloc (areg s c f 32 29)) ≠ .spad k x ∨ spillLo < x + n) (served : s.site (gloc (areg s c f 32 29)) n ≠ .no) :
    atomBody (s.ins c f) s = .done (atomMark c f s.fresh { s with
      fresh := s.fresh + 1
      atoms := s.atoms ++ [⟨s.fresh, .core c (s.core c).holder (s.ctx c).pc f (atomDst f), atomOp s c f, false⟩] }) := by
  have spad : (match place (gloc (areg s c f 32 29)) with
      | .spad c o => s.inMap c && decide (o + n ≤ spillLo) | _ => false) = false := by
    split
    next k x h => simp [Nat.not_le.mpr ((lp k x).resolve_left (absurd h))]
    next => rfl
  have stalled : ((scalarFoot s c (areg s c f 32 29) n true).spans.isEmpty && s.fenced c) = false := by
    rcases unfenced with touch | free
    · simp [scalarFoot, dev, touch]
    · simp [free]
  subst hn
  simp only [atomBody, State.ins_c, State.ins_f, State.ins_h, State.ins_n, State.ins_pc, State.uidFor_fresh, State.fencedOff_ins,
    toNat_getA, fields, align, valid, Nat.not_le.mpr room, stalled, State.admit_clear _ _ starts, dev, served, Bool.not_true,
    bne_self_eq_false, decide_false, Bool.or_self, Bool.false_eq_true, if_false, if_true]
  exact if_neg (Bool.eq_false_iff.mp spad)

theorem atomBody_far {t : State} (dev : gdev (areg s c f 32 29) ≠ s.fab.devnum) (unfenced : s.fenced c = false)
    (sent : State.request { s with fresh := s.fresh + 1 } (atomPkt s c f) 2 (some (s.core c).holder)
      (.atom c (s.core c).holder s.fresh (s.ctx c).pc f (BitVec.ofNat 64 (areg s c f 32 29)) (atomDst f)) = .ok t) :
    atomBody (s.ins c f) s = .done (atomMark c f s.fresh t) := by
  subst hn
  simp only [atomBody, State.ins_c, State.ins_f, State.ins_h, State.ins_n, State.ins_pc, State.uidFor_fresh, State.fencedOff_ins,
    toNat_getA, fields, align, valid, Nat.not_le.mpr room, unfenced, State.admit_clear _ _ starts, dev, Bool.not_true,
    bne_self_eq_false, decide_false, Bool.or_self, Bool.and_false, Bool.false_eq_true, if_false]
  split
  next e h => exact absurd (h.symm.trans sent) nofun
  next u h =>
    obtain rfl : u = t := Except.ok.inj (h.symm.trans sent)
    rfl

end Atom

/-! ## ATTF and ATTB (R215, R226 to R228) -/

theorem phase_of_descFault {b : Bool} {mode : Nat} {d : List Byte} {q : KvPool} (h : descFault s c b mode d = none)
    (hq : s.kvPool (AttDesc.of d).pool = some q) : q.phase = 2 := by
  by_contra hp
  have bad : (decide ((AttDesc.of d).pool > 15) || q.phase != 2) = true := by simp [hp]
  simp [descFault, hq, bad] at h

/-- An attention instruction that no walk of has begun. -/
def attnNew (s : State) (c : Nat) (f : Frame) (b : Bool) (u : Nat) (d : List Byte) (es : List AttEntry) : Attn :=
  ⟨u, f, (s.ctx c).pc, b, fld f 40 40, AttDesc.of d, es, es.map fun _ => ⟨0, 0, 0⟩⟩

/-- The core has taken an attention instruction: what the instruction uses for itself is free. -/
def attnTaken (s : State) (c : Nat) (a : Attn) : State :=
  (State.attnFree { s with fresh := s.fresh + 1 } c a).modCtx c fun x => { x with attn := some a }

theorem attn_attnTaken (s : State) (c : Nat) (a : Attn) : (attnTaken s c a).attn c = some a := by
  rw [State.attn, attnTaken, State.ctx_modCtx_same]

theorem attnTaken_kv (s : State) (c : Nat) (a : Attn) : (attnTaken s c a).kv = s.kv := by
  rw [attnTaken, State.modCtx_kv, State.attnFree_kv]

/-- Of an instruction without a walk under way, the first entry starts. -/
theorem nextWalk_first {a : Attn} {e : AttEntry} {rest : List AttEntry} (ha : s.attn c = some a) (he : a.entries = e :: rest)
    (hw : a.walks = a.entries.map fun _ => ⟨0, 0, 0⟩) : s.nextWalk c = s.beginWalk c a 0 := by
  have idle : (a.walks.any fun w => w.phase == 1 || w.phase == 2) = false := by simp [hw]
  have first : (a.walks.findIdx? fun w => w.phase == 0) = some 0 := by simp [hw, he, List.findIdx?_cons]
  simp only [State.nextWalk, ha, idle, first, Bool.false_eq_true, if_false]

theorem attBody_begins {b : Bool} {n : Nat} {d : List Byte} {bs : List (List Byte)} {t : State} (hn : fld f 39 32 + 1 = n)
    (dalign : areg s c f 19 16 % 64 = 0) (lalign : areg s c f 23 20 % 16 = 0) (down : s.ownFault c (areg s c f 19 16) 128 0x93 4 = none)
    (lown : s.ownFault c (areg s c f 23 20) (32 * n) 0x93 4 = none) (unfenced : s.fenced c = false)
    (idle : s.busyUnit (s.ins c f) = false) {own : Foot}
    (hown : ⟨[⟨gloc (areg s c f 19 16), gloc (areg s c f 19 16) + 128, false⟩,
      ⟨gloc (areg s c f 23 20), gloc (areg s c f 23 20) + 32 * n, false⟩], []⟩ = own)
    (free : s.conflict (s.ins c f) own = false) (dclean : s.poisoned (gloc (areg s c f 19 16)) 128 = false)
    (lclean : s.poisoned (gloc (areg s c f 23 20)) (32 * n) = false) (hd : s.read (gloc (areg s c f 19 16)) 128 = d)
    (hbs : ((List.range n).map fun k => s.read (gloc (areg s c f 23 20) + 32 * k) 32) = bs)
    (dsound : descFault s c b (fld f 40 40) d = none)
    (esound : ∀ k x, bs[k]? = some x →
      entryCheck s c b (fld f 40 40) d x (if k = 0 then none else (bs.map AttEntry.of)[k - 1]?) = none)
    (starts : Starts s (s.ins c f) 40 (Foot.union [own, s.attnFoot (attnNew s c f b 0 d (bs.map AttEntry.of))]))
    (begun : (attnTaken s c (attnNew s c f b s.fresh d (bs.map AttEntry.of))).nextWalk c = .ok t) :
    attBody b (s.ins c f) s = .done t := by
  have checks : firstFault [need (areg s c f 19 16 % 64 == 0) 0x94 4 (areg s c f 19 16),
      need (areg s c f 23 20 % 16 == 0) 0x94 4 (areg s c f 23 20), s.ownFault c (areg s c f 19 16) 128 0x93 4,
      s.ownFault c (areg s c f 23 20) (32 * n) 0x93 4] = none := by
    simp [firstFault_eq_none, dalign, lalign, down, lown]
  have entries : (bs.zipIdx.findSome? fun x => entryCheck s c b (fld f 40 40) d x.1
      (if x.2 = 0 then none else (bs.map AttEntry.of)[x.2 - 1]?)) = none :=
    List.findSome?_eq_none_iff.mpr fun x hx => esound x.2 x.1 (List.mem_zipIdx_iff_getElem?.mp hx)
  have board := starts.1
  have front := starts.2
  simp only [attnNew, attnTaken] at board front begun
  simp only [attBody, State.ins_c, State.ins_f, State.ins_n, State.ins_pc, State.uidFor_fresh, State.fencedOff_ins, toNat_getA, hn, hown,
    checks, unfenced, free, dclean, lclean, hd, hbs, dsound, entries, board, front, idle, begun, Bool.or_self, Bool.false_eq_true,
    if_false]

/-- Of an instruction just taken the first walk starts, where its record is resident. -/
theorem nextWalk_attnTaken {a : Attn} {e : AttEntry} {rest : List AttEntry} {q : KvPool} {r : KvSeq} (he : a.entries = e :: rest)
    (hw : a.walks = a.entries.map fun _ => ⟨0, 0, 0⟩) (hq : s.kvPool a.desc.pool = some q) (inUse : q.phase = 2)
    (hr : s.kvSeq e.seq = some r) (res : r.resident = true) (page : a.bwd = true → a.mode = 1 → e.page < (r.len + 15) / 16) :
    (attnTaken s c a).nextWalk c = .ok ((attnTaken s c a).walkBegun c a 0 e r) := by
  have pool : (attnTaken s c a).kvPool a.desc.pool = some q := by rw [State.kvPool, attnTaken_kv]; exact hq
  have record : (attnTaken s c a).kvSeq e.seq = some r := by rw [State.kvSeq, attnTaken_kv]; exact hr
  rw [nextWalk_first (attn_attnTaken s c a) he hw]
  exact State.beginWalk_resident (by rw [he, List.getElem?_cons_zero]) pool inUse record res page

/-- What taking an attention instruction and starting its first walk leaves (R215, R228). -/
theorem attn_taken_and_begun {a : Attn} {e : AttEntry} {r : KvSeq} {q : KvPool} (hq : s.kvPool a.desc.pool = some q) :
    let t := (attnTaken s c a).walkBegun c a 0 e r
    t.attn c = some { a with walks := a.walks.set 0 ⟨2, r.len, r.ver⟩ } ∧
      t.kv.latches = s.kv.latches ++ [⟨.walk a.uid 0, e.seq, r.len, r.ver, r.pages⟩] ∧
      ∀ x, (x < a.desc.ring ∨ a.desc.ring + a.desc.rslots * 32 * q.hdim * q.fmt.bytes + 4096 ≤ x) →
        (x < a.desc.park ∨ a.desc.park + (a.desc.npark + 1) * 128 * q.hdim ≤ x) → t.mem.byte x = s.mem.byte x := by
  refine ⟨State.attn_walkBegun (attn_attnTaken s c a), ?latches, fun x ring park => ?bytes⟩
  case latches => rw [State.latches_walkBegun, attnTaken_kv]
  case bytes =>
    rw [State.mem_walkBegun, attnTaken, State.modCtx_mem]
    exact State.attnFree_byte (s := { s with fresh := s.fresh + 1 }) hq ring park

end Bodies

/-- Settles O60: each instruction's meaning completes with what it hands over, and `exec_row_done` is the rest of its issue. -/
theorem handedOverInstructionsComplete : Obligations.HandedOverInstructionsComplete := by
  intro s c f ar i work next
  refine ⟨fun b q r hop R hd => ?att, fun hop R hz => ?kvop, fun hop R hd => ?halo, fun R hz room => ?stem, fun hop R hz h8 => ?atom,
    fun y hop R hz => ?spost, fun x hop R hz idle => ?bfill, fun hop R hd free C => ?optim⟩
  case att =>
    intro n gd gl dalign lalign down lown unfenced idle free dclean lclean d bs es dsound esound e rest hes hq hr res page a starts
    have inUse := phase_of_descFault dsound hq
    have begun := nextWalk_attnTaken (c := c) (a := attnNew s c f b s.fresh d es) hes rfl hq inUse hr res page
    have done := attBody_begins (b := b) rfl dalign lalign down lown unfenced idle rfl free dclean lclean rfl rfl dsound esound starts begun
    obtain ⟨hattn, hlatch, hbyte⟩ := attn_taken_and_begun (s := s) (c := c) (a := attnNew s c f b s.fresh d es) (e := e) (r := r) hq
    refine ⟨_, ?exec, hattn.trans ?walks, hlatch, hbyte⟩
    case exec =>
      cases b with
      | false => exact exec_row_done (i := .attf c f) rfl ⟨hop, nofun⟩ hd R done
      | true => exact exec_row_done (i := .attb c f) rfl ⟨hop, nofun⟩ hd R done
    case walks =>
      simp only [attnNew, hes, a]
      rfl
  case kvop =>
    intro g b align own room starts clean after
    exact exec_row_done (i := .kvop c f) rfl ⟨hop, nofun⟩ (decodeCheck_of_zero _ hz rfl) R
      (kvopBody_done align own room starts clean rfl rfl)
  case halo =>
    intro g d k flag n align own free clean
    refine ⟨fun mode sound salign sown taken unfenced sfree => ?send, fun mode sound arrived => ?wait,
      fun mode sound unfenced => ?release⟩
    case send =>
      intro dst w good
      exact exec_row_done (i := .haloSend c f) rfl ⟨hop, fun ms h => by cases h; simp [mode]⟩ hd R
        (haloSendBody_done align own free clean rfl rfl rfl rfl sound salign sown taken unfenced sfree rfl good)
    case wait =>
      exact exec_row_done (i := .haloWait c f) rfl ⟨hop, fun ms h => by cases h; simp [mode]⟩ hd R
        (haloWaitBody_done align own free clean rfl rfl sound arrived)
    case release =>
      intro a unread sfree
      exact exec_row_done (i := .haloRelease c f) rfl ⟨hop, fun ms h => by cases h; simp [mode]⟩ hd R
        (haloReleaseBody_done align own free clean rfl rfl rfl rfl sound unfenced unread sfree)
  case stem =>
    intro t
    have dec : stemDec f = none := decodeCheck_of_zero _ hz rfl
    have done : stemBody (s.ins c f) s = .done t := stemBody_done room
    exact ⟨fun hop => exec_row_done (i := .sconv c f) rfl ⟨hop, nofun⟩ dec R done,
      fun hop => exec_row_done (i := .swgrad c f) rfl ⟨hop, nofun⟩ dec R done,
      fun hop => exec_row_done (i := .spool c f) rfl ⟨hop, nofun⟩ dec R done,
      fun hop => exec_row_done (i := .snorm c f) rfl ⟨hop, nofun⟩ dec R done⟩
  case atom =>
    intro g n o dst marked fields align valid room starts reach
    have dec := decodeCheck_of_zero 0x21 hz (decide_eq_true h8)
    refine ⟨fun dev lp served => ?here, fun dev unfenced t sent => ?far⟩
    case here =>
      exact exec_row_done (i := .atom c f) rfl ⟨hop, nofun⟩ dec R
        (atomBody_here rfl fields align valid room starts dev (reach.imp And.right id) lp served)
    case far =>
      exact exec_row_done (i := .atom c f) rfl ⟨hop, nofun⟩ dec R (atomBody_far rfl fields align valid room starts dev unfenced sent)
  case spost =>
    intro sr g align own named hy mine up starts room rel t
    exact exec_row_done (i := .spost c f) rfl ⟨hop, nofun⟩ (decodeCheck_of_zero _ hz rfl) R
      (spostBody_done align own named hy mine up starts room rfl)
  case bfill =>
    intro n hx pos
    have dec := decodeCheck_of_zero 0xB9 hz rfl
    exact ⟨fun more => exec_row_done (i := .bfill c f) rfl ⟨hop, nofun⟩ dec R (bfillBody_part idle hx pos more),
      fun last notFull => exec_row_done (i := .bfill c f) rfl ⟨hop, nofun⟩ dec R (bfillBody_full idle hx pos last notFull)⟩
  case optim => exact exec_row_done (i := .optim c f) rfl ⟨hop, nofun⟩ hd R (optimBody_clear free C)

end Sys2Proof.Machine

/-! # Edits of sequences (R204 to R212)

First what the operations of the KV manager leave of its records; then what an edit does once it is the first of its sequence; then a rule
for each operation that changes a record. -/

namespace Sys2Proof.Machine

/-- What no step of a fold changes, the fold does not change. -/
theorem foldl_keeps {α β γ : Type} (v : β → γ) {g : β → α → β} (h : ∀ b x, v (g b x) = v b) (l : List α) (b : β) :
    v (l.foldl g b) = v b := by
  induction l generalizing b with
  | nil => rfl
  | cons x l ih => rw [List.foldl_cons, ih, h]

theorem SMap.get?_foldl_del {α : Type} (l m : SMap α) (k : Nat) :
    SMap.get? (l.foldl (fun m p => SMap.del m p.1) m) k = if l.any (fun p => p.1 == k) then none else SMap.get? m k := by
  induction l generalizing m with
  | nil => rfl
  | cons p l ih =>
    rw [List.foldl_cons, ih, List.any_cons]
    rcases eq_or_ne k p.1 with rfl | hk
    · simp
    · rw [SMap.get?_del_other _ _ _ hk, beq_eq_false_iff_ne.mpr hk.symm, Bool.false_or]

theorem SMap.get?_of_no_key {α : Type} {m : SMap α} {k : Nat} (h : m.any (fun p => p.1 == k) = false) : SMap.get? m k = none := by
  induction m with
  | nil => rfl
  | cons p m ih =>
    simp only [List.any_cons, Bool.or_eq_false_iff, beq_eq_false_iff_ne] at h
    rw [SMap.get?_cons p.1 p.2, if_neg (Ne.symm h.1), ih h.2]

/-- Deleting the entries of a table whose keys are chosen leaves the others. -/
theorem SMap.get?_del_filter {α : Type} (m : SMap α) (q : Nat → Bool) (k : Nat) :
    SMap.get? ((m.filter fun p => q p.1).foldl (fun m p => SMap.del m p.1) m) k = if q k then none else SMap.get? m k := by
  rw [SMap.get?_foldl_del]
  cases chosen : (m.filter fun p => q p.1).any fun p => p.1 == k with
  | true =>
    obtain ⟨p, hp, hk⟩ := List.any_eq_true.mp chosen
    rw [if_pos rfl, ← beq_iff_eq.mp hk, (List.mem_filter.mp hp).2, if_pos rfl]
  | false =>
    have none := SMap.get?_of_no_key chosen
    rw [SMap.get?_filter] at none
    simp only [Bool.false_eq_true, if_false]
    split <;> simp_all

namespace State

variable {s t : State}

/-! ## What leaves the KV manager as it is -/

@[simp] theorem modProg_kv (s : State) (h : Nat) (g : Prog → Prog) : (s.modProg h g).kv = s.kv := by
  unfold modProg
  split <;> rfl

@[simp] theorem countAccess_kv (s : State) (a status : Nat) : (s.countAccess a status).kv = s.kv := by
  unfold countAccess
  split
  · split <;> rfl
  · rfl

@[simp] theorem writePiece_kv (s : State) (a : Nat) (bs : List (Byte × Bool)) : (s.writePiece a bs).2.kv = s.kv := by
  unfold writePiece
  dsimp only
  split
  · rfl
  · split
    · exact countAccess_kv ..
    · split
      · rfl
      · split <;> rfl
  · split
    · rfl
    · split
      · rfl
      · exact modProg_kv ..

@[simp] theorem extWrite_kv (s : State) (a : Nat) (bs : List (Byte × Bool)) : (s.extWrite a bs).2.kv = s.kv :=
  foldl_keeps (fun r : (Nat × State) × List (Byte × Bool) => r.1.2.kv) (fun _ _ => writePiece_kv ..) ..

@[simp] theorem devWrite_kv (s : State) (a : Nat) (bs : List Byte) : (s.devWrite a bs).2.kv = s.kv := extWrite_kv ..

@[simp] theorem pumpLink_kv (s : State) (n : Nat) : (s.pumpLink n).kv = s.kv := by
  have sent : ∀ (t : State) fs, (t.flits n fs).kv = t.kv := fun t fs => foldl_keeps State.kv (fun t _ => emit_kv (s := t) _) fs t
  unfold pumpLink
  dsimp only
  split
  · exact sent ..
  · exact sent ..

@[simp] theorem transmit_kv (s : State) (tag link : Nat) (r : Req) : (s.transmit tag link r).kv = s.kv := by
  rw [transmit, sendPacket, pumpLink_kv]
  rfl

theorem request_kv {pkt : Packet} {vl : Nat} {prog : Option Nat} {cont : Cont} (h : s.request pkt vl prog cont = .ok t) :
    t.kv = s.kv := by
  simp only [request] at h
  split at h
  · cases h
  · split at h
    · cases h
    · split at h
      · rw [← Except.ok.inj h]
      · split at h
        · rw [← Except.ok.inj h]
        · rw [← Except.ok.inj h, transmit_kv]

@[simp] theorem cacheLook_kv (s : State) (g : Nat) : (s.cacheLook g).2.kv = s.kv := by
  unfold cacheLook
  dsimp only
  split
  · rfl
  · split <;> rfl

@[simp] theorem gReadPiece_kv (s : State) (g n vl : Nat) (prog : Option Nat) (cont : Cont) :
    (s.gReadPiece g n vl prog cont).2.kv = s.kv := by
  unfold gReadPiece
  dsimp only
  split
  · rfl
  · split
    · split
      · rfl
      · exact countAccess_kv ..
    · have looked := cacheLook_kv s g
      split
      · exact looked
      · split
        · exact looked
        · next sent => exact (request_kv sent).trans looked

@[simp] theorem fetchNew_kv (s : State) (k : FetchKey) (rs : List (Nat × Nat)) (vl : Nat) (prog : Option Nat) :
    (s.fetchNew k rs vl prog).kv = s.kv :=
  foldl_keeps (fun a : Nat × State => a.2.kv)
    (fun _ _ => foldl_keeps (fun a : Nat × State => a.2.kv) (fun _ _ => gReadPiece_kv ..) ..) ..

@[simp] theorem frameData_kv (s : State) (key : FetchKey) (addr n vl : Nat) : (s.frameData key addr n vl).2.kv = s.kv := by
  unfold frameData
  split
  · split <;> rfl
  · dsimp only
    split
    · split <;> exact fetchNew_kv ..
    · exact fetchNew_kv ..

/-! ## What leaves the records and the latches as they are -/

/-- No record and no latch of the KV manager is another. -/
def SameRecords (s t : State) : Prop := t.kv.seqs = s.kv.seqs ∧ t.kv.latches = s.kv.latches

theorem SameRecords.kvSeq (h : SameRecords s t) (ref : Nat) : t.kvSeq ref = s.kvSeq ref := by rw [State.kvSeq, h.1]; rfl

theorem SameRecords.latched (h : SameRecords s t) (ref : Nat) : t.latched ref = s.latched ref := by rw [State.latched, h.2]; rfl

theorem SameRecords.trans {u : State} (h : SameRecords s t) (k : SameRecords t u) : SameRecords s u :=
  ⟨k.1.trans h.1, k.2.trans h.2⟩

theorem sameRecords_of_kv (h : t.kv = s.kv) : SameRecords s t := ⟨congrArg _ h, congrArg _ h⟩

theorem sameRecords_takeFrame (s : State) (pool entry : Nat) : SameRecords s (s.takeFrame pool entry) := by
  unfold takeFrame
  split <;> exact ⟨rfl, rfl⟩

theorem sameRecords_dropFrame (s : State) (pool entry ref : Nat) (ver : W32) : SameRecords s (s.dropFrame pool entry ref ver) := by
  unfold dropFrame
  split
  · split <;> exact ⟨rfl, rfl⟩
  · exact ⟨rfl, rfl⟩

theorem sameRecords_stampFrame (s : State) (pool entry : Nat) : SameRecords s (s.stampFrame pool entry) := by
  unfold stampFrame
  split
  · split <;> exact ⟨rfl, rfl⟩
  · exact ⟨rfl, rfl⟩

theorem sameRecords_writeEntry (s : State) (ref p entry : Nat) : SameRecords s (s.writeEntry ref p entry) := by
  unfold writeEntry
  split
  · exact sameRecords_of_kv (devWrite_kv ..)
  · exact ⟨rfl, rfl⟩

theorem kvSeq_setSeq_same (s : State) (ref : Nat) (r : KvSeq) : (s.setSeq ref r).kvSeq ref = some r := SMap.get?_put_same ..

/-! ## Page tables -/

section Record

variable {ref : Nat} {r : KvSeq}

theorem kvSeq_setPage (h : s.kvSeq ref = some r) (p entry : Nat) : (s.setPage ref p entry).kvSeq ref =
    some { r with pages := if entry = noFrame then SMap.del r.pages p else SMap.put r.pages p entry } := by
  simp only [setPage, h]
  rw [(sameRecords_writeEntry _ _ _ _).kvSeq, kvSeq_setSeq_same]

/-- Pages taken away leave the record without them. -/
theorem kvSeq_dropPages (h : s.kvSeq ref = some r) (pool : Nat) (ps : List (Nat × Nat)) (v : W32) :
    (s.dropPages pool ref ps v).kvSeq ref = some { r with pages := ps.foldl (fun m p => SMap.del m p.1) r.pages } := by
  induction ps generalizing s r with
  | nil => exact h
  | cons p ps ih => exact ih (((sameRecords_dropFrame ..).kvSeq ref).trans (kvSeq_setPage h p.1 noFrame))

theorem kvSeq_foldl_dropFrame (s : State) (pool ref : Nat) (v : W32) (x : Nat) (ps : List (Nat × Nat)) :
    (ps.foldl (fun (s : State) p => s.dropFrame pool p.2 ref v) s).kvSeq x = s.kvSeq x :=
  foldl_keeps (fun s : State => s.kvSeq x) (fun _ _ => (sameRecords_dropFrame ..).kvSeq x) ps s

theorem logEdit_unlatched (free : s.latched ref = false) (lo hi : Nat) (v : W32) (trunc : Bool) :
    s.logEdit ref lo hi v trunc = some s := by simp [logEdit, free]

/-- Where no walk is latched, a page gets its new entry at once, in a new version. -/
theorem replaceEntry_unlatched (h : s.kvSeq ref = some r) (free : s.latched ref = false) (pool p f : Nat) :
    ∃ t, s.replaceEntry pool ref p f = some t ∧ t.kvSeq ref =
      some { r with pages := if f = noFrame then SMap.del r.pages p else SMap.put r.pages p f, ver := r.ver + 1 } := by
  have dropped (o : Nat) : (s.dropFrame pool o ref (r.ver + 1)).kvSeq ref = some r := ((sameRecords_dropFrame ..).kvSeq ref).trans h
  rcases old : SMap.get? r.pages p with _ | o
  · simp only [replaceEntry, h, logEdit_unlatched free, old, kvSeq_setPage h]
    exact ⟨_, rfl, kvSeq_setSeq_same ..⟩
  · simp only [replaceEntry, h, logEdit_unlatched free, old, kvSeq_setPage (dropped o)]
    exact ⟨_, rfl, kvSeq_setSeq_same ..⟩

end Record

/-! ## Rows and edits -/

/-- The row of the `ix`-th edit for an operation. -/
def opRow (ix op : Nat) : Option Instr :=
  [Instr.query ix, .create ix, .free ix, .reserve ix, .extend ix, .truncate ix, .stage ix, .install ix, .promote ix, .fork ix][op]?

theorem exec_opRow (z : State) {ix op : Nat} {i : Instr} (h : opRow ix op = some i) : exec i z = .next (z.editRow op ix) := by
  obtain ⟨lt, rfl⟩ := List.getElem?_eq_some_iff.mp h
  match op, lt with
  | 0, _ | 1, _ | 2, _ | 3, _ | 4, _ | 5, _ | 6, _ | 7, _ | 8, _ | 9, _ => rfl

theorem op_le_of_opRow {ix op : Nat} {i : Instr} (h : opRow ix op = some i) : op ≤ 9 := by
  have := (List.getElem?_eq_some_iff.mp h).1
  exact Nat.le_of_lt_succ this

theorem arriveEdits_of_none (h : ∀ x ∈ s.kv.edits, x.arr ≠ 0 ∨ x.after.any s.alive = true) : s.arriveEdits = s := by
  have none : (s.kv.edits.filter fun e => e.arr == 0 && !e.after.any s.alive) = [] :=
    List.filter_eq_nil_iff.mpr fun x hx => by rcases h x hx with h | h <;> simp [h]
  rw [arriveEdits, none, List.foldl_nil]

section Edit

variable {z : State} {ix : Nat} {e : Edit} (he : z.arriveEdits.kv.edits[ix]? = some e)
include he

/-- The row of an edit's operation applies it, once what has arrived is known. -/
theorem exec_row_of_op {i : Instr} (hi : opRow ix e.op = some i) : exec i z = .next (z.arriveEdits.applyEdit e) := by
  rw [exec_opRow z hi, editRow]
  simp only [he, if_true]

theorem exec_row_of_other {op : Nat} {i : Instr} (hi : opRow ix op = some i) (h : e.op ≠ op) : exec i z = .next z.arriveEdits := by
  rw [exec_opRow z hi, editRow]
  simp only [he, h, if_false]

end Edit

/-- What an edit whose record is at hand does. -/
def edited (s : State) (e : Edit) (pool : Nat) (q : KvPool) (r : KvSeq) : Option State :=
  match e.op with
  | 0 => if e.arg0 = 0 then s.doQuery e r else some (s.editBad e)
  | 2 => if e.arg0 = 0 then s.doFree e pool r else some (s.editBad e)
  | 3 => s.doReserve e pool q r
  | 4 => s.doExtend e q r
  | 5 => s.doTruncate e pool r
  | 6 => s.doStage e pool q r
  | 7 => s.doInstall e pool r
  | 8 => s.doPromote e pool q r
  | _ => s.doFork e pool q r

section Apply

variable {e : Edit} {q : KvPool}

theorem applyEdit_waiting (h : s.editReady e = false) : s.applyEdit e = s := by simp [applyEdit, h]

variable (ready : s.editReady e = true) (good : e.bad = false) (hz : nfld e.seq 27 20 = 0) (hq : s.kvPool (e.seq / 2 ^ 28) = some q)
  (inUse : q.phase = 2)
include ready good hz hq inUse

theorem applyEdit_create (hop : e.op = 1) : s.applyEdit e = (s.doCreate e (e.seq / 2 ^ 28) q).getD s := by
  have named : (e.bad || decide (9 < e.op) || nfld e.seq 27 20 != 0) = false := by simp [good, hop, hz]
  simp only [applyEdit, ready, named, hq, inUse, Bool.not_true, Bool.false_eq_true, if_false, bne_self_eq_false, if_pos hop]

theorem applyEdit_without_record (hop : e.op ≠ 1) (le : e.op ≤ 9) (hr : s.kvSeq e.seq = none) :
    s.applyEdit e = s.editDone e St.badField 0 0 0 := by
  have named : (e.bad || decide (9 < e.op) || nfld e.seq 27 20 != 0) = false := by simp [good, Nat.not_lt.mpr le, hz]
  simp only [applyEdit, ready, named, hq, inUse, hop, hr, Bool.not_true, Bool.false_eq_true, if_false, bne_self_eq_false]

theorem applyEdit_of_record (hop : e.op ≠ 1) (le : e.op ≤ 9) {r : KvSeq} (hr : s.kvSeq e.seq = some r)
    (room : r.resident = true ∨ s.residents < 16384) :
    let r' : KvSeq := { r with resident := true, lastUse := s.now }
    s.applyEdit e = ((s.setSeq e.seq r').edited e (e.seq / 2 ^ 28) q r').getD (s.setSeq e.seq r') := by
  have used : s.useSeq e.seq r = some (s.setSeq e.seq { r with resident := true, lastUse := s.now }) :=
    if_pos (by simpa using room)
  have named : (e.bad || decide (9 < e.op) || nfld e.seq 27 20 != 0) = false := by simp [good, Nat.not_lt.mpr le, hz]
  simp only [applyEdit, ready, named, hq, inUse, hop, hr, used, Bool.not_true, Bool.false_eq_true, if_false, bne_self_eq_false]
  rfl

end Apply

/-! ## Each operation (R206 to R212) -/

section Operations

variable {e : Edit} {pool : Nat} {q : KvPool} {r : KvSeq}

theorem edited_query (hop : e.op = 0) (h : e.arg0 = 0) :
    s.edited e pool q r = some (s.editEnd e St.ok e.seq (16 * r.pages.length)) := by simp only [edited, hop, if_pos h, doQuery]

/-- QUERY and FREE take no argument. -/
theorem edited_with_argument (hop : e.op = 0 ∨ e.op = 2) (h : e.arg0 ≠ 0) : s.edited e pool q r = some (s.editBad e) := by
  rcases hop with hop | hop <;> simp only [edited, hop, if_neg h]

theorem edited_free (hop : e.op = 2) (h : e.arg0 = 0) :
    ∃ t : State, s.edited e pool q r = some (t.editDone e St.ok r.ver 0 0) ∧ t.kvSeq e.seq = none := by
  simp only [edited, hop, if_pos h, doFree]
  exact ⟨_, rfl, SMap.get?_del_same ..⟩

theorem edited_reserve (hop : e.op = 3) : s.edited e pool q r = s.doReserve e pool q r := by simp only [edited, hop]

theorem doReserve_beyond (h : q.maxPages * 16 < r.len + e.arg0) : s.doReserve e pool q r = some (s.editBad e) := if_pos h

section Reserve

variable (fits : r.len + e.arg0 ≤ q.maxPages * 16) {need : List Nat}
  (hneed : ((List.range ((r.len + e.arg0 + 15) / 16)).filter fun p => (SMap.get? r.pages p).isNone) = need)
include fits hneed

theorem doReserve_no_page (h : need = []) : s.doReserve e pool q r = some (s.editEnd e St.ok e.seq 0xFFFFFFFF) := by
  simp only [doReserve, hneed, h, Nat.not_lt.mpr fits, if_false, List.isEmpty_nil, if_true]

variable (h : need ≠ []) (log : r.log = [])
include h log

theorem doReserve_no_frame (few : q.freeDeck + q.freeLp + q.freeRemote < need.length) (dry : s.comingFree pool 0 (2 ^ 32) = false) :
    s.doReserve e pool q r = some (s.editEnd e St.badState e.seq 0) := by
  simp only [doReserve, hneed, log, Nat.not_lt.mpr fits, if_false, List.isEmpty_eq_false_iff.mpr h, Bool.false_eq_true, List.any_nil,
    if_pos few, dry]

theorem doReserve_gives (room : need.length ≤ q.freeDeck + q.freeLp + q.freeRemote) :
    s.doReserve e pool q r = some ((s.reservePages pool e.seq need).editEnd e St.ok e.seq (need.head?.getD 0)) := by
  simp only [doReserve, hneed, log, Nat.not_lt.mpr fits, if_false, List.isEmpty_eq_false_iff.mpr h, Bool.false_eq_true, List.any_nil,
    if_neg (Nat.not_lt.mpr room)]

end Reserve

theorem edited_extend (hop : e.op = 4) : s.edited e pool q r = s.doExtend e q r := by simp only [edited, hop]

theorem doExtend_beyond (h : q.maxPages * 16 < r.len + e.arg0 ∨ 16 * r.pages.length < r.len + e.arg0) :
    s.doExtend e q r = some (s.editBad e) := if_pos (by simpa using h)

theorem doExtend_reserved (fits : r.len + e.arg0 ≤ q.maxPages * 16) (reserved : r.len + e.arg0 ≤ 16 * r.pages.length) :
    s.doExtend e q r = some ((s.setSeq e.seq { r with len := r.len + e.arg0 }).editEnd e St.ok e.seq 0) :=
  if_neg (by simp [fits, reserved])

theorem edited_truncate (hop : e.op = 5) : s.edited e pool q r = s.doTruncate e pool r := by simp only [edited, hop]

theorem doTruncate_beyond (h : r.len < e.arg0) : s.doTruncate e pool r = some (s.editBad e) := if_pos h

/-- Where no walk is latched, TRUNCATE takes the pages beyond the new length away and changes no other. -/
theorem doTruncate_unlatched (hr : s.kvSeq e.seq = some r) (h : e.arg0 ≤ r.len) (free : s.latched e.seq = false) :
    ∃ (t : State) (x : KvSeq), s.doTruncate e pool r = some (t.editEnd e St.ok e.seq 0) ∧ t.kvSeq e.seq = some x ∧ x.len = e.arg0 ∧
      x.ver = r.ver + 1 ∧ ∀ p, SMap.get? x.pages p = if (e.arg0 + 15) / 16 ≤ p then none else SMap.get? r.pages p := by
  have dropped := kvSeq_dropPages hr pool (r.pages.filter fun p => decide ((e.arg0 + 15) / 16 ≤ p.1)) (r.ver + 1)
  simp only [doTruncate, Nat.not_lt.mpr h, if_false, logEdit_unlatched free, ite_self, kvSeq_foldl_dropFrame, dropped]
  refine ⟨_, _, rfl, kvSeq_setSeq_same .., rfl, rfl, fun p => ?_⟩
  rw [SMap.get?_del_filter r.pages fun k => decide ((e.arg0 + 15) / 16 ≤ k)]
  simp only [decide_eq_true_eq]

/-! ### Copies into the deck (R206, R212) -/

/-- A new deck frame holds the data of a page. -/
def copied (v : State) (pool : Nat) (q : KvPool) (f : Nat) (bs : List (Byte × Bool)) : State :=
  (({ v with fresh := v.fresh + 1 }.takeFrame pool f).extWrite (q.deckBase + f * q.psz) bs).2

section Copy

variable {old f a : Nat} {v : State} {bs : List (Byte × Bool)} (hf : q.pickDeck s.fresh = some f)
  (ha : q.frameAddr s.fab.devnum old = some a) (hd : s.frameData (.edit e.uid) a q.psz 1 = (some (St.ok, bs), v))
include hd

theorem sameRecords_copied : SameRecords s (copied v pool q f bs) := by
  have fetched : v.kv = s.kv := by rw [← frameData_kv s (.edit e.uid) a q.psz 1, hd]
  exact (sameRecords_of_kv fetched).trans
    ((sameRecords_takeFrame { v with fresh := v.fresh + 1 } pool f).trans (sameRecords_of_kv (extWrite_kv ..)))

include hf ha

theorem copyPage_copied (k : State → Nat → Option State) : s.copyPage e pool q old k = k (copied v pool q f bs) f := by
  simp only [copyPage, deckFrame, hf, ha, hd, bne_self_eq_false, Bool.false_eq_true, if_false]
  rfl

end Copy

theorem edited_stage (hop : e.op = 6) : s.edited e pool q r = s.doStage e pool q r := by simp only [edited, hop]

theorem doStage_no_page (h : SMap.get? r.pages e.arg0 = none) : s.doStage e pool q r = some (s.editBad e) := by
  simp only [doStage, h]

theorem doStage_copied {old f a : Nat} {v : State} {bs : List (Byte × Bool)} (page : SMap.get? r.pages e.arg0 = some old)
    (inLen : e.arg0 < (r.len + 15) / 16) (hf : q.pickDeck s.fresh = some f) (ha : q.frameAddr s.fab.devnum old = some a)
    (hd : s.frameData (.edit e.uid) a q.psz 1 = (some (St.ok, bs), v)) : ∃ t : State,
      s.doStage e pool q r = some (t.editEnd e St.ok e.seq f) ∧ t.kvSeq e.seq = some { r with pend := SMap.put r.pend e.arg0 f } := by
  simp only [doStage, page, inPages, inLen, decide_true, Bool.not_true, Bool.false_eq_true, if_false, copyPage_copied hf ha hd]
  exact ⟨_, rfl, kvSeq_setSeq_same ..⟩

theorem edited_install (hop : e.op = 7) : s.edited e pool q r = s.doInstall e pool r := by simp only [edited, hop]

theorem doInstall_not_staged (h : SMap.get? r.pend e.arg0 = none) : s.doInstall e pool r = some (s.editBad e) := by
  simp only [doInstall, h]

theorem doInstall_unlatched {f : Nat} (hr : s.kvSeq e.seq = some r) (staged : SMap.get? r.pend e.arg0 = some f)
    (free : s.latched e.seq = false) : ∃ t : State, s.doInstall e pool r = some (t.editEnd e St.ok e.seq f) ∧
      t.kvSeq e.seq = some { r with
        pages := if f = noFrame then SMap.del r.pages e.arg0 else SMap.put r.pages e.arg0 f
        ver := r.ver + 1
        pend := SMap.del r.pend e.arg0 } := by
  obtain ⟨t, replaced, record⟩ := replaceEntry_unlatched hr free pool e.arg0 f
  simp only [doInstall, staged, replaced, (sameRecords_stampFrame t pool f).kvSeq, record]
  exact ⟨_, rfl, kvSeq_setSeq_same ..⟩

theorem edited_promote (hop : e.op = 8) : s.edited e pool q r = s.doPromote e pool q r := by simp only [edited, hop]

theorem doPromote_no_page (h : SMap.get? r.pages e.arg0 = none) : s.doPromote e pool q r = some (s.editBad e) := by
  simp only [doPromote, h]

section Promote

variable (inLen : e.arg0 < (r.len + 15) / 16)
include inLen

theorem doPromote_in_deck {f : Nat} (page : SMap.get? r.pages e.arg0 = some f) (deck : f < 2 ^ 30) :
    s.doPromote e pool q r = some (s.editEnd e St.ok e.seq f) := by
  simp only [doPromote, page, inPages, inLen, decide_true, Bool.not_true, Bool.false_eq_true, if_false, if_pos deck]

theorem doPromote_copied {old f a : Nat} {v : State} {bs : List (Byte × Bool)} (hr : s.kvSeq e.seq = some r)
    (page : SMap.get? r.pages e.arg0 = some old) (below : 2 ^ 30 ≤ old) (free : s.latched e.seq = false)
    (hf : q.pickDeck s.fresh = some f) (deck : f < 2 ^ 30) (ha : q.frameAddr s.fab.devnum old = some a)
    (hd : s.frameData (.edit e.uid) a q.psz 1 = (some (St.ok, bs), v)) : ∃ t : State,
      s.doPromote e pool q r = some (t.editEnd e St.ok e.seq f) ∧
      t.kvSeq e.seq = some { r with pages := SMap.put r.pages e.arg0 f, ver := r.ver + 1 } := by
  have same : SameRecords s (copied v pool q f bs) := sameRecords_copied hd
  obtain ⟨t, replaced, record⟩ :=
    replaceEntry_unlatched ((same.kvSeq _).trans hr) ((same.latched _).trans free) pool e.arg0 f
  have named : f ≠ noFrame := by
    rw [noFrame]
    omega
  rw [if_neg named] at record
  simp only [doPromote, page, inPages, inLen, free, decide_true, Bool.not_true, Bool.false_and, Bool.false_eq_true, if_false,
    Nat.not_lt.mpr below, copyPage_copied hf ha hd, replaced]
  exact ⟨_, rfl, record⟩

end Promote

theorem edited_fork (hop : e.op = 9) : s.edited e pool q r = s.doFork e pool q r := by simp only [edited, hop]

theorem doFork_no_number {st : Nat} (h : s.newSeqNo pool q.maxSeq e.arg0 = .error st) :
    s.doFork e pool q r = some (s.editEnd e st e.seq 0) := by
  simp only [doFork, h]

/-- A child of full pages shares them, and no page is copied. -/
theorem doFork_full {n : Nat} (h : s.newSeqNo pool q.maxSeq e.arg0 = .ok n) (room : s.residents < 16384) (full : r.len % 16 = 0) :
    s.doFork e pool q r = some (((r.pages.filter fun p => decide (p.1 < r.len / 16)).foldl
      (fun t p => t.sharePage pool (pool * 2 ^ 28 + n) p.1 p.2) (s.newSeq (pool * 2 ^ 28 + n) r.len)).editEnd e St.ok e.seq n) := by
  simp only [doFork, h, Nat.not_le.mpr room, if_false, full, if_true]

theorem doCreate_no_number {st : Nat} (h : s.newSeqNo pool q.maxSeq e.arg0 = .error st) :
    s.doCreate e pool q = some (s.editDone e st 0 0 0) := by
  simp only [doCreate, h]

theorem doCreate_new {n : Nat} (h : s.newSeqNo pool q.maxSeq e.arg0 = .ok n) (room : s.residents < 16384) :
    s.doCreate e pool q = some ((s.newSeq (pool * 2 ^ 28 + n) 0).editEnd e St.ok (pool * 2 ^ 28 + n) n) := by
  simp only [doCreate, h, Nat.not_le.mpr room, if_false]

end Operations

end State

/-- Settles O38: a row applies the edit of its operation (`State.exec_row_of_op`), an edit with its record does what `State.edited` says
(`State.applyEdit_of_record`), and each operation has its rules. -/
theorem editsOfSequencesAreApplied : Obligations.EditsOfSequencesAreApplied := by
  intro z ix e q s he pool rows
  refine ⟨State.arriveEdits_of_none, fun i hi other => ?others, fun waits i hi => ?waits, fun ready good hz hq inUse => ?ready⟩
  case others =>
    obtain ⟨op, hop⟩ := List.mem_iff_getElem?.mp hi
    exact State.exec_row_of_other he hop fun same => other ((congrArg (State.opRow ix) same).trans hop)
  case waits => rw [State.exec_row_of_op he hi, State.applyEdit_waiting waits]
  case ready =>
    refine ⟨fun hop => ?create, fun hop hr i hi => ?gone, fun r hr room => ?record⟩
    case create =>
      have row : exec (.create ix) z = .next ((s.doCreate e pool q).getD s) := by
        rw [State.exec_row_of_op he (by rw [hop]; rfl), State.applyEdit_create ready good hz hq inUse hop]
      refine ⟨fun st h => ?_, fun n h free => ?_⟩
      · rw [row, State.doCreate_no_number h, Option.getD_some]
      · rw [row, State.doCreate_new h free, Option.getD_some]
    case gone =>
      rw [State.exec_row_of_op he hi, State.applyEdit_without_record ready good hz hq inUse hop (State.op_le_of_opRow hi) hr]
    case record =>
      intro u bad need
      let r' : KvSeq := { r with resident := true, lastUse := s.now }
      have used : u.kvSeq e.seq = some r' := State.kvSeq_setSeq_same ..
      have run {op : Nat} {i : Instr} {res : Option State} {t : State} (hop : e.op = op) (hi : State.opRow ix op = some i)
          (other : op ≠ 1) (does : u.edited e pool q r' = res) (h : res = some t) : exec i z = .next t := by
        subst hop
        rw [State.exec_row_of_op he hi,
          State.applyEdit_of_record ready good hz hq inUse other (State.op_le_of_opRow hi) hr room]
        exact congrArg (fun res => Host.Outcome.next (Option.getD res u)) (does.trans h)
      refine ⟨fun hop h => ?query, fun hop h i hi => ?argument, fun hop h => ?free, fun hop => ?reserve, fun hop => ?extend,
        fun hop => ?truncate, fun hop => ?stage, fun hop => ?install, fun hop => ?promote, fun hop => ?fork⟩
      case query => exact run hop rfl nofun rfl (State.edited_query hop h)
      case argument => exact run rfl hi (by omega) rfl (State.edited_with_argument hop h)
      case free =>
        obtain ⟨t, done, gone⟩ := State.edited_free (s := u) (pool := pool) (q := q) (r := r') hop h
        exact ⟨t, run hop rfl nofun rfl done, gone⟩
      case reserve =>
        have does := State.edited_reserve (s := u) (pool := pool) (q := q) (r := r') hop
        exact ⟨fun beyond => run hop rfl nofun does (State.doReserve_beyond beyond),
          fun fits none => run hop rfl nofun does (State.doReserve_no_page fits rfl none),
          fun fits some log few dry => run hop rfl nofun does (State.doReserve_no_frame fits rfl some log few dry),
          fun fits some log free => run hop rfl nofun does (State.doReserve_gives fits rfl some log free)⟩
      case extend =>
        have does := State.edited_extend (s := u) (pool := pool) (q := q) (r := r') hop
        exact ⟨fun beyond => run hop rfl nofun does (State.doExtend_beyond beyond),
          fun fits reserved => run hop rfl nofun does (State.doExtend_reserved fits reserved)⟩
      case truncate =>
        have does := State.edited_truncate (s := u) (pool := pool) (q := q) (r := r') hop
        refine ⟨fun beyond => run hop rfl nofun does (State.doTruncate_beyond beyond), fun h free => ?_⟩
        obtain ⟨t, x, done, record, len, ver, pages⟩ := State.doTruncate_unlatched (pool := pool) used h free
        exact ⟨t, x, run hop rfl nofun does done, record, len, ver, fun p hp => (pages p).trans (if_neg (Nat.not_le.mpr hp)),
          fun p hp => (pages p).trans (if_pos hp)⟩
      case stage =>
        have does := State.edited_stage (s := u) (pool := pool) (q := q) (r := r') hop
        refine ⟨fun none => run hop rfl nofun does (State.doStage_no_page none), fun old f a v bs page inLen hf ha hd => ?_⟩
        obtain ⟨t, done, record⟩ := State.doStage_copied (s := u) (pool := pool) (r := r') page inLen hf ha hd
        exact ⟨t, _, run hop rfl nofun does done, record, SMap.get?_put_same .., rfl, rfl, rfl⟩
      case install =>
        have does := State.edited_install (s := u) (pool := pool) (q := q) (r := r') hop
        refine ⟨fun none => run hop rfl nofun does (State.doInstall_not_staged none), fun f staged free => ?_⟩
        obtain ⟨t, done, record⟩ := State.doInstall_unlatched (pool := pool) used staged free
        refine ⟨t, _, run hop rfl nofun does done, record, SMap.get?_del_same .., rfl, rfl, fun named => ?same, fun p hp => ?other⟩
        case same => rw [if_neg named, SMap.get?_put_same]
        case other =>
          dsimp only
          split
          · exact SMap.get?_del_other _ _ _ hp
          · exact SMap.get?_put_other _ _ _ _ hp
      case promote =>
        have does := State.edited_promote (s := u) (pool := pool) (q := q) (r := r') hop
        refine ⟨fun none => run hop rfl nofun does (State.doPromote_no_page none),
          fun f page deck inLen => run hop rfl nofun does (State.doPromote_in_deck inLen page deck),
          fun old f a v bs page below inLen free hf deck ha hd => ?_⟩
        obtain ⟨t, done, record⟩ := State.doPromote_copied (s := u) (pool := pool) (r := r') inLen used page below free hf deck ha hd
        exact ⟨t, _, run hop rfl nofun does done, record, SMap.get?_put_same .., rfl, rfl⟩
      case fork =>
        have does := State.edited_fork (s := u) (pool := pool) (q := q) (r := r') hop
        exact ⟨fun st none => run hop rfl nofun does (State.doFork_no_number none),
          fun n number free full => run hop rfl nofun does (State.doFork_full number free full)⟩

end Sys2Proof.Machine

/-! # Stem jobs: from the reservation to the outputs (R258, R262, R263, R265, R267)

One equation per case of each of the four events of a stem engine. -/

namespace Sys2Proof.Machine

namespace State

variable {s : State} {e : Nat} {j : StemJob} {rest : List StemJob}

/-! ## STEM_RESERVATION and STEM_GRANT (R258) -/

section Arrive

variable {c : Nat} (oldest : s.sreq.find? (fun k => k.core == c) = some j)
include oldest

theorem stemArrive_listed (up : s.blockDown (0x50 + stemOf c) = false) : s.stemArrive c =
    { s with sreq := s.sreq.filter fun k => k.uid != j.uid }.setStem (stemOf c)
      { s.stem (stemOf c) with resv := (s.stem (stemOf c)).resv ++ [j] } := by
  rw [stemArrive, oldest]
  exact if_neg (Bool.eq_false_iff.mp up)

theorem stemArrive_refused (down : s.blockDown (0x50 + stemOf c) = true) : s.stemArrive c =
    ({ s with sreq := s.sreq.filter fun k => k.uid != j.uid }.countDown (0x50 + stemOf c)).stemFault (stemOf c) j
      (remoteFault 7 0 St.blockReset) := by
  rw [stemArrive, oldest]
  exact if_pos down

end Arrive

section Grant

variable (head : (s.stem e).resv = j :: rest)
include head

theorem stemGrant_free (free : (s.stem e).que.length < 32) : s.stemGrant e =
    s.setStem e { s.stem e with resv := rest, que := (s.stem e).que ++ [j] } := by
  simp only [stemGrant, head, free, if_true]

theorem stemGrant_full (full : 32 ≤ (s.stem e).que.length) : s.stemGrant e = s := by
  simp only [stemGrant, head, Nat.not_lt.mpr full, if_false]

end Grant

/-! ## STEM_JOB_START (R258, R260, R265) -/

section Start

variable (idle : (s.stem e).run = none) (head : (s.stem e).que = j :: rest) (up : s.blockDown (0x50 + e) = false)
include idle head up

theorem stemStart_held (stopped : j.held ≠ []) : s.stemStart e =
    s.setStem e { s.stem e with que := rest, run := some ⟨j, s.now, j.held⟩ } := by
  have held : j.held.isEmpty = false := List.isEmpty_eq_false_iff.mpr stopped
  simp [stemStart, idle, head, up, jobDesc, held]

/-- The checks of a new job see the core's memory, which the engine's own state is no part of. -/
theorem stemStart_clean (new : j.held = []) (align : j.desc % 16 = 0) (own : s.ownFault j.core j.desc 64 0xA4 7 = none)
    (clean : s.poisoned (gloc j.desc) 64 = false) {d : List Byte} (hd : s.read (gloc j.desc) 64 = d) {t : Stem}
    (ht : Stem.of (opcode j.frame) d = t) (sound : Stem.fault s j.core t d t.bases = none) : s.stemStart e =
    s.setStem e { s.stem e with que := rest, run := some ⟨j, s.now, d⟩ } := by
  have desc : s.jobDesc j = d := by rw [jobDesc, new]; exact hd
  have own' (x : StemEngine) : (s.setStem e x).ownFault j.core j.desc 64 0xA4 7 = none := own
  have checks (x : StemEngine) :
      firstFault [need (j.desc % 16 == 0) 0xA5 7 j.desc, (s.setStem e x).ownFault j.core j.desc 64 0xA4 7] = none := by
    simp [firstFault_eq_none, align, own']
  have clean' (x : StemEngine) : (s.setStem e x).poisoned (gloc j.desc) 64 = false := clean
  have sound' (x : StemEngine) : Stem.fault (s.setStem e x) j.core t d t.bases = none := sound
  simp only [stemStart, idle, head, up, desc, new, checks, clean', ht, sound', List.isEmpty_nil, Bool.not_true,
    Bool.false_eq_true, if_false]

end Start

/-! ## STEM_JOB_COMPLETE (R261 to R263, R267) -/

/-- The writes of a job's outputs, one after another: the first refusal, and the state after all of them. -/
def stemStores (s : State) (outs : List (Nat × List Byte × CvtFlags)) : Nat × State :=
  outs.foldl (fun a o =>
    let r := a.2.devWrite (gloc o.1) o.2.1
    (if a.1 = St.ok then r.1 else a.1, r.2)) (St.ok, s)

/-- A job whose outputs are stored leaves its flags at its core and frees its engine. -/
def stemStored (s : State) (e : Nat) (j : StemJob) (outs : List (Nat × List Byte × CvtFlags)) : State :=
  ((s.stemStores outs).2.setFlags j.core (outs.foldl (fun b o => b ||| cvtBits o.2.2 flagVovf) 0)).setStem e
    { s.stem e with run := none }

section Done

variable {t0 : Nat} {d : List Byte} (run : (s.stem e).run = some ⟨j, t0, d⟩)
include run

theorem stemDone_early (early : s.now < t0 + 40 + ((stemGroups (opcode j.frame) d).1 - j.done) * (stemGroups (opcode j.frame) d).2) :
    s.stemDone e = s := by
  simp only [stemDone, run, early, if_true]

variable (due : t0 + 40 + ((stemGroups (opcode j.frame) d).1 - j.done) * (stemGroups (opcode j.frame) d).2 ≤ s.now)
  {t : Stem} (ht : Stem.of (opcode j.frame) d = t)
include due ht

theorem stemDone_poisoned {p : Nat × Nat} (bad : (t.touched.find? fun p => s.poisoned (gloc p.1) p.2) = some p) :
    s.stemDone e = s.stemFault e j (faultOf 0xA7 7 p.1) := by
  simp only [stemDone, run, Nat.not_lt.mpr due, if_false, ht, bad]

variable (clean : ∀ p ∈ t.touched, s.poisoned (gloc p.1) p.2 = false)
include clean

/-- A job that has met no poison stores its outputs; how that ends decides the rest. -/
theorem stemDone_clean : s.stemDone e =
    if (s.stemStores (t.outputs s)).1 != St.ok then
      (s.stemStores (t.outputs s)).2.stemFault e j (remoteFault 7 0 (s.stemStores (t.outputs s)).1)
    else if bitOf j.frame 32 then
      ((s.stemStored e j (t.outputs s)).signal (.core j.core j.handle j.pc j.frame) (.here j.core (fld j.frame 31 20)) false 1 []).2
    else s.stemStored e j (t.outputs s) := by
  have none : (t.touched.find? fun p => s.poisoned (gloc p.1) p.2) = none :=
    List.find?_eq_none.mpr fun p hp => Bool.eq_false_iff.mp (clean p hp)
  simp only [stemDone, run, Nat.not_lt.mpr due, if_false, ht, none]
  rfl

theorem stemDone_refused (st : (s.stemStores (t.outputs s)).1 ≠ St.ok) : s.stemDone e =
    (s.stemStores (t.outputs s)).2.stemFault e j (remoteFault 7 0 (s.stemStores (t.outputs s)).1) := by
  rw [stemDone_clean run due ht clean, if_pos (bne_iff_ne.mpr st)]

theorem stemDone_stored (st : (s.stemStores (t.outputs s)).1 = St.ok) : s.stemDone e =
    if bitOf j.frame 32 then
      ((s.stemStored e j (t.outputs s)).signal (.core j.core j.handle j.pc j.frame) (.here j.core (fld j.frame 31 20)) false 1 []).2
    else s.stemStored e j (t.outputs s) := by
  rw [stemDone_clean run due ht clean, if_neg (by simp [st])]

end Done

end State

section Exec

variable (s : State)

theorem exec_stemReservation (c : Nat) : exec (.stemReservation c) s = .next (s.stemArrive c) := rfl
theorem exec_stemGrant (e : Nat) : exec (.stemGrant e) s = .next (s.stemGrant e) := rfl
theorem exec_stemJobStart (e : Nat) : exec (.stemJobStart e) s = .next (s.stemStart e) := rfl
theorem exec_stemJobComplete (e : Nat) : exec (.stemJobComplete e) s = .next (s.stemDone e) := rfl

end Exec

/-- Settles O41: each case is one equation of an event of the stem engine; the outputs of a job are `State.stemStores`, and what it
leaves is `State.stemStored`. -/
theorem stemJobsQueueRunAndStore : Obligations.StemJobsQueueRunAndStore := by
  refine ⟨fun s c j oldest => ⟨fun up => ?listed, fun down => ?refused⟩, fun s e j rest head => ⟨fun free => ?granted, fun full => ?full⟩,
    fun s e j rest idle head up => ⟨fun stopped => ?held, fun new align own clean sound => ?clean⟩,
    fun s e j t0 d run => ⟨fun early => ?early, fun due => ⟨fun p bad => ?poisoned, fun clean => ⟨fun st => ?unstored, fun st => ?stored⟩⟩⟩⟩
  case listed => rw [exec_stemReservation, State.stemArrive_listed oldest up]
  case refused => rw [exec_stemReservation, State.stemArrive_refused oldest down]
  case granted => rw [exec_stemGrant, State.stemGrant_free head free]
  case full => rw [exec_stemGrant, State.stemGrant_full head full]
  case held => rw [exec_stemJobStart, State.stemStart_held idle head up stopped]
  case clean => rw [exec_stemJobStart, State.stemStart_clean idle head up new align own clean rfl rfl sound]
  case early => rw [exec_stemJobComplete, State.stemDone_early run early]
  case poisoned => rw [exec_stemJobComplete, State.stemDone_poisoned run due rfl bad]
  case unstored =>
    rw [exec_stemJobComplete, State.stemDone_refused run due rfl clean st]
    rfl
  case stored =>
    rw [exec_stemJobComplete, State.stemDone_stored run due rfl clean st]
    rfl

end Sys2Proof.Machine

/-! # Clips: their start, their end, their timeout (R282 to R286)

First what a read of the global space leaves as it is; then one equation per case of each of the three events of an ingest engine. -/

namespace Sys2Proof.Machine

namespace State

variable {s t : State} {e : Nat}

/-! ## A read of the global space changes the fabric, the blocks' counts and the outputs only (R28) -/

/-- The state but for its fabric, its blocks and its outputs: what stands there with the fabric `f` in place of its own. -/
def besidesFabric (s : State) (f : Fabric) : State := { s with fab := f, blocks := [], out := [] }

theorem ig_of_besidesFabric (h : t.besidesFabric = s.besidesFabric) : t.ig = s.ig := congrArg (fun v => (v s.fab).ig) h
theorem cores_of_besidesFabric (h : t.besidesFabric = s.besidesFabric) : t.cores = s.cores := congrArg (fun v => (v s.fab).cores) h
theorem progs_of_besidesFabric (h : t.besidesFabric = s.besidesFabric) : t.progs = s.progs := congrArg (fun v => (v s.fab).progs) h

theorem countAccess_besidesFabric (s : State) (a status : Nat) : (s.countAccess a status).besidesFabric = s.besidesFabric := by
  unfold countAccess
  split
  · split <;> rfl
  · rfl

theorem pumpLink_besidesFabric (s : State) (n : Nat) : (s.pumpLink n).besidesFabric = s.besidesFabric := by
  have sent (t : State) (fs : List (List Byte)) : (t.flits n fs).besidesFabric = t.besidesFabric :=
    foldl_keeps besidesFabric (g := fun s f => s.emit (.flit n f)) (fun _ _ => rfl) fs t
  unfold pumpLink
  dsimp only
  split <;> exact sent ..

theorem transmit_besidesFabric (s : State) (tag link : Nat) (r : Req) : (s.transmit tag link r).besidesFabric = s.besidesFabric := by
  rw [transmit, sendPacket, pumpLink_besidesFabric]
  rfl

theorem request_besidesFabric {pkt : Packet} {vl : Nat} {prog : Option Nat} {cont : Cont} (h : s.request pkt vl prog cont = .ok t) :
    t.besidesFabric = s.besidesFabric := by
  simp only [request] at h
  split at h
  · cases h
  · split at h
    · cases h
    · split at h
      · rw [← Except.ok.inj h]; rfl
      · split at h
        · rw [← Except.ok.inj h]; rfl
        · rw [← Except.ok.inj h, transmit_besidesFabric]

theorem cacheLook_besidesFabric (s : State) (g : Nat) : (s.cacheLook g).2.besidesFabric = s.besidesFabric := by
  unfold cacheLook
  dsimp only
  split
  · rfl
  · split <;> rfl

theorem gReadPiece_besidesFabric (s : State) (g n vl : Nat) (prog : Option Nat) (cont : Cont) :
    (s.gReadPiece g n vl prog cont).2.besidesFabric = s.besidesFabric := by
  have looked := cacheLook_besidesFabric s g
  unfold gReadPiece
  dsimp only
  split
  · rfl
  · split
    · split
      · rfl
      · exact countAccess_besidesFabric ..
    · split
      · exact looked
      · split
        · exact looked
        · next sent => exact (request_besidesFabric sent).trans looked

theorem fetchNew_besidesFabric (s : State) (k : FetchKey) (rs : List (Nat × Nat)) (vl : Nat) (prog : Option Nat) :
    (s.fetchNew k rs vl prog).besidesFabric = s.besidesFabric :=
  foldl_keeps (fun a : Nat × State => a.2.besidesFabric)
    (fun _ _ => foldl_keeps (fun a : Nat × State => a.2.besidesFabric) (fun _ _ => gReadPiece_besidesFabric ..) ..) ..

/-! ## CLIP_START (R286) -/

@[simp] theorem igEngine_setIgEngine_same (s : State) (e : Nat) (x : IgEngine) : (s.setIgEngine e x).igEngine e = x :=
  SMap.getD_setD_same _ _ _ _

/-- Engine `e` has taken the clip at `a` of batch `b`, which keeps the clips `rest`; the clip's descriptor is still to be read. -/
def clipTaken (s : State) (e : Nat) (b : Batch) (a : Nat) (rest : List Nat) : State :=
  (({ s with ig := { s.ig with rot := (e + 1) % 8 } } : State).modBatch b.uid fun x =>
    { x with todo := rest, live := x.live + 1 }).setIgEngine e
      { s.igEngine e with run := some ⟨b.uid, a, [], s.now, s.ig.defTmo, none, 0, 3, [], false⟩ }

section Taken

variable (s) (b : Batch) (a : Nat) (rest : List Nat)

theorem clipTaken_run : ((s.clipTaken e b a rest).igEngine e).run = some ⟨b.uid, a, [], s.now, s.ig.defTmo, none, 0, 3, [], false⟩ :=
  congrArg IgEngine.run (igEngine_setIgEngine_same ..)

theorem clipTaken_rot : (s.clipTaken e b a rest).ig.rot = (e + 1) % 8 := rfl

theorem clipTaken_batches : (s.clipTaken e b a rest).ig.batches =
    s.ig.batches.map fun x => if x.uid = b.uid then { x with todo := rest, live := x.live + 1 } else x := rfl

theorem clipTaken_cores : (s.clipTaken e b a rest).cores = s.cores := rfl
theorem clipTaken_progs : (s.clipTaken e b a rest).progs = s.progs := rfl

end Taken

section Start

variable {k a : Nat} {b : Batch} {rest : List Nat} (turn : s.nextClip = some (b, k)) (head : b.todo = a :: rest)
include turn head

theorem clipStart_other (other : k ≠ e) : s.clipStart e = s := by
  simp only [clipStart, turn, head, bne_iff_ne, ne_eq, other, not_false_eq_true, if_true]

theorem clipStart_turn : s.clipStart k = (s.clipTaken k b a rest).fetchNew (.clip k) [(a, 128)] 3 none := by
  simp only [clipStart, turn, head, bne_self_eq_false, Bool.false_eq_true, if_false]
  rfl

end Start

/-! ## What a clip that has ended comes to (R282 to R284) -/

/-- The status of a clip that ends now with `st`: one that would complete at its deadline has timed out (R282). -/
def clipVerdict (s : State) (r : ClipRun) (st : Nat) : Nat :=
  if st = St.ok ∧ r.began + r.tmo * 2400 ≤ s.now then St.timeout else st

/-- The clip `r` of engine `e` writes its record and leaves the engine in state `t`, with the units read in state `s`. -/
def clipRecorded (s t : State) (e : Nat) (r : ClipRun) (status reason dec out : Nat) : State :=
  (t.clipRecord (rd r.desc 0x70 8) status reason dec (out - r.lost.eraseDups.length) e r.batch).clipGone e status dec
    (clipPix r.desc (s.clipUnits e r.desc))

section Close

variable {r : ClipRun} {st reason dec out : Nat} (run : (s.igEngine e).run = some r) (fin : r.fin = some (st, reason, dec, out))
include run fin

theorem clipClose_waiting (wait : r.wait ≠ 0) : s.clipClose e = s := by
  simp only [clipClose, run, fin, bne_iff_ne, ne_eq, wait, not_false_eq_true, if_true]

variable (wait : r.wait = 0) (read : r.desc ≠ [])
include wait read

/-- A clip with its descriptor whose writes are all answered: writes of a fill that are on their way come before the record. -/
theorem clipClose_answered : s.clipClose e =
    let now := s.clipVerdict r st
    let q := if now = St.ok || r.fill || !clipOk r.desc then (0, s) else s.clipSpoil e r
    if q.1 != 0 then q.2.modClip e fun _ => { r with fin := some (now, reason, dec, out), wait := q.1, fill := true }
    else s.clipRecorded q.2 e r now reason dec out := by
  have verdict : (if (decide (st = St.ok) && s.clipLate r) = true then St.timeout else st) = s.clipVerdict r st := by
    simp only [clipVerdict, clipLate, Bool.and_eq_true, decide_eq_true_eq]
  simp only [clipClose, run, fin, wait, verdict, List.isEmpty_eq_false_iff.mpr read, clipRecorded, bne_self_eq_false, Bool.or_false,
    Bool.false_eq_true, if_false]

theorem clipClose_unspoiled (good : s.clipVerdict r st = St.ok ∨ r.fill = true) :
    s.clipClose e = s.clipRecorded s e r (s.clipVerdict r st) reason dec out := by
  have kept : (decide (s.clipVerdict r st = St.ok) || r.fill || !clipOk r.desc) = true := by
    simp only [Bool.or_eq_true, decide_eq_true_eq]
    exact .inl good
  simp only [clipClose_answered run fin wait read, kept, if_true, bne_self_eq_false, Bool.false_eq_true, if_false]

variable (ok : clipOk r.desc = true) (bad : s.clipVerdict r st ≠ St.ok) (fill : r.fill = false)
  {n : Nat} (spoil : s.clipSpoil e r = (n, t))
include ok bad fill spoil

/-- A bad end whose area has not been seen to yet. -/
theorem clipClose_spoiled : s.clipClose e =
    if n != 0 then t.modClip e fun _ => { r with fin := some (s.clipVerdict r st, reason, dec, out), wait := n, fill := true }
    else s.clipRecorded t e r (s.clipVerdict r st) reason dec out := by
  simp only [clipClose_answered run fin wait read, bad, fill, ok, spoil, decide_false, Bool.or_false, Bool.not_true, Bool.false_eq_true,
    if_false]

theorem clipClose_given_up (none : n = 0) : s.clipClose e = s.clipRecorded t e r (s.clipVerdict r st) reason dec out := by
  rw [clipClose_spoiled run fin wait read ok bad fill spoil, if_neg (by simp [none])]

theorem clipClose_filling (some' : n ≠ 0) : s.clipClose e =
    t.modClip e fun _ => { r with fin := some (s.clipVerdict r st, reason, dec, out), wait := n, fill := true } := by
  rw [clipClose_spoiled run fin wait read ok bad fill spoil, if_pos (bne_iff_ne.mpr some')]

end Close

/-! ## CLIP_COMPLETE and CLIP_TIMEOUT (R282, R285) -/

theorem clipComplete_idle (idle : (s.igEngine e).run = none) : s.clipComplete e = s := by simp only [clipComplete, idle]

theorem clipTimeout_idle (idle : (s.igEngine e).run = none) : s.clipTimeout e = s := by simp only [clipTimeout, idle]

/-- Is it a read of the clip of engine `e`, of its descriptor, its table or its units? -/
def clipRead (e : Nat) : Cont → Bool
  | .fetch (.clip n) _ => n == e
  | _ => false

section Events

variable {r : ClipRun} (run : (s.igEngine e).run = some r)
include run

theorem clipComplete_ended {f : Nat × Nat × Nat × Nat} (fin : r.fin = some f) : s.clipComplete e = s.clipClose e := by
  simp only [clipComplete, run, fin]

theorem clipComplete_scanned {st reason : Nat} {us : List (List Byte)} (going : r.fin = none) (read : r.desc ≠ [])
    (scan : clipScan r.desc (2 * rd r.desc 0x10 4 + 2) s e = (some (st, reason, us), t)) :
    s.clipComplete e = t.clipRun e r st reason us := by
  simp only [clipComplete, run, going, List.isEmpty_eq_false_iff.mpr read, Bool.not_false, if_true, scan]

theorem clipTimeout_early (early : s.now < r.began + r.tmo * 2400) : s.clipTimeout e = s := by
  simp only [clipTimeout, run, clipLate, Nat.not_le.mpr early, decide_false, Bool.not_false, if_true]

variable (due : r.began + r.tmo * 2400 ≤ s.now)
include due

/-- At its deadline a clip that goes on gives its reads up and ends; a free number says how many frames its record reports. -/
theorem clipTimeout_going (going : r.fin = none) : s.clipTimeout e =
    let t := s.dropConts (clipRead e)
    clipEnd { t with fresh := t.fresh + 1 } e { r with chn := clipChn r.desc (t.clipUnits e r.desc) } St.timeout 0
      (Config.freeNat t.fresh % 2 ^ 32) := by
  simp only [clipTimeout, run, clipLate, due, decide_true, Bool.not_true, Bool.false_eq_true, if_false, going]
  rfl

theorem clipTimeout_ended {f : Nat × Nat × Nat × Nat} (fin : r.fin = some f) : s.clipTimeout e =
    (s.modClip e fun r => { r with fin := some (if f.1 = St.ok then St.timeout else f.1, f.2) }).clipClose e := by
  simp only [clipTimeout, run, clipLate, due, decide_true, Bool.not_true, Bool.false_eq_true, if_false, fin]

end Events

end State

section Exec

variable (s : State) (e : Nat)

theorem exec_clipStart : exec (.clipStart e) s = .next (s.clipStart e) := rfl
theorem exec_clipComplete : exec (.clipComplete e) s = .next (s.clipComplete e) := rfl
theorem exec_clipTimeout : exec (.clipTimeout e) s = .next (s.clipTimeout e) := rfl

end Exec

/-- Settles O42: each case is one equation of an event of the ingest engine. The descriptor's fetch leaves the ingest block, the cores and
the programs as CLIP_START made them (`State.fetchNew_besidesFabric`). -/
theorem clipsStartEndAndTimeOut : Obligations.ClipsStartEndAndTimeOut := by
  refine ⟨fun s e k b a rest turn head => ⟨fun other => ?other, ?turn⟩, fun s e idle => ⟨?complete, ?timeout⟩,
    fun s t e r st reason us run going read scan => ?scanned,
    fun s e r st reason dec out run fin => ⟨fun wait => ?waiting, fun wait read good => ?unspoiled,
      fun wait read ok bad fill n t spoil => ⟨fun none => ?givenUp, fun some' => ?filling⟩⟩,
    fun s e r run => ⟨fun early => ?early, fun due going => ?going, fun due f fin => ?ended⟩⟩
  case other => rw [exec_clipStart, State.clipStart_other turn head other]
  case turn =>
    rintro rfl
    have fetched := State.fetchNew_besidesFabric (s.clipTaken k b a rest) (.clip k) [(a, 128)] 3 none
    have ig := State.ig_of_besidesFabric fetched
    refine ⟨_, (exec_clipStart s k).trans (congrArg _ (State.clipStart_turn turn head)), ?run, ?rot, ?batches, ?cores, ?progs⟩
    case run => rw [State.igEngine, ig]; exact State.clipTaken_run ..
    case rot => rw [ig]; exact State.clipTaken_rot ..
    case batches => rw [ig]; exact State.clipTaken_batches ..
    case cores => exact (State.cores_of_besidesFabric fetched).trans (State.clipTaken_cores ..)
    case progs => exact (State.progs_of_besidesFabric fetched).trans (State.clipTaken_progs ..)
  case complete => rw [exec_clipComplete, State.clipComplete_idle idle]
  case timeout => rw [exec_clipTimeout, State.clipTimeout_idle idle]
  case scanned => rw [exec_clipComplete, State.clipComplete_scanned run going read scan]
  case waiting => rw [exec_clipComplete, State.clipComplete_ended run fin, State.clipClose_waiting run fin wait]
  case unspoiled =>
    rw [exec_clipComplete, State.clipComplete_ended run fin, State.clipClose_unspoiled run fin wait read good]
    rfl
  case givenUp =>
    rw [exec_clipComplete, State.clipComplete_ended run fin, State.clipClose_given_up run fin wait read ok bad fill spoil none]
    rfl
  case filling =>
    rw [exec_clipComplete, State.clipComplete_ended run fin, State.clipClose_filling run fin wait read ok bad fill spoil some']
    rfl
  case early => rw [exec_clipTimeout, State.clipTimeout_early run early]
  case going => exact ⟨_, (exec_clipTimeout s e).trans (congrArg _ (State.clipTimeout_going run due going))⟩
  case ended => rw [exec_clipTimeout, State.clipTimeout_ended run due fin]

end Sys2Proof.Machine

/-! # Memory-side atomics and window slots (R301 to R309) -/

namespace Sys2Proof.Machine

namespace State

variable {s : State}

/-! ## The queue of a unit -/

section Queue

variable {ix : Nat} {a : Atom} (at' : s.atoms[ix]? = some a)
include at'

theorem atomicApply_stopped (stopped : a.held = true ∨ s.channelPaused a.op.addr = true) : s.atomicApply ix = s := by
  simp only [atomicApply, at']
  exact if_pos (by rcases stopped with h | h <;> simp [h])

theorem atomicApply_behind {b : Atom} (before : b ∈ s.atoms.take ix) (unit : atomUnit b.op.addr = atomUnit a.op.addr) (going : b.held = false)
    (open' : s.channelPaused b.op.addr = false) : s.atomicApply ix = s := by
  have blocked : ((s.atoms.take ix).any fun b => atomUnit b.op.addr == atomUnit a.op.addr &&
      (sameTarget a.op b.op || !(b.held || s.channelPaused b.op.addr))) = true :=
    List.any_eq_true.mpr ⟨b, before, by simp [unit, going, open']⟩
  simp only [atomicApply, at', blocked, Bool.or_true, if_true]

variable (going : a.held = false) (open' : s.channelPaused a.op.addr = false)
  (first : ∀ b ∈ s.atoms.take ix, atomUnit b.op.addr ≠ atomUnit a.op.addr)
include going open' first

/-- The front of its unit's queue is applied, or waits for its window. -/
theorem atomicApply_front : s.atomicApply ix = if s.windowOut a.op then
    (if 256 ≤ (s.atoms.filter fun b => b.held && atomUnit b.op.addr == atomUnit a.op.addr).length then s
      else { s with atoms := s.atoms.set ix { a with held := true } }) else s.takeAtom a := by
  have free : ((s.atoms.take ix).any fun b => atomUnit b.op.addr == atomUnit a.op.addr &&
      (sameTarget a.op b.op || !(b.held || s.channelPaused b.op.addr))) = false :=
    List.any_eq_false.mpr fun b hb => by simp [first b hb]
  simp only [atomicApply, at', going, open', free, Bool.or_false, Bool.false_eq_true, if_false]

theorem atomicApply_applied (inn : s.windowOut a.op = false) : s.atomicApply ix = s.takeAtom a := by
  rw [atomicApply_front at' going open' first, if_neg (by simp [inn])]

theorem atomicApply_held (out : s.windowOut a.op = true)
    (room : (s.atoms.filter fun b => b.held && atomUnit b.op.addr == atomUnit a.op.addr).length < 256) :
    s.atomicApply ix = { s with atoms := s.atoms.set ix { a with held := true } } := by
  rw [atomicApply_front at' going open' first, if_pos out, if_neg (Nat.not_le.mpr room)]

end Queue

/-! ## Applying an atomic -/

theorem atomBytes_eq (op : Nat) : (if op = 1 then 16 else if op = 2 ∨ op = 3 then 4 else 8) = atomBytes op := by
  rcases op with _ | _ | _ | _ | op <;> simp [atomBytes]

variable {o : AtomOp} {uid : Nat}

theorem applyAtom_bad_target
    (bad : o.addr % atomBytes o.op ≠ 0 ∨ ∃ c k, place o.addr = .spad c k ∧ s.inMap c = true ∧ k + atomBytes o.op ≤ spillLo) :
    s.applyAtom o uid = (St.badField, 0, s) := by
  unfold applyAtom
  refine if_pos ?_
  rcases bad with h | ⟨c, k, spad, inn, fits⟩
  · simp [h]
  · simp [spad, inn, fits]

/-- An operation other than XADD that stores `v` and answers `r`. -/
def atomStored (s : State) (o : AtomOp) (v : Nat) (r : W64) : Nat × W64 × State :=
  (St.ok, r, (s.putAt o.addr (le (atomBytes o.op) v)).countOp (atomUnit o.addr))

/-- An XADD that has reached memory with the bytes `bs` there. -/
def xaddReached (s : State) (o : AtomOp) (uid : Nat) (bs : List (Byte × Bool)) : Nat × W64 × State :=
  match s.regionAt o.addr with
  | some (key, r) =>
    if !regionTakes r uid then (St.badState, 0, s)
    else if bs.any (·.2) then (St.poisoned, 0, s)
    else
      let q := s.addElem key r ((o.addr - r.base) / 16) o.addend
      (St.ok, q.1, q.2.countOp (atomUnit o.addr))
  | none => (St.badState, 0, s)

/-- Another operation that has reached memory with the bytes `bs` there. -/
def plainReached (s : State) (o : AtomOp) (bs : List (Byte × Bool)) : Nat × W64 × State :=
  if s.inRegion o.addr (atomBytes o.op) then (St.badState, 0, s)
  else if bs.any (·.2) then (St.poisoned, 0, s)
  else s.atomStored o (o.apply (leNat (bs.map (·.1)))).1 (o.apply (leNat (bs.map (·.1)))).2

section Reached

variable {bs : List (Byte × Bool)} (aligned : o.addr % atomBytes o.op = 0) (offSpad : ∀ c k, place o.addr ≠ .spad c k)
  (read : s.readPiece o.addr (atomBytes o.op) = (St.ok, bs)) (thawed : s.inFrozen o.addr (atomBytes o.op) = false)
include aligned offSpad read thawed

/-- Past the checks of the target (`offSpad` leaves the last case of the match on its place), the operation reaches memory. -/
theorem applyAtom_reached : s.applyAtom o uid = if o.op = 1 then s.xaddReached o uid bs else s.plainReached o bs := by
  simp only [applyAtom, aligned, read, thawed]
  rfl

theorem applyAtom_xadd_no_region (xadd : o.op = 1) (none : s.regionAt o.addr = none) : s.applyAtom o uid = (St.badState, 0, s) := by
  rw [applyAtom_reached aligned offSpad read thawed, if_pos xadd]
  simp only [xaddReached, none]

theorem applyAtom_xadd_open (xadd : o.op = 1) {key : Nat} {r : Region} (region : s.regionAt o.addr = some (key, r)) (phase : r.phase = 2)
    (clean : ∀ b ∈ bs, b.2 = false) : s.applyAtom o uid =
      let q := s.addElem key r ((o.addr - r.base) / 16) o.addend
      (St.ok, q.1, q.2.countOp (atomUnit o.addr)) := by
  have takes : regionTakes r uid = true := by simp [regionTakes, phase]
  have unmarked : bs.any (·.2) = false := List.any_eq_false.mpr fun b hb => by simp [clean b hb]
  rw [applyAtom_reached aligned offSpad read thawed, if_pos xadd]
  simp only [xaddReached, region, takes, unmarked, Bool.not_true, Bool.false_eq_true, if_false]

variable (other : o.op ≠ 1)
include other

theorem applyAtom_in_region (touches : s.inRegion o.addr (atomBytes o.op) = true) : s.applyAtom o uid = (St.badState, 0, s) := by
  rw [applyAtom_reached aligned offSpad read thawed, if_neg other, plainReached, if_pos touches]

variable (apart : s.inRegion o.addr (atomBytes o.op) = false)
include apart

theorem applyAtom_poisoned (marked : ∃ b ∈ bs, b.2 = true) : s.applyAtom o uid = (St.poisoned, 0, s) := by
  rw [applyAtom_reached aligned offSpad read thawed, if_neg other, plainReached, if_neg (by simp [apart]),
    if_pos (List.any_eq_true.mpr marked)]

theorem applyAtom_stores (clean : ∀ b ∈ bs, b.2 = false) : s.applyAtom o uid =
    s.atomStored o (o.apply (leNat (bs.map (·.1)))).1 (o.apply (leNat (bs.map (·.1)))).2 := by
  have unmarked : bs.any (·.2) = false := List.any_eq_false.mpr fun b hb => by simp [clean b hb]
  rw [applyAtom_reached aligned offSpad read thawed, if_neg other, plainReached, if_neg (by simp [apart]), if_neg (by simp [unmarked])]

end Reached

/-! ## What an atomic stores, and where -/

section Put

variable {a : Nat} {bs : List Byte} (there : ∀ h c, s.site a bs.length ≠ .saved h c)
include there

theorem putAt_not_saved : s.putAt a bs = s.store a bs := by
  unfold putAt
  split
  case h_1 h c saved => exact absurd saved (there h c)
  case h_2 => rfl

theorem putAt_bytesOutside : BytesOutside s (s.putAt a bs) a bs.length := by
  rw [putAt_not_saved there]
  exact fun b hb => Memory.byte_store_outside _ _ _ _ _ hb

theorem read_putAt : (s.putAt a bs).mem.read a bs.length = bs := by
  rw [putAt_not_saved there]
  refine List.ext_getElem (by simp) fun i hi hj => ?_
  simp only [store, Memory.read, List.getElem_map, List.getElem_range]
  exact Memory.byte_store_inside _ _ _ _ _ hj

end Put

/-! ## The slots of a unit -/

variable {u : Nat}

theorem slotSwitch_still (h : (s.xunit u).slots = [] ∨ (s.xunit u).wait = []) : s.slotSwitch u = s := by
  rcases h with h | h <;> simp only [slotSwitch, h]
  cases (s.xunit u).slots <;> rfl

section Switch

variable {out inn : Nat} {rest more : List Nat} (slots : (s.xunit u).slots = out :: rest) (wait : (s.xunit u).wait = inn :: more)
include slots wait

theorem slotSwitch_early (early : s.now < SMap.getD (s.xunit u).due out 0) : s.slotSwitch u = s := by
  simp only [slotSwitch, slots, wait, early, if_true]

theorem slotSwitch_due (due : SMap.getD (s.xunit u).due out 0 ≤ s.now) : s.slotSwitch u =
    unhold (s.setXunit u { s.xunit u with
      slots := rest ++ [inn], wait := more ++ [out]
      due := SMap.put (SMap.del (s.xunit u).due out) inn s.sliceEnd }) inn u := by
  simp only [slotSwitch, slots, wait, Nat.not_lt.mpr due, if_false]
  rfl

end Switch

end State

theorem exec_atomicApply (ix : Nat) (s : State) : exec (.atomicApply ix) s = .next (s.atomicApply ix) := rfl
theorem exec_windowSlotSwitch (u : Nat) (s : State) : exec (.windowSlotSwitch u) s = .next (s.slotSwitch u) := rfl

/-- Settles O43: an atomic at the front of its unit by `State.atomicApply_front`, what it does there by `State.applyAtom_reached`, its bytes
by `State.putAt_not_saved`, and the slots by the cases of `State.slotSwitch`. -/
theorem atomicsAreAppliedAtTheirUnits : Obligations.AtomicsAreAppliedAtTheirUnits := by
  refine ⟨fun s ix a at' => ⟨fun stopped => ?stopped, fun b before unit going open' => ?behind, fun going open' first =>
      ⟨fun inn => ?applied, fun out room => ?held⟩⟩, fun s o bs uid small => ?apply,
    fun s a bs there => ⟨State.putAt_bytesOutside there, State.read_putAt there⟩,
    fun s u => ⟨fun still => ?still, fun out rest inn more slots wait => ⟨fun early => ?early, fun due => ?due⟩⟩⟩
  case stopped => rw [exec_atomicApply, State.atomicApply_stopped at' stopped]
  case behind => rw [exec_atomicApply, State.atomicApply_behind at' before unit going open']
  case applied =>
    rw [exec_atomicApply, State.atomicApply_applied at' going open' first inn]
    rfl
  case held => rw [exec_atomicApply, State.atomicApply_held at' going open' first out room]
  case still => rw [exec_windowSlotSwitch, State.slotSwitch_still still]
  case early => rw [exec_windowSlotSwitch, State.slotSwitch_early slots wait early]
  case due =>
    rw [exec_windowSlotSwitch, State.slotSwitch_due slots wait due]
    rfl
  case apply =>
    rw [State.atomBytes_eq]
    refine ⟨State.applyAtom_bad_target, fun aligned offSpad read thawed =>
      ⟨State.applyAtom_xadd_no_region aligned offSpad read thawed,
       fun xadd key r => State.applyAtom_xadd_open aligned offSpad read thawed xadd,
       State.applyAtom_in_region aligned offSpad read thawed,
       State.applyAtom_poisoned aligned offSpad read thawed,
       fun other apart clean => ?stores⟩⟩
    rw [State.applyAtom_stores aligned offSpad read thawed other apart clean]
    refine ⟨fun op => ?fmin, fun op => ?fmax, fun op => ?smin, fun op => ?smax, fun op => ?swap, fun op => ?cas, fun op => ?faddc⟩
    case faddc =>
      simp only [State.atomStored, AtomOp.apply, op]
      exact ⟨_, rfl, by split <;> simp_all⟩
    all_goals simp only [State.atomStored, AtomOp.apply, op]

end Sys2Proof.Machine

/-! # The memory controllers: recalibration pauses and the patrol scrubber (R291, R295, R299) -/

namespace Sys2Proof.Machine

@[simp] theorem State.mc_setMc_same (s : State) (k : Nat) (x : Mc) : (s.setMc k x).mc k = x := SMap.getD_setD_same _ _ _ _

/-- An address of LPDDR5X, for programs or for firmware. -/
theorem place_of_lt_fwEnd {a : Nat} (h : a < fwEnd) : place a = .lp ∨ place a = .fw := by
  by_cases hp : a < lpEnd
  · exact .inl (if_pos hp)
  · exact .inr ((if_neg hp).trans (if_pos h))

theorem granBase_of_lt_fwEnd {a : Nat} (h : a < fwEnd) : Memory.granBase a = a / 64 * 64 := by
  simp only [Memory.granBase, Memory.granSize, if_pos h]

namespace State

variable {s : State} {ch a : Nat}

/-! ## Pauses -/

theorem channelPaused_of_lpddr (lp : place a = .lp ∨ place a = .fw) :
    s.channelPaused a = (SMap.get? s.paused (a / 256 % 96)).isSome := by
  rcases lp with h | h <;> simp only [channelPaused, h, channelOf]

theorem recalPause_free (small : ch < 96) (free : ∀ p ∈ s.paused, p.1 % 12 ≠ ch % 12) :
    s.recalPause ch = { s with paused := SMap.put s.paused ch s.now } :=
  if_neg (by simpa [Nat.not_le.mpr small] using free)

theorem recalPause_refused (h : 96 ≤ ch ∨ ∃ p ∈ s.paused, p.1 % 12 = ch % 12) : s.recalPause ch = s :=
  if_pos (by simpa using h)

theorem recalEnd_not_paused (h : SMap.get? s.paused ch = none) : s.recalEnd ch = s := by simp only [recalEnd, h]

/-- A controller whose channel has paused `n` units of 10 ns. -/
def keptPause (x : Mc) (n : Nat) : Mc := if x.longest.toNat < n then { x with longest := BitVec.ofNat 16 (min n 65535) } else x

theorem recalEnd_paused {t : Nat} (h : SMap.get? s.paused ch = some t) : s.recalEnd ch =
    ({ s with paused := SMap.del s.paused ch } : State).setMc (ch % 12) (keptPause (s.mc (ch % 12)) (min ((s.now - t) / 24) 200)) := by
  simp only [recalEnd, h]
  rfl

theorem longest_keptPause (x : Mc) {n : Nat} (small : n < 65536) : (keptPause x n).longest.toNat = max x.longest.toNat n := by
  unfold keptPause
  split
  · rw [BitVec.toNat_ofNat]
    omega
  · omega

theorem ce_keptPause (x : Mc) (n : Nat) : (keptPause x n).ce = x.ce := by unfold keptPause; split <;> rfl
theorem ue_keptPause (x : Mc) (n : Nat) : (keptPause x n).ue = x.ue := by unfold keptPause; split <;> rfl

/-! ## The scrubber -/

section Scrub

variable (lp : a < fwEnd)
include lp

theorem scrub_corrected : s.scrub a 1 = (s.setMc (a / 256 % 12) { s.mc (a / 256 % 12) with ce := (s.mc (a / 256 % 12)).ce + 1 }).logErr
    (a / 256 % 12) 1 (BitVec.ofNat 64 a) := by
  rcases place_of_lt_fwEnd lp with h | h <;>
    simp only [scrub, h, lp, Bool.not_true, Bool.false_eq_true, if_false, if_true]

/-- The device with the granule of an uncorrectable error poisoned, counted and its address kept. -/
def poisonFound (s : State) (a : Nat) : State :=
  let k := a / 256 % 12
  let t := s.setMc k { s.mc k with ue := (s.mc k).ue + 1, ueAddr := BitVec.ofNat 64 (a / 64 * 64) }
  { t with mem := s.mem.mark (a / 64 * 64) true }

theorem scrub_uncorrectable : s.scrub a 2 = if s.mem.granPois (a / 64 * 64) then s else
    (s.poisonFound a).logErr (a / 256 % 12) 2 (BitVec.ofNat 64 (a / 64 * 64)) St.poisoned := by
  rcases place_of_lt_fwEnd lp with h | h <;>
    simp only [scrub, h, lp, granBase_of_lt_fwEnd lp, Bool.not_true, Bool.false_eq_true, if_false, if_true,
      OfNat.ofNat_ne_one] <;> rfl

end Scrub

theorem mc_poisonFound (a : Nat) : (s.poisonFound a).mc (a / 256 % 12) = { s.mc (a / 256 % 12) with
    ue := (s.mc (a / 256 % 12)).ue + 1, ueAddr := BitVec.ofNat 64 (a / 64 * 64) } := mc_setMc_same ..

end State

theorem exec_recalibrationPause (ch : Nat) (b : Bool) (s : State) : exec (.recalibrationPause ch b) s = .next (s.recalPause ch) := rfl
theorem exec_recalibrationPauseEnd (ch : Nat) (s : State) : exec (.recalibrationPauseEnd ch) s = .next (s.recalEnd ch) := rfl
theorem exec_patrolScrub (a err : Nat) (s : State) : exec (.patrolScrub a err) s = .next (s.scrub a err) := rfl

/-- Settles O44: a pause begins and ends by `State.recalPause` and `State.recalEnd`; what the scrubber finds changes marks, a controller
and the log, and no byte. -/
theorem memoryControllersPauseAndScrub : Obligations.MemoryControllersPauseAndScrub := by
  refine ⟨fun s ch b => ⟨fun small free => ⟨?pauses, fun a lp here => ?held⟩, fun other => ?refused⟩,
    fun s ch => ⟨fun none => ?notPaused, fun t paused => ⟨_, (exec_recalibrationPauseEnd ch s).trans (congrArg _ (State.recalEnd_paused paused)), ?ended⟩⟩,
    fun s a lp => ⟨?corrected, fun known => ?known, fun new => ⟨s.poisonFound a, ?found, ?poisoned⟩⟩⟩
  case pauses => rw [exec_recalibrationPause, State.recalPause_free small free]
  case held => rw [State.channelPaused_of_lpddr lp, here, SMap.get?_put_same, Option.isSome_some]
  case refused => rw [exec_recalibrationPause, State.recalPause_refused other]
  case notPaused => rw [exec_recalibrationPauseEnd, State.recalEnd_not_paused none]
  case ended =>
    rw [State.mc_setMc_same]
    exact ⟨SMap.get?_del_same _ _, State.longest_keptPause _ (by omega), State.ce_keptPause _ _, State.ue_keptPause _ _, rfl, rfl⟩
  case corrected => rw [exec_patrolScrub, State.scrub_corrected lp]
  case known => rw [exec_patrolScrub, State.scrub_uncorrectable lp, if_pos known]
  case found => rw [exec_patrolScrub, State.scrub_uncorrectable lp, if_neg (by simp [new])]
  case poisoned =>
    rw [State.mc_poisonFound]
    exact ⟨Memory.granPois_mark_same _ _ _, fun b => rfl, fun h other => Memory.granPois_mark_other _ _ _ _ other, rfl, rfl, rfl, rfl⟩

end Sys2Proof.Machine

/-! # Streams: how a descriptor's row runs it (R312, R316, R318 to R321) -/

namespace Sys2Proof.Machine

/-- Every descriptor's row is the shared row of its type, checks, start and piece. -/
theorem exec_of_descRows {st : Nat} {row : DescRow} (h : row ∈ descRows st) (s : State) :
    exec row.row s = .next (s.streamRow st row.ty row.check row.begins row.piece) := by
  simp only [descRows, List.mem_cons, List.not_mem_nil, or_false] at h
  rcases h with rfl | rfl | rfl | rfl | rfl | rfl | rfl | rfl | rfl | rfl | rfl | rfl | rfl | rfl <;> rfl

namespace State

/-- The stream with the next descriptor of its ring running; the pointer of its class engine has gone past it. -/
def started (s : State) (st : Nat) (x : Stream) (d : Posted) (rest : List Posted) : State :=
  (s.granted st x).setStream st { x with run := some (runOf d s.now), queue := rest }

/-- A descriptor that has just started is begun, and does its first piece unless it ended at once. -/
def firstPiece (s : State) (st : Nat) (begins piece : State → Nat → State) : State :=
  match ((begins s st).stream? st).bind (·.run) with
  | some r => if r.fin then begins s st else piece (begins s st) st
  | none => begins s st

section Row

variable {s : State} {st ty : Nat} {check : State → Stream → List Byte → Bool} {begins piece : State → Nat → State}

theorem streamRow_no_stream (none : s.stream? st = none) : s.streamRow st ty check begins piece = s := by
  simp only [streamRow, none]

variable {x : Stream} (hx : s.stream? st = some x)
include hx

theorem streamRow_not_its_turn (off : s.ready st x = false ∨ s.turnOf st x = false) : s.streamRow st ty check begins piece = s := by
  have skip : (!s.ready st x || !s.turnOf st x) = true := by simpa using off
  simp only [streamRow, hx, skip, if_true]

variable (ready : s.ready st x = true) (turn : s.turnOf st x = true)
include ready turn

/-- A running descriptor of the row's type does a piece until it has ended. -/
theorem streamRow_running {r : Run} (run : x.run = some r) : s.streamRow st ty check begins piece =
    if rd r.desc 0 1 = ty && !r.fin then piece (s.granted st x) st else s := by
  simp only [streamRow, hx, ready, turn, run, Bool.not_true, Bool.or_false, Bool.false_eq_true, if_false]

theorem streamRow_piece {r : Run} (run : x.run = some r) (type : rd r.desc 0 1 = ty) (going : r.fin = false) :
    s.streamRow st ty check begins piece = piece (s.granted st x) st := by
  rw [streamRow_running hx ready turn run, if_pos (by simp [type, going])]

theorem streamRow_passes_by {r : Run} (run : x.run = some r) (other : rd r.desc 0 1 ≠ ty ∨ r.fin = true) :
    s.streamRow st ty check begins piece = s := by
  rw [streamRow_running hx ready turn run, if_neg (by rcases other with h | h <;> simp [h])]

variable (idle : x.run = none)
include idle

theorem streamRow_empty (empty : x.queue = []) : s.streamRow st ty check begins piece = s := by
  simp only [streamRow, hx, ready, turn, idle, empty, Bool.not_true, Bool.or_false, Bool.false_eq_true, if_false]

variable {d : Posted} {rest : List Posted} (queue : x.queue = d :: rest)
include queue

/-- The next descriptor waits for the row of its own type and for room in its class engine. -/
theorem streamRow_waits (other : rd d.desc 0 1 ≠ ty ∨ 16 ≤ s.runsOf st x) : s.streamRow st ty check begins piece = s := by
  have skip : (rd d.desc 0 1 != ty || decide (16 ≤ s.runsOf st x)) = true := by simpa using other
  simp only [streamRow, hx, ready, turn, idle, queue, Bool.not_true, Bool.or_false, Bool.false_eq_true, if_false, skip, if_true]

variable (type : rd d.desc 0 1 = ty) (room : s.runsOf st x < 16)
include type room

theorem streamRow_next : s.streamRow st ty check begins piece =
    if !typeClass ty x.cls || !headerOk d.desc || !check (s.started st x d rest) x d.desc
    then (s.started st x d rest).finish st St.badField else (s.started st x d rest).firstPiece st begins piece := by
  have go : (rd d.desc 0 1 != ty || decide (16 ≤ s.runsOf st x)) = false := by simp [type, room]
  simp only [streamRow, hx, ready, turn, idle, queue, Bool.not_true, Bool.or_false, Bool.false_eq_true, if_false, go]
  rfl

theorem streamRow_refused (bad : (typeClass ty x.cls && headerOk d.desc && check (s.started st x d rest) x d.desc) = false) :
    s.streamRow st ty check begins piece = (s.started st x d rest).finish st St.badField := by
  rw [streamRow_next hx ready turn idle queue type room, ← Bool.not_and, ← Bool.not_and, bad]
  rfl

theorem streamRow_starts (good : (typeClass ty x.cls && headerOk d.desc && check (s.started st x d rest) x d.desc) = true) :
    s.streamRow st ty check begins piece = (s.started st x d rest).firstPiece st begins piece := by
  rw [streamRow_next hx ready turn idle queue type room, ← Bool.not_and, ← Bool.not_and, good]
  rfl

end Row

end State

/-- Settles O45: the row gives `State.streamRow` (`exec_of_descRows`), and each case is one of its cases. -/
theorem descriptorsRunPieceByPiece : Obligations.DescriptorsRunPieceByPiece := by
  intro s st row mem
  rw [exec_of_descRows mem]
  refine ⟨fun none => ?noStream, fun x hx => ⟨fun off => ?off, fun ready turn r run => ⟨fun other => ?passes, fun type going => ?piece⟩,
    fun ready turn idle empty => ?empty, fun ready turn idle d rest queue =>
      ⟨fun other => ?waits, fun type room bad => ?refused, fun type room good => ?starts⟩⟩⟩
  case noStream => rw [State.streamRow_no_stream none]
  case off => rw [State.streamRow_not_its_turn hx off]
  case passes => rw [State.streamRow_passes_by hx ready turn run other]
  case piece => rw [State.streamRow_piece hx ready turn run type going]
  case empty => rw [State.streamRow_empty hx ready turn idle empty]
  case waits => rw [State.streamRow_waits hx ready turn idle queue other]
  case refused =>
    rw [State.streamRow_refused hx ready turn idle queue type room bad]
    rfl
  case starts =>
    rw [State.streamRow_starts hx ready turn idle queue type room good]
    rfl

end Sys2Proof.Machine

/-! # WAITFLAG, XWOPEN, XWCLOSE, the end of a descriptor and a stream's slice (R305, R308, R314 to R322) -/

namespace Sys2Proof.Machine

/-! ## Memory that is zeroed -/

namespace Memory

theorem byte_cut_inside (m : Memory) {lo hi b : Nat} (h : inside lo hi b = true) : (m.cut lo hi).byte b = 0 := by
  have listed : SMap.get? (m.cut lo hi).cells b = none :=
    (SMap.get?_filter m.cells (fun a => !inside lo hi a) b).trans (by simp [h])
  simp only [byte, SMap.getD, listed, dflt, undefAt_cut_inside m lo hi b h, Option.getD_none]

theorem byte_zero_inside (m : Memory) {lo hi b : Nat} (h : inside lo hi b = true) : (m.zero lo hi).byte b = 0 := by
  have same : (m.zero lo hi).byte b = (m.cut lo hi).byte b := by
    simp only [zero]
    split <;> rfl
  rw [same, byte_cut_inside m h]

end Memory

namespace State

variable {s : State}

/-! ## Frames of the stream tracker's operations -/

@[simp] theorem stream?_setStream_same (s : State) (st : Nat) (x : Stream) : (s.setStream st x).stream? st = some x := SMap.get?_put_same _ _ _

theorem modRun_frame (s : State) (st : Nat) (g : Run → Run) : s.modRun st g = { s with streams := (s.modRun st g).streams } := by
  unfold modRun modStream
  split <;> rfl

@[simp] theorem modRun_regions (s : State) (st : Nat) (g : Run → Run) : (s.modRun st g).regions = s.regions := by rw [modRun_frame]
@[simp] theorem modRun_mem (s : State) (st : Nat) (g : Run → Run) : (s.modRun st g).mem = s.mem := by rw [modRun_frame]
@[simp] theorem finish_regions (s : State) (st status : Nat) : (s.finish st status).regions = s.regions := modRun_regions ..
@[simp] theorem finish_mem (s : State) (st status : Nat) : (s.finish st status).mem = s.mem := modRun_mem ..

theorem granted_frame (s : State) (st : Nat) (x : Stream) : s.granted st x = { s with turns := (s.granted st x).turns } := by
  unfold granted
  split <;> rfl

@[simp] theorem granted_regions (s : State) (st : Nat) (x : Stream) : (s.granted st x).regions = s.regions := by rw [granted_frame]
@[simp] theorem granted_stream? (s : State) (st : Nat) (x : Stream) (n : Nat) : (s.granted st x).stream? n = s.stream? n := by
  rw [granted_frame]; rfl
@[simp] theorem granted_inFrozen (s : State) (st : Nat) (x : Stream) (a n : Nat) : (s.granted st x).inFrozen a n = s.inFrozen a n := by
  rw [granted_frame]; rfl
@[simp] theorem granted_site (s : State) (st : Nat) (x : Stream) (a n : Nat) : (s.granted st x).site a n = s.site a n := by
  rw [granted_frame]; rfl

/-- A descriptor that moves no data takes no turn of its engine. -/
theorem granted_of_not_moving {st : Nat} {x : Stream} {r : Run} (run : x.run = some r) (still : moves r.desc = false) : s.granted st x = s := by
  simp only [granted, eligible, run, still, Bool.false_and, Bool.and_false, Bool.false_eq_true, if_false]

theorem running?_of {st : Nat} {x : Stream} {r : Run} (hx : s.stream? st = some x) (run : x.run = some r) :
    s.running? st = some (x, r) := by
  simp only [running?, hx, run, Option.map_some]

/-! ## WAITFLAG (R322) -/

section Wait

variable {st : Nat} {x : Stream} {r : Run} (hr : s.running? st = some (x, r))
include hr

theorem waitPiece_met (met : 0 ≤ (s.waitValue x r.desc - BitVec.ofNat 32 (rd r.desc 0x14 4)).toInt) : s.waitPiece st =
    (s.modRun st fun q => { q with pieces := 1, value := (s.waitValue x r.desc).toNat }).finish st St.ok := by
  simp only [waitPiece, hr, sge, met, decide_true, if_true]

theorem waitPiece_waits (less : (s.waitValue x r.desc - BitVec.ofNat 32 (rd r.desc 0x14 4)).toInt < 0) : s.waitPiece st = s := by
  simp only [waitPiece, hr, sge, Int.not_le.mpr less, decide_false, Bool.false_eq_true, if_false]

theorem waitTimeout_still
    (h : rd r.desc 0 1 ≠ 0xA ∨ r.fin = true ∨ rd r.desc 0x18 4 = 0 ∨ s.now < r.began + rd r.desc 0x18 4 * 2400) :
    s.waitTimeout st = s := by
  simp only [waitTimeout, hr]
  exact if_pos (by simpa [or_assoc] using h)

theorem waitTimeout_expired (type : rd r.desc 0 1 = 0xA) (going : r.fin = false) (limited : rd r.desc 0x18 4 ≠ 0)
    (due : r.began + rd r.desc 0x18 4 * 2400 ≤ s.now)
    (less : (s.waitValue x r.desc - BitVec.ofNat 32 (rd r.desc 0x14 4)).toInt < 0) : s.waitTimeout st =
      (s.modRun st fun q => { q with value := (s.waitValue x r.desc).toNat }).finish st St.timeout := by
  have expired : ¬ (rd r.desc 0 1 != 0xA || r.fin || decide (rd r.desc 0x18 4 = 0) ||
      decide (s.now < r.began + rd r.desc 0x18 4 * 2400)) = true := by simp [type, going, limited, due]
  simp only [waitTimeout, hr]
  rw [if_neg expired]
  simp only [waitPiece_waits hr less, hr, going, Bool.false_eq_true, if_false]

end Wait

/-! ## Opening a region (R305) -/

theorem modSaved_mem (s : State) (h c : Nat) (g : Saved → Saved) : (s.modSaved h c g).mem = s.mem := by
  unfold modSaved modProg
  split <;> rfl

/-- Bytes stored wherever they are served change no byte of memory outside their addresses. -/
theorem byte_putAt_outside (s : State) {a b : Nat} {bs : List Byte} (h : b < a ∨ a + bs.length ≤ b) :
    (s.putAt a bs).mem.byte b = s.mem.byte b := by
  unfold putAt
  split
  case h_1 => rw [modSaved_mem]
  case h_2 => exact Memory.byte_store_outside _ _ _ _ _ h

/-- Showing the elements of a region changes no byte outside its elements. -/
theorem byte_shownElems_outside (s : State) (r : Region) {b : Nat} (h : b < r.base ∨ r.base + 16 * r.count ≤ b) :
    (s.shownElems r).mem.byte b = s.mem.byte b := by
  unfold shownElems iterate
  refine List.foldlRecOn (List.range r.count) _ (motive := fun t : State => t.mem.byte b = s.mem.byte b) rfl fun t same i hi => ?_
  have lt := List.mem_range.mp hi
  dsimp only
  split
  · exact same
  · rw [byte_putAt_outside t (by rw [length_le_bytes]; omega), same]

@[simp] theorem takeSlots_regions (key : Nat) (us : List Nat) (s : State) :
    (us.foldl (fun (s : State) u => s.takeSlot key u) s).regions = s.regions :=
  List.foldlRecOn us _ (motive := fun t : State => t.regions = s.regions) rfl fun _ same _ _ => same

@[simp] theorem takeSlots_mem (key : Nat) (us : List Nat) (s : State) :
    (us.foldl (fun (s : State) u => s.takeSlot key u) s).mem = s.mem :=
  List.foldlRecOn us _ (motive := fun t : State => t.mem = s.mem) rfl fun _ same _ _ => same

section Open

variable {base shadow count : Nat} {eb : Int}

/-- The elements of an area that keeps the rules lie apart from its shadow words. -/
theorem meet_of_regionBad_none (h : s.regionBad base shadow count eb = none) : meet base (16 * count) shadow (8 * count) = false := by
  unfold regionBad at h
  dsimp only at h
  split_ifs at h with _ _ _ _ _ apart
  exact Bool.eq_false_iff.mpr apart

/-- The region as an opening leaves it. -/
def openedRegion (base shadow count : Nat) (eb : Int) : Region := ⟨base, shadow, count, eb, 2, 0, [], 0⟩

/-- The device with the region's opening complete. -/
def opened (s : State) (base shadow count : Nat) (eb : Int) : State := (s.beginOpen base shadow count eb).finishOpen base

theorem get?_beginOpen : SMap.get? (s.beginOpen base shadow count eb).regions base = some ⟨base, shadow, count, eb, 1, 0, [], 0⟩ :=
  SMap.get?_put_same _ _ _

theorem openRegion_beginOpen (thawed : s.inFrozen shadow (8 * count) = false) :
    (s.beginOpen base shadow count eb).openRegion base = (St.ok, s.opened base shadow count eb) := by
  simp only [openRegion, get?_beginOpen]
  exact if_neg (by rw [show (s.beginOpen base shadow count eb).inFrozen shadow (8 * count) = false from thawed]; exact Bool.false_ne_true)

theorem get?_opened : SMap.get? (s.opened base shadow count eb).regions base = some (openedRegion base shadow count eb) := by
  simp only [opened, finishOpen, get?_beginOpen, takeSlots_regions, SMap.get?_put_same, openedRegion]

theorem byte_opened_shadow (apart : meet base (16 * count) shadow (8 * count) = false) (here : s.site shadow (8 * count) = .mem) {b : Nat}
    (lo : shadow ≤ b) (hi : b < shadow + 8 * count) : (s.opened base shadow count eb).mem.byte b = 0 := by
  have outside : b < base ∨ base + 16 * count ≤ b := by
    simp only [meet, Bool.and_eq_false_iff, decide_eq_false_iff_not] at apart
    omega
  have site : (s.beginOpen base shadow count eb).site shadow (8 * count) = .mem := here
  simp only [opened, finishOpen, get?_beginOpen, takeSlots_mem]
  rw [byte_shownElems_outside _ _ outside]
  simp only [zeroAt, site]
  exact Memory.byte_zero_inside _ (by simp [Memory.inside, lo, hi])

end Open

section Pieces

variable {st : Nat} {x : Stream} {r : Run} (hr : s.running? st = some (x, r))
include hr

theorem xwopenPiece_bad (bad : s.regionBad (rd r.desc 0x10 8) (rd r.desc 0x18 8) (rd r.desc 0x20 4) (rdS r.desc 0x24 2) ≠ none) :
    s.xwopenPiece st = s.finish st St.badField := by
  simp only [xwopenPiece, hr, Option.isSome_iff_ne_none.mpr bad, if_true]

section Good

variable (good : s.regionBad (rd r.desc 0x10 8) (rd r.desc 0x18 8) (rd r.desc 0x20 4) (rdS r.desc 0x24 2) = none)
include good

theorem xwopenPiece_full (full : 4096 ≤ s.regions.length) : s.xwopenPiece st = s.finish st St.badState := by
  simp only [xwopenPiece, hr, good, Option.isSome_none, Bool.false_eq_true, if_false, full, if_true]

theorem xwopenPiece_opens (room : s.regions.length < 4096) (thawed : s.inFrozen (rd r.desc 0x18 8) (8 * rd r.desc 0x20 4) = false) :
    s.xwopenPiece st = ((s.opened (rd r.desc 0x10 8) (rd r.desc 0x18 8) (rd r.desc 0x20 4) (rdS r.desc 0x24 2)).modRun st
      fun q => { q with pieces := 1 }).finish st St.ok := by
  simp only [xwopenPiece, hr, good, Option.isSome_none, Bool.false_eq_true, if_false, Nat.not_le.mpr room, openRegion_beginOpen thawed]

end Good

/-! ## Closing a region (R308) -/

theorem xwclosePiece_none (none : SMap.get? s.regions (rd r.desc 0x10 8) = none) : s.xwclosePiece st = s.finish st St.badField := by
  simp only [xwclosePiece, hr, none]

variable {g : Region} (region : SMap.get? s.regions (rd r.desc 0x10 8) = some g)
include region

theorem xwclosePiece_not_open (phase : g.phase ≠ 2) : s.xwclosePiece st = s.finish st St.badState := by
  simp only [xwclosePiece, hr, region, bne_iff_ne.mpr phase, if_true]

theorem xwclosePiece_closes (phase : g.phase = 2) : s.xwclosePiece st =
    ((s.closeRegion (rd r.desc 0x10 8)).2.2.modRun st fun q => { q with pieces := 1, value := (s.closeRegion (rd r.desc 0x10 8)).2.1 }).finish
      st (s.closeRegion (rd r.desc 0x10 8)).1 := by
  simp only [xwclosePiece, hr, region, phase, bne_self_eq_false, Bool.false_eq_true, if_false]

end Pieces

/-! ## The end of a descriptor (R314, R316, R320) -/

section Complete

variable {st : Nat} {x : Stream} {r : Run} (hx : s.stream? st = some x) (run : x.run = some r)
include hx run

/-- While a descriptor runs, nothing of a reserved TYPE starts. -/
theorem descComplete_waits (h : r.fin = false ∨ r.wait ≠ 0 ∨ x.paused = true) : s.descComplete st = s := by
  have waits : (!r.fin || r.wait != 0 || x.paused) = true := by simpa [or_assoc] using h
  simp only [descComplete, hx, run, running?_of hx run, waits, if_true]

theorem descComplete_retires (fin : r.fin = true) (wait : r.wait = 0) (going : x.paused = false)
    (signalled : r.res = 4 ∨ (r.res = 3 ∧ s.alive r.aux = false)) : s.descComplete st = s.retire st x r := by
  have out : (!r.fin || r.wait != 0 || x.paused) = false := by simp [fin, wait, going]
  have stands : r.res ≠ 0 ∧ r.res ≠ 2 := by omega
  have leaves : (decide (r.res = 4) || decide (r.res = 3) && !s.alive r.aux) = true := by simpa using signalled
  simp only [descComplete, hx, run, running?_of hx run, out, stands, leaves, decide_false, Bool.false_and, Bool.false_eq_true, if_false, if_true]

end Complete

section Retire

variable {st : Nat} {x : Stream} {r : Run}

theorem retire_ok (ok : r.status = St.ok) (busy : Stream.idle { x with run := none } = false) : s.retire st x r =
    deliver s.sposts.length (s.setStream st { x with run := none, done := x.done + 1, last := St.ok, stopped := false }) := by
  have busy' (n : W32) : Stream.idle { x with run := none, done := n, last := St.ok, stopped := false } = false := busy
  simp only [retire, ok, bne_self_eq_false, Bool.false_and, Bool.false_eq_true, if_false, busy']
  cases x.owner <;> rfl

theorem retire_stops (failed : r.status ≠ St.ok) (stop : rd r.desc 1 1 / 2 % 2 = 1) {p : Port}
    (owner : x.owner = .partner p) (busy : Stream.idle { x with run := none, stopped := true } = false) : s.retire st x r =
    deliver s.sposts.length ((s.setStream st { x with run := none, done := x.done + 1, last := r.status, stopped := true }).event 3 r.status
      (BitVec.ofNat 64 st) (BitVec.ofNat 64 (portNo p))) := by
  have busy' (n : W32) : Stream.idle { x with owner := .partner p, run := none, done := n, last := r.status, stopped := true } = false := busy
  have stops : (r.status != St.ok && (r.struck || rd r.desc 1 1 / 2 % 2 == 1)) = true := by simp [failed, stop]
  simp only [retire, stops, owner, if_true, busy', Bool.false_eq_true, if_false, event_sposts]
  rfl

end Retire

/-! ## The end of a stream's slice (R41, R318) -/

section Slice

variable {st : Nat} {x : Stream} (hx : s.stream? st = some x)
include hx

theorem sliceExpiry_yields (ready : s.ready st x = true) (busy : Stream.idle x = false) (between : s.midPiece st = false) (due : x.due ≤ s.now)
    (waits : ∃ n y, (n, y) ∈ s.streams ∧ n % 16 = st % 16 ∧ y.saved = true) :
    s.sliceExpiry st = (s.setStream st { x with saved := true, due := s.now }).bringIn (st % 16) := by
  obtain ⟨n, y, mem, slice, saved⟩ := waits
  have waits : (s.streams.any fun y => y.1 % 16 == st % 16 && y.2.saved) = true := List.any_eq_true.mpr ⟨(n, y), mem, by simp [slice, saved]⟩
  simp only [sliceExpiry, hx, ready, busy, between, due, waits, Bool.not_false, Bool.and_true, decide_true, if_true]

theorem sliceExpiry_stays (h : s.ready st x = false ∨ Stream.idle x = true ∨ s.midPiece st = true ∨ s.now < x.due ∨
    ∀ n y, (n, y) ∈ s.streams → n % 16 = st % 16 → y.saved = false) : s.sliceExpiry st = s := by
  simp only [sliceExpiry, hx]
  refine if_neg ?_
  rcases h with h | h | h | h | none
  · simp [h]
  · simp [h]
  · simp [h]
  · simp [h]
  · have none : (s.streams.any fun y => y.1 % 16 == st % 16 && y.2.saved) = false :=
      List.any_eq_false.mpr fun ⟨n, y⟩ mem => by simpa using none n y mem
    simp [none]

end Slice

end State

section Exec

variable (s : State) (st : Nat)

theorem exec_waitflagTimeout : exec (.waitflagTimeout st) s = .next (s.waitTimeout st) := rfl
theorem exec_descriptorComplete : exec (.descriptorComplete st) s = .next (s.descComplete st) := rfl
theorem exec_streamSliceExpiry : exec (.streamSliceExpiry st) s = .next (s.sliceExpiry st) := rfl

end Exec

section Running

variable {s : State} {st : Nat} {x : Stream} {r : Run} (hx : s.stream? st = some x) (ready : s.ready st x = true)
  (turn : s.turnOf st x = true) (run : x.run = some r) (going : r.fin = false)
include hx ready turn run going

/-- A WAITFLAG moves no data, so the pointer of its engine stays. -/
theorem exec_waitflag_running (type : rd r.desc 0 1 = 0xA) : exec (.waitflag st) s = .next (s.waitPiece st) := by
  have still : State.moves r.desc = false := by simp [State.moves, type]
  refine congrArg Host.Outcome.next ((State.streamRow_piece hx ready turn run type going).trans ?_)
  rw [State.granted_of_not_moving run still]

theorem exec_xwopen_running (type : rd r.desc 0 1 = 8) : exec (.xwopen st) s = .next ((s.granted st x).xwopenPiece st) :=
  congrArg Host.Outcome.next (State.streamRow_piece hx ready turn run type going)

theorem exec_xwclose_running (type : rd r.desc 0 1 = 9) : exec (.xwclose st) s = .next ((s.granted st x).xwclosePiece st) :=
  congrArg Host.Outcome.next (State.streamRow_piece hx ready turn run type going)

end Running

/-- Settles O46: a running descriptor does its row's piece (`State.streamRow_piece`), whose cases are those of WAITFLAG, XWOPEN and XWCLOSE;
the end of a descriptor and of a slice are the cases of `State.descComplete`, `State.retire` and `State.sliceExpiry`. -/
theorem flagsRegionsAndRetiringDescriptors : Obligations.FlagsRegionsAndRetiringDescriptors := by
  intro s st x hx
  refine ⟨fun ready turn r run going => ?running, fun r run => ⟨fun still => ?still, fun type going limited due less => ?expired,
    fun waits => ?waits, fun fin wait unpaused signalled => ?leaves, State.retire_ok, fun failed _ stop p owner busy =>
      State.retire_stops failed stop owner busy⟩, fun ready busy between due saved => ?yields, fun stays => ?stays⟩
  case running =>
    have hr : (s.granted st x).running? st = some (x, r) := State.running?_of (by rw [State.granted_stream?, hx]) run
    refine ⟨fun type => ?waitflag, fun type => ?xwopen, fun type => ?xwclose⟩
    case waitflag =>
      rw [exec_waitflag_running hx ready turn run going type]
      have hr := State.running?_of hx run
      exact ⟨fun met => by rw [State.waitPiece_met hr met], fun less => by rw [State.waitPiece_waits hr less]⟩
    case xwopen =>
      rw [exec_xwopen_running hx ready turn run going type]
      refine ⟨fun bad => ?_, fun good full => ?_, fun good room thawed => ⟨_, rfl, ?opened⟩⟩
      · rw [State.xwopenPiece_bad hr bad]
      · rw [State.xwopenPiece_full hr good (by rwa [State.granted_regions])]
      case opened =>
        rw [State.xwopenPiece_opens hr good (by rwa [State.granted_regions]) (by rwa [State.granted_inFrozen])]
        simp only [State.finish_regions, State.modRun_regions, State.finish_mem, State.modRun_mem]
        exact ⟨_, State.get?_opened, rfl, rfl, rfl, rfl, rfl, rfl, fun here b lo hi =>
          State.byte_opened_shadow (State.meet_of_regionBad_none good) (by rwa [State.granted_site]) lo hi⟩
    case xwclose =>
      rw [exec_xwclose_running hx ready turn run going type]
      refine ⟨fun none => ?_, fun g region phase => ?_, fun g region phase => ?_⟩
      · rw [State.xwclosePiece_none hr (by rwa [State.granted_regions])]
      · rw [State.xwclosePiece_not_open hr (by rwa [State.granted_regions]) phase]
      · rw [State.xwclosePiece_closes hr (by rwa [State.granted_regions]) phase]
  case still => rw [exec_waitflagTimeout, State.waitTimeout_still (State.running?_of hx run) still]
  case expired => rw [exec_waitflagTimeout, State.waitTimeout_expired (State.running?_of hx run) type going limited due less]
  case waits => rw [exec_descriptorComplete, State.descComplete_waits hx run waits]
  case leaves => rw [exec_descriptorComplete, State.descComplete_retires hx run fin wait unpaused signalled]
  case yields => rw [exec_streamSliceExpiry, State.sliceExpiry_yields hx ready busy between due saved]
  case stays => rw [exec_streamSliceExpiry, State.sliceExpiry_stays hx stays]

end Sys2Proof.Machine

/-! # Requests of other devices: which are heard, what each does, and what a refused one leaves (R345 to R358, R363, R364) -/

namespace Sys2Proof.Machine

namespace State

variable {s t u : State} {l : Nat} {p : Packet}

/-! ## What a refused request leaves as it is (R346, R350, R351) -/

/-- The state but for its fabric, its event ring, its error log and its outputs: what stands there with others in their place. -/
def withBooks (s : State) (f : Fabric) (d : Dc) (r : Trust) (o : List Out) : State := { s with fab := f, dc := d, tru := r, out := o }

/-- `t` may come from `s` by a request that is refused: the books alone have changed, and no packet that has gone out carries data. -/
structure RefusedOnly (s t : State) : Prop where
  frame : t.withBooks = s.withBooks
  bare : ∀ n q, Out.packet n q ∈ t.out → Out.packet n q ∉ s.out → q.data = []

theorem RefusedOnly.of_same_out (frame : t.withBooks = s.withBooks) (out : t.out = s.out) : RefusedOnly s t :=
  ⟨frame, fun _ _ here gone => absurd (out ▸ here) gone⟩

theorem RefusedOnly.refl (s : State) : RefusedOnly s s := .of_same_out rfl rfl

theorem RefusedOnly.trans (h : RefusedOnly s t) (k : RefusedOnly t u) : RefusedOnly s u where
  frame := k.frame.trans h.frame
  bare n q here gone := by
    by_cases between : Out.packet n q ∈ t.out
    · exact h.bare n q between gone
    · exact k.bare n q here between

theorem RefusedOnly.eq (h : RefusedOnly s t) : t = { s with fab := t.fab, dc := t.dc, tru := t.tru, out := t.out } :=
  congrFun (congrFun (congrFun (congrFun h.frame t.fab) t.dc) t.tru) t.out

/-! ### Flits carry no packet of their own -/

theorem packet_mem_flits (s : State) (l : Nat) (fs : List (List Byte)) (n : Nat) (q : Packet) :
    Out.packet n q ∈ (s.flits l fs).out ↔ Out.packet n q ∈ s.out :=
  (foldl_keeps (fun t : State => Out.packet n q ∈ t.out) (fun t f => by simp [emit]) fs s).to_iff

theorem packet_mem_pumpLink (s : State) (l n : Nat) (q : Packet) : Out.packet n q ∈ (s.pumpLink l).out ↔ Out.packet n q ∈ s.out := by
  unfold pumpLink
  dsimp only
  split <;> exact packet_mem_flits ..

theorem pumpLink_withBooks (s : State) (l : Nat) : (s.pumpLink l).withBooks = s.withBooks := by
  have sent (t : State) (fs : List (List Byte)) : (t.flits l fs).withBooks = t.withBooks :=
    foldl_keeps withBooks (g := fun t f => t.emit (.flit l f)) (fun _ _ => rfl) fs t
  unfold pumpLink
  dsimp only
  split <;> exact sent ..

/-! ### Answers and log entries -/

theorem sendPacket_refusedOnly (s : State) (l vl : Nat) {q : Packet} (bare : q.data = []) : RefusedOnly s (s.sendPacket l vl q) where
  frame := pumpLink_withBooks ..
  bare n p here gone := by
    rw [sendPacket, packet_mem_pumpLink] at here
    rcases List.mem_cons.mp here with new | old
    · cases new
      exact bare
    · exact absurd old gone

theorem respondPkt_refusedOnly (s : State) (op src tag vl status : Nat) : RefusedOnly s (s.respondPkt op src tag vl status []) := by
  have counted : RefusedOnly s (if status = St.ok then s else { s with fab := { s.fab with refused := s.fab.refused + 1 } }) := by
    split
    · exact .refl s
    · exact .of_same_out rfl rfl
  unfold respondPkt
  dsimp only
  split
  · exact counted
  · exact counted.trans (sendPacket_refusedOnly _ _ _ rfl)

theorem msix_refusedOnly (s : State) (vec : Nat) : RefusedOnly s (s.emit (.msix vec)) where
  frame := rfl
  bare n q here gone := by
    rcases List.mem_cons.mp here with new | old
    · cases new
    · exact absurd old gone

theorem event_refusedOnly (s : State) (cls st : Nat) (x y : W64) : RefusedOnly s (s.event cls st x y) := by
  have reported (d : Dc) : RefusedOnly s { s with dc := d } := .of_same_out rfl rfl
  unfold event
  dsimp only
  split
  · exact .refl s
  · split
    · exact reported _
    · exact (reported _).trans (msix_refusedOnly ..)

theorem logErrSev_refusedOnly (s : State) (v src code : Nat) (a : W64) (st : Nat) (d : List Byte) :
    RefusedOnly s (s.logErrSev v src code a st d) := by
  have logged (r : Trust) : RefusedOnly s { s with tru := r } := .of_same_out rfl rfl
  unfold logErrSev
  dsimp only
  split
  · exact logged _
  · exact (logged _).trans ((event_refusedOnly ..).trans (msix_refusedOnly ..))

/-! ## Which requests are heard (R346, R349) -/

/-- The arrival of a request is on record, for the leave point of R377. -/
def requested (s : State) : State := { s with fab := { s.fab with lastReq := s.now } }

@[simp] theorem requested_devnum (s : State) : s.requested.fab.devnum = s.fab.devnum := rfl
@[simp] theorem requested_ours (s : State) : s.requested.ours = s.ours := rfl
@[simp] theorem requested_inMap (s : State) : s.requested.inMap = s.inMap := rfl
@[simp] theorem requested_permits (s : State) : s.requested.permits = s.permits := rfl
@[simp] theorem requested_permitsFlag (s : State) : s.requested.permitsFlag = s.permitsFlag := rfl
@[simp] theorem requested_wholeFrozen (s : State) : s.requested.wholeFrozen = s.wholeFrozen := rfl

theorem requested_refusedOnly (s : State) : RefusedOnly s s.requested := .of_same_out rfl rfl

theorem departed_of_joined (joined : s.fab.devState = 1) : s.departed = false := by simp only [departed, joined]

theorem heard_refusedOnly (s : State) (l : Nat) (p : Packet) : RefusedOnly s (s.heard l p).2 := by
  unfold heard
  split
  · exact .refl s
  · split
    · dsimp only
      split
      · exact .refl s
      · exact logErrSev_refusedOnly ..
    · split <;> exact .refl s

theorem heard_none (h : (s.heard l p).1 = none) : (s.heard l p).2 = s := by
  unfold heard at h ⊢
  split at h
  · cases h
  · split at h
    · cases h
    · split at h <;> simp_all

/-! ### The header's checks come before the operation -/

section Serve

variable {ok : Bool} {run : State → State} {e : Nat}

theorem serve_response (response : pktResp p = true) : s.serve l p ok run = s := if_pos response

theorem serve_unheard (request : pktResp p = false) (h : s.requested.heard l p = (some e, t)) : s.serve l p ok run = t.reply p e := by
  rw [requested] at h
  simp only [serve, request, Bool.false_eq_true, if_false, h]

theorem serve_of_heard (request : pktResp p = false) (h : s.requested.heard l p = (none, t)) :
    s.serve l p ok run = if ok then run t else t.reply p St.badField := by
  rw [requested] at h
  simp only [serve, request, Bool.false_eq_true, if_false, h]

/-- Where the operation of `p` is refused, whatever its fields are, the request leaves the books alone changed. -/
theorem serve_refusedOnly (refuses : run s.requested = s.requested.reply p e) : RefusedOnly s (s.serve l p ok run) := by
  have found : RefusedOnly s (s.requested.heard l p).2 := (requested_refusedOnly s).trans (heard_refusedOnly ..)
  have answered (t : State) (e : Nat) : RefusedOnly t (t.reply p e) := respondPkt_refusedOnly ..
  cases kind : pktResp p with
  | true => rw [serve_response kind]; exact .refl s
  | false =>
    match h : s.requested.heard l p with
    | (some e, t) =>
      rw [serve_unheard kind h]
      exact (h ▸ found).trans (answered ..)
    | (none, t) =>
      obtain rfl : t = s.requested := by simpa [h] using heard_none (congrArg Prod.fst h)
      rw [serve_of_heard kind h]
      split
      · rw [refuses]
        exact (h ▸ found).trans (answered ..)
      · exact (h ▸ found).trans (answered ..)

end Serve

section Heard

variable (joined : s.fab.devState = 1) (here : p.dst.toNat = s.fab.devnum) (clean : pktClean p = true)
include joined here clean

theorem heard_clean : s.heard l p = (none, s) := by
  simp only [heard, departed_of_joined joined, here, clean, bne_self_eq_false, Bool.not_true, Bool.false_eq_true, if_false]

/-- A request that passes the checks of its header and of its fields has its operation's effect. -/
theorem serve_heard (request : p.flags.getLsbD 0 = false) {ok : Bool} (fields : ok = true) (run : State → State) :
    s.serve l p ok run = run s.requested := by
  rw [serve_of_heard request (heard_clean (s := s.requested) joined here clean), if_pos fields]

end Heard

/-! ## READ, WRITE, ATOMIC and FLAG without an exposure entry that permits them (R350, R351) -/

theorem onRead_not_permitted (h : s.permits p.src.toNat (gloc p.addr.toNat) p.len 0 = false) : RefusedOnly s (s.onRead l p) :=
  serve_refusedOnly (if_pos (by simp [h]))

theorem onWrite_not_permitted (h : s.permits p.src.toNat (gloc p.addr.toNat) p.len 1 = false) : RefusedOnly s (s.onWrite l p) :=
  serve_refusedOnly (if_pos (by simp [h]))

theorem onAtomic_not_permitted (h : s.permits p.src.toNat (gloc p.addr.toNat) (atomBytes (fld p.aop 3 0)) 2 = false) :
    RefusedOnly s (s.onAtomic l p) :=
  serve_refusedOnly (if_pos (by simp [h]))

theorem onFlag_not_permitted (h : s.permitsFlag p.src.toNat (nfld p.addr.toNat 23 12) = false) : RefusedOnly s (s.onFlag l p) :=
  serve_refusedOnly (if_pos (by simp [h]))

/-! ## READ, WRITE, ATOMIC and FLAG that an exposure entry permits (R356 to R358, R363, R364) -/

section Served

variable (joined : s.fab.devState = 1) (here : p.dst.toNat = s.fab.devnum) (request : p.flags.getLsbD 0 = false)
  (clean : pktClean p = true)
include joined here request clean

section Own

variable (own : s.ours p = true)
include own

/-- A READ that is permitted sends its bytes, or the whole block when it asks for it and a frozen entry holds the range. -/
theorem onRead_permitted {a : Nat} (at' : gloc p.addr.toNat = a) (block : blockOk a p.len = true)
    (permitted : s.permits p.src.toNat a p.len 0 = true) {wide : Bool} (wide_eq : (p.flags.getLsbD 2 && s.wholeFrozen a p.len) = wide)
    {b n : Nat} (b_eq : (if wide then a / 256 * 256 else a) = b) (n_eq : (if wide then 256 else p.len) = n) :
    s.onRead l p = (s.requested.countAccess b (s.requested.readPiece b n).1).reply p (outside (s.requested.readPiece b n).1)
      (s.requested.readPiece b n).2 wide := by
  subst at' b_eq n_eq
  rw [onRead, serve_heard joined here clean request block]
  simp only [requested_ours, requested_permits, requested_wholeFrozen, own, permitted, wide_eq, Bool.and_self, Bool.not_true,
    Bool.false_eq_true, if_false]
  cases wide <;> rfl

theorem onWrite_permitted (block : blockOk (gloc p.addr.toNat) p.len = true) (whole : p.data.length = p.len)
    (permitted : s.permits p.src.toNat (gloc p.addr.toNat) p.len 1 = true) :
    s.onWrite l p = (s.requested.writePiece (gloc p.addr.toNat) (withNibble p.data p.poison)).2.reply p
      (outside (s.requested.writePiece (gloc p.addr.toNat) (withNibble p.data p.poison)).1) := by
  rw [onWrite, serve_heard joined here clean request (by simp [block, whole])]
  exact if_neg (by simp [own, permitted])

/-- The operation an ATOMIC names. -/
def packetAtom (p : Packet) : AtomOp :=
  ⟨gloc p.addr.toNat, fld p.aop 3 0, fld p.aop 5 4, fld p.aop 9 6, p.ea.toInt, BitVec.ofNat 64 (rd p.data 0 8),
    BitVec.ofNat 64 (rd p.data 8 8)⟩

section Atomic

variable (assigned : fld p.aop 3 0 < 8) (fields : atomFields (fld p.aop 3 0) (fld p.aop 5 4) (fld p.aop 9 6) p.ea.toInt = true)
  (length : p.len = 16) (permitted : s.permits p.src.toNat (gloc p.addr.toNat) (atomBytes (fld p.aop 3 0)) 2 = true)
include assigned fields length permitted

/-- An ATOMIC that is permitted is refused where its bytes are frozen, and takes its place behind those that wait elsewhere. -/
theorem onAtomic_permitted : s.onAtomic l p = if s.inFrozen (gloc p.addr.toNat) (atomBytes (fld p.aop 3 0))
    then s.requested.reply p St.notAuthorised
    else { s.requested with
      fresh := s.fresh + 1, atoms := s.atoms ++ [⟨s.fresh, .fabric l p.src.toNat p.tag.toNat p.vl, packetAtom p, false⟩] } := by
  rw [onAtomic, serve_heard joined here clean request (by simp [assigned, fields, length])]
  exact if_neg (by simp [own, permitted])

end Atomic

end Own

/-- A FLAG that is permitted, for a core of the map, changes the flag and is answered in the same step. -/
theorem onFlag_permitted (assigned : fld p.aop 1 0 < 2) (zero : nfld p.addr.toNat 47 24 = 0) (empty : p.len = 0)
    (own : nfld p.addr.toNat 63 48 = s.fab.devnum) (permitted : s.permitsFlag p.src.toNat (nfld p.addr.toNat 23 12) = true)
    (inMap : s.inMap (nfld p.addr.toNat 23 12) = true) :
    s.onFlag l p = (s.requested.modFlag (nfld p.addr.toNat 23 12) (nfld p.addr.toNat 11 0)
      (signalFn (fld p.aop 1 0 == 1) p.val)).reply p St.ok := by
  rw [onFlag, serve_heard joined here clean request (by simp [assigned, zero, empty])]
  exact (if_neg (by simp [own, permitted])).trans (if_neg (by simp [inMap]))

end Served

end State

/-! ## The rows of the requests -/

section Exec

variable (s : State) (l : Nat) (p : Packet)

theorem exec_read : exec (.read l p) s = .next (s.onRead l { p with op := 1 }) := rfl
theorem exec_write : exec (.write l p) s = .next (s.onWrite l { p with op := 2 }) := rfl
theorem exec_atomic : exec (.atomic l p) s = .next (s.onAtomic l { p with op := 3 }) := rfl
theorem exec_flag : exec (.flag l p) s = .next (s.onFlag l { p with op := 4 }) := rfl

end Exec

/-- Settles O20: a request that is heard has its operation's effect (`State.serve_heard`), which for a permitted one is that of
`State.onRead_permitted` to `State.onFlag_permitted`. -/
theorem requestsOfOtherDevicesAreServed : Obligations.RequestsOfOtherDevicesAreServed := by
  intro s l p joined here request
  have ours (own : gdev p.addr.toNat = s.fab.devnum ∧ gvalid p.addr.toNat = true) (op : BitVec 8) : s.ours { p with op } = true := by
    simp [State.ours, own.1, own.2]
  refine ⟨fun clean block own permitted => ?read, fun clean block whole own permitted => ?write,
    fun clean assigned fields length own permitted => ⟨fun frozen => ?frozen, fun thawed => ?atomic⟩,
    fun clean assigned zero empty own permitted inMap => ?flag⟩
  case read =>
    rw [exec_read, State.onRead_permitted (p := { p with op := 1 }) joined here request clean (ours own 1) rfl block permitted rfl rfl rfl]
    rfl
  case write =>
    rw [exec_write, State.onWrite_permitted (p := { p with op := 2 }) joined here request clean (ours own 2) block whole permitted]
    rfl
  case frozen =>
    rw [exec_atomic, State.onAtomic_permitted (p := { p with op := 3 }) joined here request clean (ours own 3) assigned fields length
      permitted, if_pos frozen]
    rfl
  case atomic =>
    rw [exec_atomic, State.onAtomic_permitted (p := { p with op := 3 }) joined here request clean (ours own 3) assigned fields length
      permitted, if_neg (Bool.eq_false_iff.mp thawed)]
    rfl
  case flag =>
    have same : signalFn (fld p.aop 1 0 == 1) p.val = fun old => if fld p.aop 1 0 = 1 then p.val else old + p.val := by
      funext old
      simp [signalFn]
    rw [exec_flag, State.onFlag_permitted (p := { p with op := 4 }) joined here request clean assigned zero empty own permitted inMap, same]
    rfl

/-- Settles O21: a request without an entry that permits it is refused whatever its fields are (`State.serve_refusedOnly`), and an answer
that refuses carries no data (`State.RefusedOnly`). -/
theorem unexposedRequestsTouchNothing : Obligations.UnexposedRequestsTouchNothing := by
  intro s l p
  refine ⟨fun refused => ⟨⟨_, rfl, ?readKeeps⟩, fun t n q run sent new => ?bare⟩, fun refused => ⟨_, rfl, ?writeKeeps⟩,
    fun refused => ⟨_, rfl, ?atomicKeeps⟩, fun refused => ⟨_, rfl, ?flagKeeps⟩⟩
  case readKeeps => exact (State.onRead_not_permitted (p := { p with op := 1 }) refused).eq
  case bare =>
    cases run
    exact (State.onRead_not_permitted (p := { p with op := 1 }) refused).bare n q sent new
  case writeKeeps => exact (State.onWrite_not_permitted (p := { p with op := 2 }) refused).eq
  case atomicKeeps => exact (State.onAtomic_not_permitted (p := { p with op := 3 }) refused).eq
  case flagKeeps => exact (State.onFlag_not_permitted (p := { p with op := 4 }) refused).eq

end Sys2Proof.Machine

/-! # Responses and timeouts: how a request of this device completes (R195, R355, R359, R366, R379) -/

namespace Sys2Proof.Machine

namespace State

variable {s : State} {p : Packet} {r : Req}

/-! ## FABRIC_RESPONSE (R355, R359, R366) -/

/-- A response that completes nothing is counted. -/
def countLate (s : State) : State := { s with fab := { s.fab with late := s.fab.late + 1 } }

/-- A response whose data are not a frozen block stands for the bytes it was asked for. -/
theorem answerData_not_frozen (plain : p.flags.getLsbD 1 = false) :
    s.answerData r p = (withNibble (fit p.len p.data) p.poison, s) :=
  if_neg (by simp only [plain, Bool.and_false, Bool.false_and, Bool.false_eq_true, not_false_iff])

section Response

variable (response : p.flags.getLsbD 0 = true)
include response

theorem onResponse_untagged (free : SMap.get? s.fab.outst p.tag.toNat = none) : s.onResponse p = s.countLate := by
  simp only [onResponse, pktResp, response, free, Bool.not_true, Bool.false_eq_true, if_false, countLate]

variable (tagged : SMap.get? s.fab.outst p.tag.toNat = some r)
include tagged

theorem onResponse_late (late : r.deadline ≤ s.now ∨ r.pkt.dst ≠ p.src ∨ r.pkt.op ≠ p.op ∨ p.dst.toNat ≠ s.fab.devnum) :
    s.onResponse p = s.countLate := by
  simp only [onResponse, pktResp, response, tagged, Bool.not_true, Bool.false_eq_true, if_false, countLate]
  exact if_pos (by simpa [or_assoc] using late)

section InTime

variable (inTime : s.now < r.deadline) (source : r.pkt.dst = p.src) (operation : r.pkt.op = p.op) (here : p.dst.toNat = s.fab.devnum)
include inTime source operation here

/-- A response in time, from the device asked and for the operation asked, completes its request. -/
theorem onResponse_completes : s.onResponse p =
    (if p.status.toNat = St.ok then ((s.answerData r p).2.untag p.tag.toNat).complete r p.status.toNat (s.answerData r p).1
      else (s.untag p.tag.toNat).complete r p.status.toNat []) := by
  simp only [onResponse, pktResp, response, tagged, Bool.not_true, Bool.false_eq_true, if_false]
  rw [if_neg (by simp [inTime, source, operation, here])]
  split <;> rfl

theorem onResponse_failed (failed : p.status.toNat ≠ St.ok) : s.onResponse p = (s.untag p.tag.toNat).complete r p.status.toNat [] := by
  rw [onResponse_completes response tagged inTime source operation here, if_neg failed]

theorem onResponse_ok (ok : p.status.toNat = St.ok) (plain : p.flags.getLsbD 1 = false) :
    s.onResponse p = (s.untag p.tag.toNat).complete r St.ok (withNibble (fit p.len p.data) p.poison) := by
  rw [onResponse_completes response tagged inTime source operation here, if_pos ok, answerData_not_frozen plain, ok]

end InTime

end Response

/-! ## REQUEST_TIMEOUT (R379) -/

theorem requestTimeout_due {tag : Nat} (tagged : SMap.get? s.fab.outst tag = some r) (due : r.deadline ≤ s.now) :
    s.requestTimeout tag = (untag { s with fab := { s.fab with tmo := s.fab.tmo + 1 } } tag).complete r St.timeout [] := by
  simp only [requestTimeout, tagged]
  exact if_neg (Nat.not_lt.mpr due)

/-! ## A core's load and its store (R195, R359) -/

theorem remoteEnd_ok (s : State) (c h pc : Nat) (f : Frame) (unit : Nat) (addr : W64) :
    s.remoteEnd c h pc f unit addr St.ok = s := if_pos rfl

section Core

variable {c h u pc : Nat} {f : Frame} {addr : W64} {e : Nat} (bs : List (Byte × Bool))

theorem remoteEnd_failed (s : State) (c h pc : Nat) (f : Frame) (unit : Nat) (addr : W64) (failed : e ≠ St.ok) :
    s.remoteEnd c h pc f unit addr e = s.progFault c h pc f (remoteFault unit addr e) := if_neg failed

section Load

variable {reg size : Nat} {sext : Bool} (load : r.cont = .load c h u pc f addr reg size sext)
include load

theorem complete_load_clean {bs : List (Byte × Bool)} (clean : ∀ b ∈ bs, b.2 = false) :
    s.complete r St.ok bs = s.writePend h c u reg (sldValue (leNat (bs.map (·.1))) size sext) := by
  have unmarked : bs.any (·.2) = false := by simpa using clean
  simp [complete, load, unmarked]

theorem complete_load_failed (failed : e ≠ St.ok) : s.complete r e bs = s.progFault c h pc f (remoteFault 6 addr e) := by
  rw [← remoteEnd_failed s c h pc f 6 addr failed]
  simp [complete, load, failed]

end Load

section Store

variable (store : r.cont = .store c h u pc f addr)
include store

theorem complete_store : s.complete r e bs = s.remoteEnd c h pc f 6 addr e := by simp only [complete, store]

end Store

end Core

end State

theorem exec_fabricResponse (s : State) (l : Nat) (p : Packet) : exec (.fabricResponse l p) s = .next (s.onResponse p) := rfl
theorem exec_requestTimeout (s : State) (tag : Nat) : exec (.requestTimeout tag) s = .next (s.requestTimeout tag) := rfl

/-- Settles O22: the cases of a response (`State.onResponse_untagged` to `State.onResponse_ok`), of a deadline, and of the completion of a
core's load and store. -/
theorem responsesAndTimeoutsCompleteRequests : Obligations.ResponsesAndTimeoutsCompleteRequests := by
  intro s l tag p r
  refine ⟨fun response => ⟨fun free => ?untagged, fun tagged => ⟨fun late => ?late, fun inTime source operation here failed => ?failed,
      fun inTime source operation here ok plain => ?ok⟩⟩, fun tagged due => ?timeout,
    fun c h u pc f addr reg size sext bs load =>
      ⟨State.complete_load_clean load, fun e failed => State.complete_load_failed bs load failed⟩,
    fun c h u pc f addr bs store => ⟨?stored, fun e failed => ?storeFault⟩⟩
  case untagged =>
    rw [exec_fabricResponse, State.onResponse_untagged response free]
    rfl
  case late =>
    rw [exec_fabricResponse, State.onResponse_late response tagged late]
    rfl
  case failed => rw [exec_fabricResponse, State.onResponse_failed response tagged inTime source operation here failed]
  case ok => rw [exec_fabricResponse, State.onResponse_ok response tagged inTime source operation here ok plain]
  case timeout => rw [exec_requestTimeout, State.requestTimeout_due tagged due]
  case stored => rw [State.complete_store bs store, State.remoteEnd_ok]
  case storeFault => rw [State.complete_store bs store, State.remoteEnd_failed _ _ _ _ _ _ _ failed]

end Sys2Proof.Machine

/-! # Flits that a link receives (R336 to R338, R340, R341) -/

namespace Sys2Proof.Machine

namespace State

variable {s : State} {l kind code : Nat} {f : List Byte} {go : State → State}

/-! ## What every flit meets first (R336) -/

theorem recv_not_up (down : ¬((s.link l).state = 2 ∨ (s.link l).state = 4)) : s.recv l f kind go = s := if_pos (by simpa using down)

/-! ## A payload flit in its turn (R337, R340) -/

/-- How far a payload flit's number is ahead of the one expected, among 4,096. -/
def flitAhead (s : State) (l : Nat) (f : List Byte) : Nat := (ff f 2 2 11 0 + 4096 - (s.link l).rxExp) % 4096

/-- Bytes that the pair of a payload flit has received of a packet not complete yet. -/
def flitPart (s : State) (l : Nat) (f : List Byte) : List Byte := SMap.getD (s.link l).parts (flitPair f) []

/-- The run of its pair with a payload flit: what began earlier goes on, and otherwise it begins at FIRST. -/
def flitRun (s : State) (l : Nat) (f : List Byte) : List Byte :=
  if s.flitPart l f = [] then (flitBody f).drop (16 * rd f 1 1) else s.flitPart l f ++ flitBody f

/-- The link that has taken a payload flit, which leaves `rest` of the run of its pair: the number expected goes on, no replay is awaited,
and the flit's credit is owed. -/
def flitTaken (s : State) (l : Nat) (f rest : List Byte) : Link :=
  let k := s.link l
  { k with
    rxExp := (k.rxExp + 1) % 4096, nak := none, fails := 0, parts := SMap.setD k.parts (flitPair f) [] rest
    owed := SMap.setD k.owed (flitPair f) 0 (SMap.getD k.owed (flitPair f) 0 + 1), unacked := k.unacked + 1
    ackDue := if k.unacked = 0 then s.now + 2400 else k.ackDue }

/-- The flit is taken and counted, the acknowledgement and the credits of its header too. -/
def flitNoted (s : State) (l : Nat) (f rest : List Byte) : State :=
  ((s.setLink l (s.flitTaken l f rest)).setPort (l / 2) { s.bvPort (l / 2) with rxf := (s.bvPort (l / 2)).rxf + 1 }).takeHeader l f

/-- An idle flit carries the acknowledgement of 64 payload flits. -/
def ackFull (s : State) (l : Nat) : State := if 64 ≤ (s.link l).unacked then s.idleFlit l else s

/-- The packets that the flit completes act in order, `cut` being those packets and what is left of the run. -/
def flitDelivers (s : State) (l : Nat) (f : List Byte) (cut : List Packet × List Byte) : State :=
  (cut.1.foldl (fun t p => t.onPacket l p) (s.flitNoted l f cut.2)).ackFull l

/-! ## Flits on a link that is up -/

section Up

variable (up : (s.link l).state = 2 ∨ (s.link l).state = 4)
include up

theorem recv_bad (bad : flitGood f = false) : s.recv l f kind go = s.discardFlit l :=
  (if_neg (by rcases up with h | h <;> simp [h])).trans (if_pos (by simp [bad]))

variable (good : flitGood f = true)
include good

theorem recv_good (its : flitKind f = kind) : s.recv l f kind go = go s :=
  (if_neg (by rcases up with h | h <;> simp [h])).trans ((if_neg (by simp [good])).trans (if_neg (by simp [its])))

theorem onIdle_good (its : flitKind f = 0) : s.onIdle l f = s.takeHeader l f := recv_good up good its

/-! ### Control flits (R338) -/

theorem control_good (its : flitKind f = 2) (names : rd f 12 1 = code) : s.control l f code go = go (s.takeHeader l f) := by
  rw [control, recv_good up good its, if_pos names]

/-! ### Payload flits (R341) -/

section Payload

variable (its : flitKind f = 1)
include its

theorem payloadFlit_in_order (next : s.flitAhead l f = 0) :
    s.payloadFlit l f = s.flitDelivers l f (cutRun (ff f 0 1 4 2) 16 (s.flitRun l f)) := by
  have expected : ¬(s.flitAhead l f != 0) = true := by simp [next]
  have run : (if (s.flitPart l f).isEmpty then (flitBody f).drop (16 * rd f 1 1) else s.flitPart l f ++ flitBody f) = s.flitRun l f := by
    simp only [flitRun, List.isEmpty_iff]
  rw [payloadFlit, recv_good up good its]
  exact (if_neg expected).trans (congrArg (fun run => s.flitDelivers l f (cutRun (ff f 0 1 4 2) 16 run)) run)

theorem payloadFlit_taken_already (behind : 2048 ≤ s.flitAhead l f) : s.payloadFlit l f = s := by
  have other : (s.flitAhead l f != 0) = true := bne_iff_ne.mpr (by omega)
  rw [payloadFlit, recv_good up good its]
  exact (if_pos other).trans (if_pos (Bool.or_eq_true_iff.mpr (.inr (decide_eq_true behind))))

theorem payloadFlit_ahead (missing : 0 < s.flitAhead l f) (ahead : s.flitAhead l f < 2048) :
    s.payloadFlit l f = if (s.link l).nak = none then s.askReplay l else s := by
  have other : (s.flitAhead l f != 0) = true := bne_iff_ne.mpr (by omega)
  have new : decide (2048 ≤ s.flitAhead l f) = false := decide_eq_false (by omega)
  rw [payloadFlit, recv_good up good its]
  refine (if_pos other).trans ?_
  by_cases awaited : (s.link l).nak = none
  · exact (if_neg (by rw [awaited, Option.isSome_none, Bool.false_or]; exact Bool.eq_false_iff.mp new)).trans (if_pos awaited).symm
  · exact (if_pos (by simp [Option.isSome_iff_ne_none, awaited])).trans (if_neg awaited).symm

end Payload

end Up

end State

/-! ## The rows of the flits -/

section Exec

variable (s : State) (l : Nat) (f : List Byte)

theorem exec_payloadFlit : exec (.payloadFlit l f) s = .next (s.payloadFlit l f) := rfl
theorem exec_idleFlit : exec (.idleFlit l f) s = .next (s.onIdle l f) := rfl
theorem exec_creditInit : exec (.creditInit l f) s = .next (s.onCreditInit l f) := rfl
theorem exec_retryReq : exec (.retryReq l f) s = .next (s.onRetryReq l f) := rfl
theorem exec_resume : exec (.resume l f) s = .next (s.onResumeFlit l f) := rfl

/-- The rows of the flits a link receives. -/
def flitRows (l : Nat) (f : List Byte) : List Instr := [.payloadFlit l f, .idleFlit l f, .creditInit l f, .retryReq l f, .resume l f]

/-- Every row of a flit begins with the receiver's checks of its own kind. -/
theorem exec_flitRow {i : Instr} (row : i ∈ flitRows l f) : ∃ kind go, exec i s = .next (s.recv l f kind go) := by
  simp only [flitRows, List.mem_cons, List.not_mem_nil, or_false] at row
  rcases row with rfl | rfl | rfl | rfl | rfl
  · exact ⟨1, _, exec_payloadFlit s l f⟩
  · exact ⟨0, _, exec_idleFlit s l f⟩
  · exact ⟨2, _, by rw [exec_creditInit, State.onCreditInit, State.control]⟩
  · exact ⟨2, _, by rw [exec_retryReq, State.onRetryReq, State.control]⟩
  · exact ⟨2, _, by rw [exec_resume, State.onResumeFlit, State.control]⟩

end Exec

/-- Settles O18: every row begins with the receiver's checks (`exec_flitRow`); what a good flit does is an equation for its kind, and for a
payload flit one for each place of its number. -/
theorem flitsAreTakenInOrder : Obligations.FlitsAreTakenInOrder := by
  intro s l f
  refine ⟨fun down i row => ?down, fun up bad i row => ?bad, fun up good its => ⟨fun next => ?inOrder, fun behind => ?behind,
      fun missing ahead => ?ahead⟩, fun up good its => ?idle,
    fun up good its => ⟨fun code => ?credits, fun code => ?retry, fun code => ?resumed⟩⟩
  case down =>
    obtain ⟨kind, go, run⟩ := exec_flitRow s l f row
    rw [run, State.recv_not_up down]
  case bad =>
    obtain ⟨kind, go, run⟩ := exec_flitRow s l f row
    rw [run, State.recv_bad up bad]
    rfl
  case inOrder =>
    rw [exec_payloadFlit, State.payloadFlit_in_order up good its next]
    rfl
  case behind => rw [exec_payloadFlit, State.payloadFlit_taken_already up good its behind]
  case ahead => rw [exec_payloadFlit, State.payloadFlit_ahead up good its missing ahead]
  case idle => rw [exec_idleFlit, State.onIdle_good up good its]
  case credits => rw [exec_creditInit, State.onCreditInit, State.control_good up good its code]
  case retry => rw [exec_retryReq, State.onRetryReq, State.control_good up good its code, ff]
  case resumed => rw [exec_resume, State.onResumeFlit, State.control_good up good its code, ff]

end Sys2Proof.Machine

/-! # Packets without an answer: global operations on trees, and fabric time (R345, R369 to R377) -/

namespace Sys2Proof.Machine

namespace State

variable {s : State} {l : Nat} {p : Packet} {x : Sys2Proof.Machine.Tree} {r : GopRun}

/-! ## Which of these packets are heard (R345, R349) -/

section Unanswered

variable (joined : s.fab.devState = 1) (here : p.dst.toNat = s.fab.devnum) (request : p.flags.getLsbD 0 = false)
include joined here request

theorem unanswered_eq (run : State → State) : s.unanswered l p run = if pktClean p then run s else s := by
  have question : pktResp p = false := request
  simp only [unanswered, question, departed_of_joined joined, here, bne_self_eq_false, Bool.false_eq_true, if_false]
  cases pktClean p <;> rfl

theorem unanswered_unclean (unclean : pktClean p = false) (run : State → State) : s.unanswered l p run = s := by
  rw [unanswered_eq joined here request, if_neg (Bool.eq_false_iff.mp unclean)]

theorem unanswered_clean (clean : pktClean p = true) (run : State → State) : s.unanswered l p run = run s := by
  rw [unanswered_eq joined here request, if_pos clean]

end Unanswered

/-! ## A packet of a global operation at a member of its tree (R369, R370) -/

section Member

variable {k : Nat → Sys2Proof.Machine.Tree → Nat → Nat → Bool → State → State}
variable (joined : s.fab.devState = 1) (here : p.dst.toNat = s.fab.devnum) (member : SMap.get? s.fab.trees (fld p.addr 2 0) = some x)
include joined here member

/-- The sender is looked for on the side of the tree that the packet's direction asks. -/
theorem gopPacket_eq (fromParent : Bool) :
    s.gopPacket p fromParent k = if (if fromParent then x.parent == p.src.toNat else x.children.contains p.src.toNat)
      then k (fld p.addr 2 0) x (fld p.addr 11 8) (fld p.addr 63 32) (bitOf p.addr 12) s else s := by
  simp only [gopPacket, tree?, member, joined, here, bne_self_eq_false, Bool.or_self, Bool.false_eq_true, if_false]
  cases (if fromParent = true then x.parent == p.src.toNat else x.children.contains p.src.toNat) <;> rfl

theorem gopPacket_child (child : p.src.toNat ∈ x.children) :
    s.gopPacket p false k = k (fld p.addr 2 0) x (fld p.addr 11 8) (fld p.addr 63 32) (bitOf p.addr 12) s := by
  rw [gopPacket_eq joined here member, if_pos (by simpa using child)]

theorem gopPacket_no_child (stranger : p.src.toNat ∉ x.children) :
    s.gopPacket p false k = s := by
  rw [gopPacket_eq joined here member, if_neg (by simpa using stranger)]

theorem gopPacket_parent (parent : x.parent = p.src.toNat) :
    s.gopPacket p true k = k (fld p.addr 2 0) x (fld p.addr 11 8) (fld p.addr 63 32) (bitOf p.addr 12) s := by
  rw [gopPacket_eq joined here member, if_pos (by simpa using parent)]

theorem gopPacket_no_parent (stranger : p.src.toNat ≠ x.parent) :
    s.gopPacket p true k = s := by
  rw [gopPacket_eq joined here member, if_neg (by simpa using stranger.symm)]

/-! ### From a child: ARRIVE and DRAINED -/

section Child

variable (child : p.src.toNat ∈ x.children)
include child

/-- An ARRIVE for an operation that the member has not reached is remembered. -/
theorem onArrive_early (early : x.seq < fld p.addr 63 32 ∨ fld p.addr 63 32 = x.seq ∧ x.run = none) :
    s.onArrive p = s.setTree (fld p.addr 2 0) { x with early := x.early ++ [fld p.addr 63 32 * 65536 + p.src.toNat] } := by
  rw [onArrive, gopPacket_child joined here member child]
  cases run : x.run with
  | none => exact if_pos (by omega)
  | some r =>
    have later : x.seq < fld p.addr 63 32 := by simpa [run] using early
    exact (if_neg (by omega)).trans (if_pos later)

variable (run : x.run = some r) (current : fld p.addr 63 32 = x.seq)
include run current

theorem onArrive_current : s.onArrive p = (s.setTree (fld p.addr 2 0) { x with
    run := some { r with arrived := r.arrived ++ [p.src.toNat], gone := r.gone || bitOf p.addr 12 } }).gopUp (fld p.addr 2 0) := by
  rw [onArrive, gopPacket_child joined here member child]
  simp only [run, current, if_true]

theorem onDrained_current : s.onDrained p = (s.setTree (fld p.addr 2 0) { x with
    run := some { r with drained := r.drained ++ [p.src.toNat], fail := r.fail || bitOf p.addr 12 } }).gopDrained (fld p.addr 2 0)
      false := by
  rw [onDrained, gopPacket_child joined here member child]
  simp only [run, current, if_true]

end Child

/-! ### From the parent: RELEASE, DRAIN and RESUME -/

section Parent

variable (parent : x.parent = p.src.toNat)
include parent

/-- A RELEASE of kind 3 is the fabric's global reset: it goes on and takes the warm reset of cause 8. -/
theorem onRelease_reset (reset : fld p.addr 11 8 = 3) :
    s.onRelease p = (s.toChildren (fld p.addr 2 0) x 1 3 false []).takeReset 8 := by
  rw [onRelease, gopPacket_parent joined here member parent]
  exact if_pos reset

variable (run : x.run = some r) (current : fld p.addr 63 32 = x.seq)
include run current

theorem onRelease_current (other : fld p.addr 11 8 ≠ 3) :
    s.onRelease p = s.gopRelease (fld p.addr 2 0) x { r with gone := r.gone || bitOf p.addr 12, data := p.data } := by
  rw [onRelease, gopPacket_parent joined here member parent]
  simp only [other, run, current, if_true, if_false]

variable (snapshot : r.kind = 2)
include snapshot

theorem onDrain_current (running : r.draining = false) :
    s.onDrain p = s.gopDrain (fld p.addr 2 0) x { r with gone := r.gone || bitOf p.addr 12 } := by
  rw [onDrain, gopPacket_parent joined here member parent]
  simp [run, current, snapshot, running]

theorem onResume_current : s.onResume p = gopResume { s with fresh := s.fresh + 1 } (fld p.addr 2 0) x
    { r with fail := r.fail || bitOf p.addr 12 } (Config.freeW64 s.fresh).toNat := by
  rw [onResume, gopPacket_parent joined here member parent]
  simp [run, current, snapshot]

end Parent

end Member

/-! ## The limits of an operation (R371, R372) -/

section Limits

variable {t : Nat} (member : SMap.get? s.fab.trees t = some x) (run : x.run = some r)
include member run

theorem drainExpiry_due (draining : r.draining = true) (waits : r.sentDrained = false) (due : r.drainAt + s.drainLimit t ≤ s.now) :
    s.drainExpiry t = s.gopDrained t true := by
  simp [drainExpiry, tree?, member, run, draining, waits, due]

theorem gopTimeout_due {d : Nat} (limited : r.tmoAt = some d) (due : d ≤ s.now) :
    s.gopTimeout t = (s.setTree t { x with seq := x.seq + 1, run := none }).tellStream r.st St.timeout 0 := by
  simp only [gopTimeout, tree?, member, run, limited, due, if_true, gopEnd]

end Limits

end State

/-! ## The rows of the global operations -/

section Exec

variable (s : State) (l t : Nat) (p : Packet)

theorem exec_gopArrive : exec (.gopArrive l p) s = .next (s.unanswered l { p with op := 8 } fun s => s.onArrive p) := rfl
theorem exec_gopRelease : exec (.gopRelease l p) s = .next (s.unanswered l { p with op := 8 } fun s => s.onRelease p) := rfl
theorem exec_gopDrain : exec (.gopDrain l p) s = .next (s.unanswered l { p with op := 8 } fun s => s.onDrain p) := rfl
theorem exec_gopDrained : exec (.gopDrained l p) s = .next (s.unanswered l { p with op := 8 } fun s => s.onDrained p) := rfl
theorem exec_gopResume : exec (.gopResume l p) s = .next (s.unanswered l { p with op := 8 } fun s => s.onResume p) := rfl
theorem exec_snapshotDrainLimit : exec (.snapshotDrainLimit t) s = .next (s.drainExpiry t) := rfl
theorem exec_globalOperationTimeout : exec (.globalOperationTimeout t) s = .next (s.gopTimeout t) := rfl

/-- Every packet of a global operation passes the checks of packets without an answer first. -/
theorem exec_gopPacket {i : Instr} (row : i ∈ [Instr.gopArrive l p, .gopRelease l p, .gopDrain l p, .gopDrained l p, .gopResume l p]) :
    ∃ run, exec i s = .next (s.unanswered l { p with op := 8 } run) := by
  simp only [List.mem_cons, List.not_mem_nil, or_false] at row
  rcases row with rfl | rfl | rfl | rfl | rfl
  · exact ⟨_, exec_gopArrive s l p⟩
  · exact ⟨_, exec_gopRelease s l p⟩
  · exact ⟨_, exec_gopDrain s l p⟩
  · exact ⟨_, exec_gopDrained s l p⟩
  · exact ⟨_, exec_gopResume s l p⟩

end Exec

/-- Settles O23: a packet that is heard goes to its tree (`State.gopPacket_eq`), and each operation has an equation for a packet of the
present sequence number from the side it asks. -/
theorem globalOperationsGoUpAndDownTheirTree : Obligations.GlobalOperationsGoUpAndDownTheirTree := by
  intro s l p x joined here request
  have heard (clean : pktClean { p with op := 8 } = true) (run : State → State) : s.unanswered l { p with op := 8 } run = run s :=
    State.unanswered_clean (p := { p with op := 8 }) joined here request clean run
  refine ⟨fun unclean i row => ?unclean, fun clean member => ⟨fun child => ⟨fun r run current => ?arrive, fun early => ?early,
      fun r run current => ?drained⟩, fun parent => ⟨fun reset => ?reset, fun r run current => ⟨fun other => ?release,
      fun snapshot running => ?drain, fun snapshot => ⟨(Config.freeW64 s.fresh).toNat, ?resume⟩⟩⟩, fun stranger => ⟨?noArrive, ?noDrained⟩,
    fun stranger => ⟨?noRelease, ?noDrain, ?noResume⟩, fun r run => ⟨fun draining waits due => ?limit, fun d limited due => ?timeout⟩⟩⟩
  case unclean =>
    obtain ⟨go, row⟩ := exec_gopPacket s l p row
    rw [row, State.unanswered_unclean (p := { p with op := 8 }) joined here request unclean]
  case arrive => rw [exec_gopArrive, heard clean, State.onArrive_current joined here member child run current]
  case early => rw [exec_gopArrive, heard clean, State.onArrive_early joined here member child early]
  case drained => rw [exec_gopDrained, heard clean, State.onDrained_current joined here member child run current]
  case reset => rw [exec_gopRelease, heard clean, State.onRelease_reset joined here member parent reset]
  case release => rw [exec_gopRelease, heard clean, State.onRelease_current joined here member parent run current other]
  case drain => rw [exec_gopDrain, heard clean, State.onDrain_current joined here member parent run current snapshot running]
  case resume => rw [exec_gopResume, heard clean, State.onResume_current joined here member parent run current snapshot]
  case noArrive =>
    rw [exec_gopArrive, heard clean, State.onArrive, State.gopPacket_no_child joined here member stranger]
  case noDrained =>
    rw [exec_gopDrained, heard clean, State.onDrained, State.gopPacket_no_child joined here member stranger]
  case noRelease =>
    rw [exec_gopRelease, heard clean, State.onRelease, State.gopPacket_no_parent joined here member stranger]
  case noDrain =>
    rw [exec_gopDrain, heard clean, State.onDrain, State.gopPacket_no_parent joined here member stranger]
  case noResume =>
    rw [exec_gopResume, heard clean, State.onResume, State.gopPacket_no_parent joined here member stranger]
  case limit => rw [exec_snapshotDrainLimit, State.drainExpiry_due member run draining waits due]
  case timeout => rw [exec_globalOperationTimeout, State.gopTimeout_due member run limited due]

end Sys2Proof.Machine

/-! # Fabric time and the leave point (R373 to R375, R377) -/

namespace Sys2Proof.Machine

namespace State

variable {s : State} {l : Nat} {p : Packet} {x : Sys2Proof.Machine.Tree}

/-! ## One cycle of fabric time (R373, R374) -/

/-- A cycle moves fabric time forward by 25,000 of its units, and by at most 5 of what a correction owes. -/
theorem ft_tickTime (f : FabTime) : ((tickTime f).ft : Int) = f.ft + 25000 + max (-5) (min 5 f.slew) := by
  simp only [tickTime]
  omega

theorem slew_tickTime (f : FabTime) : (tickTime f).slew = f.slew - max (-5) (min 5 f.slew) := rfl

/-! ## The exchange of times (R374) -/

section Member

variable (joined : s.fab.devState = 1) (member : SMap.get? s.fab.trees 0 = some x)
include joined member

theorem timeAsk_member (below : x.parent ≠ 0xFFFF) : s.timeAsk =
    sendVl0 { s with fab := { s.fab with time := { s.fab.time with t1 := some s.ftime.toNat } } } x.parent
      { pktBlank with op := 9, len := 32, data := le 8 s.ftime.toNat ++ zeros 24 } := by
  simp only [timeAsk, tree?, member]
  exact if_neg (by simp [rootParent, below, joined])

variable (here : p.dst.toNat = s.fab.devnum) (length : p.data.length = 32)
include here length

/-- A child's question is answered with its time, the time of its arrival less its correction, and the time of leaving. -/
theorem onTime_child (other : x.parent ≠ p.src.toNat) (child : p.src.toNat ∈ x.children) :
    s.onTime p = s.sendVl0 p.src.toNat { pktBlank with
      op := 9, len := 32
      data := p.data.take 8 ++ le 8 (s.ftime.toNat + 2 ^ 64 - rd p.data 24 8) ++ le 8 s.ftime.toNat ++ zeros 8 } := by
  simp only [onTime, tree?, member]
  exact (if_neg (by simp [joined, here, length])).trans ((if_neg other).trans (if_pos (by simpa using child)))

/-- The parent's answer is taken when it carries the time that was sent. -/
theorem onTime_parent {t1 : Nat} (parent : x.parent = p.src.toNat) (noted : s.fab.time.t1 = some t1) (its : rd p.data 0 8 = t1) :
    s.onTime p = s.timeTake t1 p.data := by
  simp only [onTime, tree?, member, noted]
  exact (if_neg (by simp [joined, here, length])).trans ((if_pos parent).trans (if_pos its))

end Member

/-! ## The loss of synchronisation and the leave point (R375, R377) -/

theorem syncLost_due (due : s.fab.time.lastOk + 10 * msCycles ≤ s.now) :
    s.syncLost = { s with fab := { s.fab with time := { s.fab.time with sync := false, good := 0 } } } := if_pos due

theorem leavePoint_due (leaves : s.fab.devState = 2) (before : s.fab.leaving = none) (due : s.fab.lastReq + s.fab.tmoUs * 2400 ≤ s.now) :
    s.leavePoint = { s with fab := { s.fab with leaving := some s.now } } := if_pos (by simp [leaves, before, due])

end State

section Exec

variable (s : State)

theorem exec_timeExchange : exec .timeExchange s = .next s.timeAsk := rfl
theorem exec_timePacket (l : Nat) (p : Packet) :
    exec (.timePacket l p) s = .next (s.unanswered l { p with op := 9 } fun s => s.onTime p) := rfl
theorem exec_syncLoss : exec .syncLoss s = .next s.syncLost := rfl
theorem exec_leavePoint : exec .leavePoint s = .next s.leavePoint := rfl

end Exec

/-- Settles O24: a cycle moves fabric time by `State.ft_tickTime`; a TIME packet asks or answers by its sender
(`State.onTime_child`, `State.onTime_parent`). -/
theorem fabricTimeAndLeaving : Obligations.FabricTimeAndLeaving := by
  refine ⟨fun f => ?cycle, fun s x l p joined member => ⟨fun below => ?asks, fun request clean here length =>
    ⟨fun other child => ?answers, fun t1 parent noted its => ?takes⟩⟩, fun s => ⟨fun due => ?lost, fun leaves before due => ?leaves⟩⟩
  case cycle =>
    have moved := State.ft_tickTime f
    exact ⟨moved, by omega, by omega, State.slew_tickTime f⟩
  case asks => rw [exec_timeExchange, State.timeAsk_member joined member below]
  case answers =>
    rw [exec_timePacket, State.unanswered_clean (p := { p with op := 9 }) joined here request clean,
      State.onTime_child joined member here length other child]
  case takes =>
    rw [exec_timePacket, State.unanswered_clean (p := { p with op := 9 }) joined here request clean,
      State.onTime_parent joined member here length parent noted its]
    rfl
  case lost => rw [exec_syncLoss, State.syncLost_due due]
  case leaves => rw [exec_leavePoint, State.leavePoint_due leaves before due]

end Sys2Proof.Machine

/-! # Mailboxes reached by words and by messages (R345, R349, R438, R441, R508, R509, R512, R513) -/

namespace Sys2Proof.Machine

namespace State

variable {s : State}

/-! ## MREAD and MWRITE (R345, R349) -/

section Management

variable {l : Nat} {p : Packet} {ok : Bool} {run : Nat → State → List Byte × State}

/-- A management request that names this device is answered as any request is. -/
theorem mgmtReply_numbered (numbered : p.dst.toNat ≠ 0xFFFF) (s : State) (l st : Nat) (bs : List Byte) :
    s.mgmtReply l p st bs = s.reply p st (bs.map fun b => (b, false)) := if_pos (by simp [numbered])

variable (here : p.dst.toNat = s.fab.devnum) (numbered : p.dst.toNat ≠ 0xFFFF) (request : p.flags.getLsbD 0 = false)
  (length : p.len = 4) (clean : pktClean p = true) (fields : ok = true)
include here numbered request length clean fields

/-- Past the checks of its header and its data, a request is refused for its sender, its lane or its offset, or does its work. -/
theorem onMgmt_clean : s.onMgmt l p ok run =
    if p.vl != 5 || p.src.toNat < s.fab.fmLo || s.fab.fmHi < p.src.toNat || 0xFFC < p.addr.toNat
    then s.requested.reply p St.notAuthorised
    else if p.addr.toNat % 4 != 0 then s.requested.reply p St.badField
    else (run p.addr.toNat s.requested).2.reply p St.ok ((run p.addr.toNat s.requested).1.map fun b => (b, false)) := by
  have question : pktResp p = false := request
  simp only [onMgmt, mgmtReply_numbered numbered]
  refine (if_neg (by simp [question])).trans ((if_neg (by simp [here])).trans (if_neg (by simp [clean, length, fields])))

theorem onMgmt_refused (h : p.vl ≠ 5 ∨ p.src.toNat < s.fab.fmLo ∨ s.fab.fmHi < p.src.toNat ∨ 0xFFC < p.addr.toNat) :
    s.onMgmt l p ok run = s.requested.reply p St.notAuthorised := by
  rw [onMgmt_clean here numbered request length clean fields, if_pos (by simpa [or_assoc] using h)]

theorem onMgmt_served (lane : p.vl = 5) (low : s.fab.fmLo ≤ p.src.toNat) (high : p.src.toNat ≤ s.fab.fmHi)
    (inside : p.addr.toNat ≤ 0xFFC) (aligned : p.addr.toNat % 4 = 0) : s.onMgmt l p ok run =
      (run p.addr.toNat s.requested).2.reply p St.ok ((run p.addr.toNat s.requested).1.map fun b => (b, false)) := by
  rw [onMgmt_clean here numbered request length clean fields, if_neg (by simp [lane]; omega), if_neg (by simp [aligned])]

end Management

/-! ## Words of a mailbox (R438, R441) -/

section Words

variable (s) (p : Port) (v : W32)

theorem boxWrite_go (go : v.getLsbD 0 = true) : s.boxWrite p 0 v =
    s.goArea (areaCmd p (fit 256 (s.box p).cmd)).1 (areaCmd p (fit 256 (s.box p).cmd)).2 s.session? := if_pos go

theorem boxWrite_stat : s.boxWrite p 4 v = s.setBox p { s.box p with
    done := (s.box p).done && !v.getLsbD 0, ovr := (s.box p).ovr && !v.getLsbD 1, rst := (s.box p).rst && !v.getLsbD 2 } := rfl

theorem boxWrite_ie : s.boxWrite p 8 v = s.setBox p { s.box p with ie := v.getLsbD 0 } := rfl

variable {off : Nat}

theorem boxWrite_area (low : 0x100 ≤ off) (high : off < 0x200) :
    s.boxWrite p off v = s.setBox p { s.box p with cmd := patch (fit 256 (s.box p).cmd) (off - 0x100) (le 4 v.toNat) } :=
  (if_neg (by omega)).trans ((if_neg (by omega)).trans ((if_neg (by omega)).trans (if_pos (by simp [low, high]))))

/-- The response area and what comes after it are the device's. -/
theorem boxWrite_beyond (beyond : 0x200 ≤ off) : s.boxWrite p off v = s :=
  (if_neg (by omega)).trans ((if_neg (by omega)).trans ((if_neg (by omega)).trans (if_neg (by simp; omega))))

end Words

/-! ## JTAG (R513) -/

section Jtag

variable {dr : BitVec 44}

/-- The instruction register holds MBX while its data register is used. -/
def jtagOnMbx (s : State) : State := { s with tru := { s.tru with jtagIr := 0x30 } }

theorem jtagMbx_write (write : bitOf dr 43 = true) :
    s.jtagMbx dr = s.jtagOnMbx.boxWrite .jtag (4 * fld dr 41 32) (BitVec.ofNat 32 (fld dr 31 0)) := if_pos write

theorem jtagMbx_read (read : bitOf dr 43 = false) : s.jtagMbx dr = s.jtagOnMbx.emit
    (.jtag (BitVec.ofNat 44 (fld dr 41 32 * 2 ^ 32 + s.jtagOnMbx.boxWord .jtag (4 * fld dr 41 32)))) :=
  if_neg (Bool.eq_false_iff.mp read)

end Jtag

/-! ## The service console and the management port (R508, R509, R512) -/

section Messages

theorem clearDone_not_done {p : Port} (open' : (s.box p).done = false) : s.clearDone p = s := if_neg (by simp [open'])

variable {h : SvcHdr} {area : List Byte}

section Service

variable (up : s.svcUp = true) (port : h.port < 2) (length : area.length = 16 + rd area 2 2) (small : area.length ≤ 256)
include up port length small

theorem svcCmd_repeated (again : s.tru.lastSeq = some h.seq) :
    s.svcCmd h area = if s.tru.rspWait then s else s.svcSend h.port 0x11 s.tru.lastRsp :=
  (if_neg (by simp [up, length, Nat.not_le.mpr port]; omega)).trans (if_pos again)

/-- The session a message of the console runs in is the one it names, on the port it came by. -/
def inSession (s : State) (h : SvcHdr) : Bool :=
  match s.tru.session with | some x => x.num == h.session && x.port == h.port | none => false

theorem svcCmd_new (new : s.tru.lastSeq ≠ some h.seq) (idle : (s.box .svc).busy = none) (open' : (s.box .svc).done = false) :
    s.svcCmd h area =
      goArea { s with tru := { s.tru with lastSeq := some h.seq, lastRsp := [], rspPort := h.port, rspWait := true } }
        (areaCmd .svc (fit 256 area)).1 (areaCmd .svc (fit 256 area)).2 (s.inSession h) := by
  rw [svcCmd, clearDone_not_done open']
  exact (if_neg (by simp [up, length, Nat.not_le.mpr port]; omega)).trans ((if_neg new).trans (if_neg (by simp [idle])))

end Service

theorem mctpCmd_idle (heard : s.tru.mctpBusy = false) (idle : (s.box .bmc).busy = none) (open' : (s.box .bmc).done = false) :
    s.mctpCmd area = goArea { s with tru := { s.tru with mctpBusy := true } }
      (areaCmd .bmc (fit 256 area)).1 (areaCmd .bmc (fit 256 area)).2 false := by
  rw [mctpCmd, clearDone_not_done open']
  exact if_neg (by simp [heard, idle])

theorem mctpCmd_busy (busy : s.tru.mctpBusy = true ∨ (s.box .bmc).busy ≠ none) : s.mctpCmd area = s.emit (.mctp
    (mctpReply (le 2 St.badState ++ zeros 2 ++ le 4 (areaCmd .bmc (fit 256 area)).2.tag.toNat ++ zeros 8))) :=
  if_pos (by simpa [Option.isSome_iff_ne_none] using busy)

end Messages

end State

section Exec

variable (s : State) (l : Nat) (p : Packet)

theorem exec_mread : exec (.mread l p) s = .next (s.onMread l { p with op := 0xA }) := rfl
theorem exec_mwrite : exec (.mwrite l p) s = .next (s.onMwrite l { p with op := 0xB }) := rfl
theorem exec_mbx (dr : BitVec 44) : exec (.mbx dr) s = .next (s.jtagMbx dr) := rfl
theorem exec_mbxCmd (h : SvcHdr) (area : List Byte) : exec (.mbxCmd h area) s = .next (s.svcCmd h area) := rfl
theorem exec_mctpMailboxCommand (area : List Byte) : exec (.mctpMailboxCommand area) s = .next (s.mctpCmd area) := rfl

end Exec

/-- Settles O27: MREAD and MWRITE by the cases of a management request (`State.onMgmt_clean`), a word of a mailbox by its place, and the
messages by what is owed. -/
theorem mailboxesByWordAndMessage : Obligations.MailboxesByWordAndMessage := by
  intro s
  refine ⟨fun l p here numbered request length => ⟨fun clean => ⟨fun lane low high inside aligned => ?mread, fun refused => ?mreadRefused⟩,
      fun clean whole => ⟨fun lane low high inside aligned => ?mwrite, fun refused => ?mwriteRefused⟩⟩,
    fun dr => ⟨fun write => ?jtagWrite, fun read => ?jtagRead⟩,
    fun p v => ⟨State.boxWrite_go s p v, State.boxWrite_stat s p v, State.boxWrite_ie s p v, fun off => State.boxWrite_area s p v,
      fun off => State.boxWrite_beyond s p v⟩,
    fun h area up port length small => ⟨fun again => ?repeated, fun new idle done => ?new⟩,
    fun area => ⟨fun heard idle done => ?mctp, fun busy => ?mctpBusy⟩⟩
  case mread =>
    rw [exec_mread, State.onMread,
      State.onMgmt_served (p := { p with op := 0xA }) here numbered request length clean rfl lane low high inside aligned]
    rfl
  case mreadRefused =>
    rw [exec_mread, State.onMread, State.onMgmt_refused (p := { p with op := 0xA }) here numbered request length clean rfl refused]
    rfl
  case mwrite =>
    rw [exec_mwrite, State.onMwrite, State.onMgmt_served (p := { p with op := 0xB }) here numbered request length clean
      (beq_iff_eq.mpr whole) lane low high inside aligned]
    rfl
  case mwriteRefused =>
    rw [exec_mwrite, State.onMwrite,
      State.onMgmt_refused (p := { p with op := 0xB }) here numbered request length clean (beq_iff_eq.mpr whole) refused]
    rfl
  case jtagWrite =>
    rw [exec_mbx, State.jtagMbx_write write]
    rfl
  case jtagRead =>
    rw [exec_mbx, State.jtagMbx_read read]
    rfl
  case repeated => rw [exec_mbxCmd, State.svcCmd_repeated up port length small again]
  case new =>
    rw [exec_mbxCmd, State.svcCmd_new up port length small new idle done]
    rfl
  case mctp => rw [exec_mctpMailboxCommand, State.mctpCmd_idle heard idle done]
  case mctpBusy => rw [exec_mctpMailboxCommand, State.mctpCmd_busy busy]

end Sys2Proof.Machine

/-! # Bucket steps: when one starts, and what it takes in (R391 to R394) -/

namespace Sys2Proof.Machine

namespace State

variable {s : State} {b : Nat} {x : Bucket}

/-! ## Whether a step starts (R391) -/

theorem bucketStart_no_bucket (none : s.bucket? b = none) : s.bucketStart b = s := by
  rw [bucketStart, none]

theorem bucketStart_not_yet (here : s.bucket? b = some x) (off : x.full = false ∨ x.run.isSome = true ∨
    (x.df.auto = false ∧ x.go = none) ∨ s.turn b x = false ∨ s.normReady x = false) : s.bucketStart b = s := by
  simp only [bucketStart, here]
  refine if_pos ?_
  simp only [Bool.or_eq_true, Bool.not_eq_true', Bool.or_eq_false_iff, Option.isSome_eq_false_iff, Option.isNone_iff_eq_none]
  tauto

/-! ## A step of a bucket without norms (R392, R393) -/

/-- The run that a bucket without norms begins: its span table has not been read. -/
def newRun (s : State) (x : Bucket) : BucketRun where
  step := x.steps
  phase := 1
  q := []
  wide := false
  side := 0
  sent := 0
  xt := 0
  adds := 0
  arrT := 0
  arrSeg := 0
  final := []
  spans := (List.range x.df.nspan).map fun k => (rd ([] : List Byte) (8 * k) 4, rd ([] : List Byte) (8 * k + 4) 2)
  status := St.ok
  path := if x.df.dens = 0 then 0 else 3
  wrote := false
  st := x.go.getD none
  began := s.now

/-- The device once the step has begun: the fill state is cleared, the step is counted, and the ring's wait begins again. -/
def stepBegun (s : State) (b : Nat) (x : Bucket) : State :=
  let t := s.dropFetch (.bucket b)
  (t.setBucket b { x with full := false, go := none, steps := x.steps + 1, run := some (t.newRun x) }).ringTouch x.df.ring

/-- A dense step takes its contributions in: the shard of a ring of one is done, and a longer ring gets the segments of the first shard. -/
def denseTakes (s : State) (b : Nat) (d : BucketDef) (as' : List XF) : State :=
  let u := (s.storeResiduals d as' 0).modBRun b fun r => { r with q := as', xt := 0, sent := 0 }
  if d.n = 1 then u.shardDone b (as'.map fun a => partZero.add d.ew a 1) else skipEmpty d.n (u.sendOwn b) b

/-- A sparse step takes its contributions in and sends the elements whose exponent fields reach the threshold. -/
def sparseTakes (s : State) (b : Nat) (d : BucketDef) (as' : List XF) : State :=
  let xt := threshold d.elems d.dens as'
  let sent (a : XF) : Bool := decide (xt ≤ fld (enc32 a) 30 23)
  let u := (s.storeResiduals d as' xt).modBRun b fun r => { r with q := as', xt := xt, sent := (as'.filter sent).length }
  (as'.zipIdx.foldl (fun (v : State) (a : XF × Nat) => if sent a.1 then v.sendSparse b a.2 a.1 else v) u).sparseAdvance b

/-- A step that has begun takes its contributions in, or ends because an area is poisoned. -/
def stepTakes (s : State) (b : Nat) (d : BucketDef) : State :=
  match s.contributions d with
  | none => s.stepFail b St.poisoned
  | some as' => if d.dens = 0 then s.denseTakes b d as' else s.sparseTakes b d as'

theorem bucketStart_begins (here : s.bucket? b = some x) (full : x.full = true) (rests : x.run = none)
    (asked : x.df.auto = true ∨ x.go ≠ none) (turn : s.turn b x = true) (plain : x.df.norm = false)
    (unread : s.fetch? (.bucket b) = none) : s.bucketStart b = (s.stepBegun b x).stepTakes b x.df := by
  have goes : (x.df.auto || x.go.isSome) = true := by simpa [Option.isSome_iff_ne_none] using asked
  simp only [bucketStart, here, full, rests, goes, turn, normReady, plain, unread, Option.isSome_none, Option.isNone_none, Bool.not_true,
    Bool.not_false, Bool.true_or, Bool.or_self, Bool.false_and, Bool.false_eq_true, if_false, bne_self_eq_false]
  change (match (s.stepBegun b x).contributions x.df with | none => _ | some as' => _) = _
  unfold stepTakes
  cases (s.stepBegun b x).contributions x.df with
  | none => rfl
  | some as' =>
    by_cases dense : x.df.dens = 0
    · simp only [denseTakes, stepBegun, newRun, dense, if_true]
    · simp only [sparseTakes, stepBegun, newRun, dense, if_false]

section Takes

variable {d : BucketDef} {as' : List XF}

theorem stepTakes_poisoned (bad : s.contributions d = none) : s.stepTakes b d = s.stepFail b St.poisoned := by
  rw [stepTakes, bad]

theorem stepTakes_dense (good : s.contributions d = some as') (dense : d.dens = 0) : s.stepTakes b d = s.denseTakes b d as' := by
  rw [stepTakes, good]
  exact if_pos dense

theorem stepTakes_sparse (good : s.contributions d = some as') (sparse : d.dens ≠ 0) : s.stepTakes b d = s.sparseTakes b d as' := by
  rw [stepTakes, good]
  exact if_neg sparse

end Takes

/-! ## The threshold of a sparse step (R393) -/

/-- The first number from 1 to `n` with a property that `n` has. -/
theorem find?_oneUpTo {p : Nat → Bool} {n : Nat} (pos : 0 < n) (last : p n = true) :
    ∃ x, ((List.range n).map (· + 1)).find? p = some x ∧ 1 ≤ x ∧ x ≤ n ∧ p x = true ∧ ∀ y, 1 ≤ y → y < x → p y = false := by
  have numbers : (List.range n).map (· + 1) = List.range' 1 n := by simp [List.range'_eq_map_range, Nat.add_comm]
  rw [numbers]
  cases found : (List.range' 1 n).find? p with
  | none => exact absurd last (by simpa using List.find?_range'_eq_none.mp found n pos (by omega))
  | some x =>
    obtain ⟨has, inside, below⟩ := List.find?_range'_eq_some.mp found
    obtain ⟨low, high⟩ := List.mem_range'_1.mp inside
    exact ⟨x, rfl, low, by omega, has, fun y one less => by simpa using below y one less⟩

/-- How many elements' exponent fields reach `x`. -/
def reaching (as' : List XF) (x : Nat) : Nat := ((as'.map fun a => fld (enc32 a) 30 23).filter fun f => decide (x ≤ f)).length

/-- An exponent field has eight bits, and none reaches 256. -/
theorem reaching_256 (as' : List XF) : reaching as' 256 = 0 := by
  rw [reaching, List.length_eq_zero_iff, List.filter_eq_nil_iff]
  rintro f field
  obtain ⟨a, -, rfl⟩ := List.mem_map.mp field
  have : fld (enc32 a) 30 23 < 2 ^ (30 + 1 - 23) := Nat.mod_lt _ (by decide)
  simp only [decide_eq_true_eq]
  omega

theorem threshold_least (e k : Nat) (as' : List XF) :
    let xt := threshold e k as'
    1 ≤ xt ∧ xt ≤ 256 ∧ reaching as' xt ≤ e / 2 ^ k ∧ ∀ x, 1 ≤ x → x < xt → e / 2 ^ k < reaching as' x := by
  obtain ⟨xt, found, low, high, few, below⟩ :=
    find?_oneUpTo (p := fun x => decide (reaching as' x ≤ e / 2 ^ k)) (n := 256) (by decide) (by simp [reaching_256])
  have its : threshold e k as' = xt := congrArg (·.getD 256) found
  rw [its]
  exact ⟨low, high, of_decide_eq_true few, fun x one less => Nat.lt_of_not_le (of_decide_eq_false (below x one less))⟩

end State

section Exec

variable (s : State) (b : Nat)

theorem exec_bucketStart : exec (.bucketStart b) s = .next (s.bucketStart b) := rfl

end Exec

/-- Settles O47: a step that starts begins and takes its contributions in (`State.bucketStart_begins`); the threshold is the first number
in a list (`State.threshold_least`). -/
theorem bucketStepsStart : Obligations.BucketStepsStart := by
  refine ⟨fun s b => ⟨fun none => ?noBucket, fun x here => ⟨fun off => ?notYet, fun full rests asked turn plain unread => ?starts⟩⟩,
    State.threshold_least⟩
  case noBucket => rw [exec_bucketStart, State.bucketStart_no_bucket none]
  case notYet => rw [exec_bucketStart, State.bucketStart_not_yet here off]
  case starts =>
    rw [exec_bucketStart, State.bucketStart_begins here full rests asked turn plain unread]
    refine ⟨fun bad => ?poisoned, fun as' good dense => ⟨fun alone => ?alone, fun more => ?ring⟩, fun as' good sparse => ?sparse⟩
    case poisoned => exact congrArg _ (State.stepTakes_poisoned bad)
    case alone => exact congrArg _ ((State.stepTakes_dense good dense).trans (if_pos alone))
    case ring => exact congrArg _ ((State.stepTakes_dense good dense).trans (if_neg more))
    case sparse => exact congrArg _ (State.stepTakes_sparse good sparse)

end Sys2Proof.Machine

/-! # Segments: what a receiver reads from one (R396, R397, R399) -/

namespace Sys2Proof.Machine

/-! ## Bytes laid one behind another -/

theorem rd_append_right {pre : List Byte} {k : Nat} (len : pre.length = k) (bs : List Byte) (off n : Nat) :
    rd (pre ++ bs) (k + off) n = rd bs off n := by
  rw [rd, rd, ← List.drop_drop, List.drop_left' len]

theorem rd_append_left {bs : List Byte} {off n : Nat} (inside : off + n ≤ bs.length) (suf : List Byte) :
    rd (bs ++ suf) off n = rd bs off n := by
  rw [rd, rd, List.drop_append_of_le_length (by omega), List.take_append_of_le_length (by rw [List.length_drop]; omega)]

/-- A part of piece `k` of equal pieces. -/
theorem rd_flatMap {α : Type} {g : α → List Byte} {n : Nat} (even : ∀ x, (g x).length = n) {l : List α} {k : Nat} {x : α}
    (piece : l[k]? = some x) {off m : Nat} (inside : off + m ≤ n) : rd (l.flatMap g) (n * k + off) m = rd (g x) off m := by
  rw [rd, rd, ← take_drop_flatMap even piece, List.drop_take, List.take_take, List.drop_drop, Nat.min_eq_left (by omega)]

theorem fit_of_length_le {n : Nat} {bs : List Byte} (short : bs.length ≤ n) : fit n bs = bs ++ zeros (n - bs.length) := by
  rw [fit, List.take_of_length_le short]

/-! ## The parts a receiver reads -/

section Received

variable {g : List Byte} {n e : Nat}

theorem length_segParts : (segParts g n).length = n := by
  unfold segParts
  split <;> simp

theorem segParts_wide (wide : rd g 3 1 % 2 = 1) (inside : e < n) :
    (segParts g n)[e]? = some ⟨rd g (0x40 + 24 * e) 16, rd g (0x50 + 24 * e) 8, false⟩ := by
  rw [segParts, if_pos wide, List.getElem?_map, List.getElem?_range inside, Option.map_some]

theorem segParts_narrow (narrow : rd g 3 1 % 2 = 0) (inside : e < n) (plain : rd g (0x40 + 3 * e) 3 ≠ 0x800000) :
    (segParts g n)[e]? = some (partOf ⟨sgn 24 (rd g (0x40 + 3 * e) 3), false, false, false, false, 0⟩ false) := by
  rw [segParts, if_neg (by omega), List.getElem?_map, List.getElem?_range inside, Option.map_some]
  exact congrArg some (if_pos (bne_iff_ne.mpr plain))

end Received

/-! ## The header of a segment (R396) -/

section Segment

variable (b ring step shard hop ix : Nat) (ew : Int) (ps : List Part)

theorem segment_kind (wide : Bool) : rd (segment b ring step shard hop ix ew wide ps) 3 1 = if wide then 1 else 0 := by
  have kind : (if wide then 1 else 0) < 256 ^ 1 := by split <;> decide
  simp only [segment, List.append_assoc]
  rw [rd_skip (by decide), rd_skip (by decide), rd_le_append, Nat.mod_eq_of_lt kind]

/-- The elements of a segment begin behind its 64 bytes of header. -/
theorem rd_segment (wide : Bool) (off n : Nat) :
    rd (segment b ring step shard hop ix ew wide ps) (0x40 + off) n = rd (if wide then wideBody ps else narrowBody ps) off n :=
  rd_append_right (by simp [zeros]) _ off n

/-! ## Wide segments (R399) -/

theorem length_wideElem (p : Part) : (le 16 p.elem ++ le 8 p.shad).length = 24 := by simp

theorem rd_wideBody {ps : List Part} {e : Nat} {p : Part} (its : ps[e]? = some p) {off n : Nat} (inside : off + n ≤ 24) :
    rd (wideBody ps) (24 * e + off) n = rd (le 16 p.elem ++ le 8 p.shad) off n :=
  rd_flatMap length_wideElem its inside

theorem segParts_segment_wide (whole : ∀ p ∈ ps, p.elem < 2 ^ 128 ∧ p.shad < 2 ^ 64 ∧ p.esc = false) :
    segParts (segment b ring step shard hop ix ew true ps) ps.length = ps := by
  refine List.ext_getElem?' fun e inside => ?_
  rw [length_segParts, max_self] at inside
  have its := List.getElem?_eq_getElem inside
  obtain ⟨elem, shad, esc⟩ := whole _ (List.getElem_mem inside)
  have first : rd (segment b ring step shard hop ix ew true ps) (0x40 + 24 * e) 16 = ps[e].elem := by
    rw [rd_segment, if_pos rfl, ← Nat.add_zero (24 * e), rd_wideBody its (by decide), rd_le_append,
      Nat.mod_eq_of_lt (by simpa using elem)]
  have second : rd (segment b ring step shard hop ix ew true ps) (0x50 + 24 * e) 8 = ps[e].shad := by
    rw [show 0x50 + 24 * e = 0x40 + (24 * e + 16) by omega, rd_segment, if_pos rfl, rd_wideBody its (by decide), rd_skip (by decide),
      ← List.append_nil (le 8 _), rd_le_append, Nat.mod_eq_of_lt (by simpa using shad)]
  rw [segParts_wide (by rw [segment_kind, if_pos rfl]) inside, first, second, its, ← esc]

/-! ## Narrow segments without escapes (R397) -/

/-- A field of 24 bits reads back every number it holds but the mark of an escape. -/
theorem sgn_field {v : Int} (small : v.natAbs ≤ 8388607) : sgn 24 (v % (2 : Int) ^ 24).toNat = v := by
  unfold sgn
  norm_num
  split <;> omega

theorem field_not_escape {v : Int} (small : v.natAbs ≤ 8388607) : (v % (2 : Int) ^ 24).toNat ≠ 0x800000 := by omega

/-- The part of a small finite sum stands for it: its shadow word is 0, and its 126 bits hold the sum. -/
theorem sum_partOf {v : Int} (small : v.natAbs ≤ 8388607) : (partOf ⟨v, false, false, false, false, 0⟩ false).acc.sum = v := by
  have low : (v + 2 ^ 125) % 2 ^ 126 - 2 ^ 125 = v := by omega
  have shadow : XwAcc.shadow ⟨v, false, false, false, false, 0⟩ = 0 := by
    rw [XwAcc.shadow, low, Int.sub_self, Int.zero_ediv]
    simp
  have elem : (partOf ⟨v, false, false, false, false, 0⟩ false).elem % 2 ^ 126 = (v % 2 ^ 126).toNat := by
    simp only [partOf, accCls]
    norm_num
    omega
  simp only [Part.acc, elem]
  simp only [partOf, shadow]
  split <;> simp [sgn] <;> omega

/-- The fields of a narrow segment come first in its body. -/
theorem rd_narrowBody {ps : List Part} {e : Nat} {p : Part} (its : ps[e]? = some p) (plain : p.esc = false) :
    rd (narrowBody ps) (3 * e) 3 = (p.acc.sum % (2 : Int) ^ 24).toNat := by
  have inside : e < ps.length := (List.getElem?_eq_some_iff.mp its).1
  have even : ∀ p : Part, (le 3 (if p.esc then 0x800000 else (p.acc.sum % (2 : Int) ^ 24).toNat)).length = 3 := fun p => length_le_bytes 3 _
  have len := length_flatMap_of_forall (l := ps) fun p _ => even p
  rw [narrowBody, rd_append_left (by rw [length_fit]; omega), fit_of_length_le (by omega), rd_append_left (by omega),
    ← Nat.add_zero (3 * e), rd_flatMap even its (by decide), plain, if_neg Bool.false_ne_true, ← List.append_nil (le 3 _), rd_le_append]
  omega

theorem segParts_segment_narrow (small : ∀ p ∈ ps, p.esc = false ∧ p.acc.sum.natAbs ≤ 8388607) :
    (segParts (segment b ring step shard hop ix ew false ps) ps.length).map (fun p => p.acc.sum) = ps.map fun p => p.acc.sum := by
  refine List.ext_getElem?' fun e inside => ?_
  rw [List.length_map, List.length_map, length_segParts, max_self] at inside
  have its := List.getElem?_eq_getElem inside
  obtain ⟨plain, fits⟩ := small _ (List.getElem_mem inside)
  have field : rd (segment b ring step shard hop ix ew false ps) (0x40 + 3 * e) 3 = (ps[e].acc.sum % (2 : Int) ^ 24).toNat := by
    rw [rd_segment, if_neg Bool.false_ne_true, rd_narrowBody its plain]
  rw [List.getElem?_map, List.getElem?_map, its, segParts_narrow (by rw [segment_kind, if_neg Bool.false_ne_true]) inside
    (field ▸ field_not_escape fits), field, sgn_field fits, Option.map_some, Option.map_some, sum_partOf fits]

end Segment

/-- Settles O48: each element is read where it was laid, whole in a wide segment, and as a field of 24 bits in a narrow one. -/
theorem segmentsCarryTheirParts : Obligations.SegmentsCarryTheirParts :=
  fun b ring step shard hop ix ew ps _ _ =>
    ⟨segParts_segment_wide b ring step shard hop ix ew ps, segParts_segment_narrow b ring step shard hop ix ew ps⟩

end Sys2Proof.Machine

/-! # Rings: segments that arrive, sparse regions that close, timeouts, and the end of a bucket step (R394, R398, R400 to R402) -/

namespace Sys2Proof.Machine

/-- The slot of a ring's inbox that the next segment comes in. -/
def Ring.nextSlot (g : Ring) : Nat := g.inbox + 64 + g.rxSeq % 8 * 24640

/-- The shard whose segments arrive next. -/
def Ring.nextShard (g : Ring) (q : BucketRun) : Nat := (g.pos + 2 * g.n - 2 - q.arrT) % g.n

/-- A segment's header names another bucket, step, shard, segment or exponent than the one expected. -/
def segmentMisfit (hd : List Byte) (g : Ring) (b : Nat) (x : Bucket) (q : BucketRun) : Bool :=
  rd hd 0 2 != b || rd hd 4 4 != q.step % 2 ^ 32 || rd hd 8 2 != g.nextShard q || rd hd 0xC 4 != q.arrSeg || rdS hd 0x14 2 != x.df.ew

theorem segmentMisfit_eq_false {hd : List Byte} {g : Ring} {b : Nat} {x : Bucket} {q : BucketRun} : segmentMisfit hd g b x q = false ↔
    rd hd 0 2 = b ∧ rd hd 4 4 = q.step % 2 ^ 32 ∧ rd hd 8 2 = g.nextShard q ∧ rd hd 0xC 4 = q.arrSeg ∧ rdS hd 0x14 2 = x.df.ew := by
  simp only [segmentMisfit, Bool.or_eq_false_iff, bne_eq_false_iff_eq, and_assoc]

namespace State

variable {s : State} {b : Nat} {x : Bucket} {q : BucketRun} {g : Ring}

/-! ## A segment arrives (R398, R400) -/

/-- A dense step waits for a segment, and the next slot has the number expected. -/
def SegmentWaits (s : State) (g : Ring) (x : Bucket) (q : BucketRun) : Prop :=
  q.phase = 1 ∧ x.df.dens = 0 ∧ q.arrT + 1 < g.n ∧ leNat (s.read (g.nextSlot + 0x18) 4) = g.rxSeq

/-- The parts of the segment in the next slot. -/
def arrivingParts (s : State) (g : Ring) (x : Bucket) (q : BucketRun) : List Part :=
  let n := x.df.segLen (g.nextShard q) q.arrSeg
  (segParts (s.read g.nextSlot (segBytes (s.read g.nextSlot 64))) n).take n

/-- The device's own contributions to the segment in the next slot. -/
def ownElements (g : Ring) (x : Bucket) (q : BucketRun) : List XF :=
  (q.q.drop (x.df.shardLo (g.nextShard q) + 1024 * q.arrSeg)).take (x.df.segLen (g.nextShard q) q.arrSeg)

/-- What arrived with the device's own contributions. -/
def arrivedSums (s : State) (g : Ring) (x : Bucket) (q : BucketRun) : List Part :=
  ((s.arrivingParts g x q).zip (ownElements g x q)).map fun p => p.1.add x.df.ew p.2 (q.arrT + 2)

/-- The next number is expected, and the predecessor is told how many segments were consumed. -/
def tellConsumed (s : State) (r : Nat) (g : Ring) : Nat × Nat × State :=
  let seq := (g.rxSeq + 1) % 2 ^ 32
  (s.setRing r { g with rxSeq := seq, lastOk := s.now }).gWrite (ringDev g (g.pos + g.n - 1) * 2 ^ 48 + g.inbox)
    ((le 8 seq).map fun b => (b, false)) 2 none .drop

/-- The segment has been taken, with what its consumption left as `told`: the sums of the last shard are kept, and others are sent on. -/
def segmentTaken (s told : State) (b : Nat) (g : Ring) (x : Bucket) (q : BucketRun) : State :=
  let wideIn := rd (s.read g.nextSlot 64) 3 1 % 2 == 1
  let ps := s.arrivingParts g x q
  let out := s.arrivedSums g x q
  let last := decide (q.arrT + 2 = g.n)
  let t := told.modBRun b fun q => { q with
    arrSeg := q.arrSeg + 1, path := max q.path (if wideIn then 2 else if ps.any (·.esc) then 1 else 0),
    wide := q.wide || (wideIn && !last), final := if last then q.final ++ out else q.final }
  if last then t else t.emitSegment b (g.nextShard q) (q.arrT + 2) q.arrSeg ps out (ownElements g x q)

/-- All the segments of the shard have been taken: the last shard is done, and behind another shards without segments are skipped. -/
def shardTaken (s told : State) (b : Nat) (g : Ring) (x : Bucket) (q : BucketRun) : State :=
  let u := (s.segmentTaken told b g x q).modBRun b fun q => { q with arrT := q.arrT + 1, arrSeg := 0 }
  if decide (q.arrT + 2 = g.n) then u.shardDone b (q.final ++ s.arrivedSums g x q) else skipEmpty g.n u b

section Arrival

variable {r : Nat} (here : s.ring? r = some g) (busy : s.reducing r = some (b, x)) (run : x.run = some q)
include here busy run

theorem segmentArrival_left (not : ¬ s.SegmentWaits g x q) : s.segmentArrival r = s := by
  have slotIs : g.inbox + 64 + g.rxSeq % 8 * 24640 = g.nextSlot := rfl
  simp only [segmentArrival, here, busy, run]
  refine if_pos ?_
  rw [slotIs]
  simp only [SegmentWaits] at not
  simp only [Bool.or_eq_true, bne_iff_ne, decide_eq_true_eq]
  omega

variable (waits : s.SegmentWaits g x q)
include waits

/-- Past the wait for it, a segment is refused for a poisoned header, for what it names, or for a poisoned body, or it is taken. -/
theorem segmentArrival_waits : s.segmentArrival r =
    if s.poisoned g.nextSlot 64 then s.stepFail b St.poisoned
    else if segmentMisfit (s.read g.nextSlot 64) g b x q then s.stepFail b St.badState
    else if s.poisoned g.nextSlot (segBytes (s.read g.nextSlot 64)) then s.stepFail b St.poisoned
    else if q.arrSeg + 1 < x.df.segs (g.nextShard q) then s.segmentTaken (s.tellConsumed r g).2.2 b g x q
    else s.shardTaken (s.tellConsumed r g).2.2 b g x q := by
  obtain ⟨phase, dense, more, seq⟩ := waits
  have slotIs : g.inbox + 64 + g.rxSeq % 8 * 24640 = g.nextSlot := rfl
  have shardIs : (g.pos + 2 * g.n - 2 - q.arrT) % g.n = g.nextShard q := rfl
  simp only [segmentArrival, here, busy, run]
  rw [slotIs, shardIs]
  refine (if_neg (by simp [phase, dense, Nat.not_le.mpr more, seq])).trans ?_
  rw [segmentMisfit, shardTaken, segmentTaken, tellConsumed, arrivedSums, arrivingParts, ownElements]
  -- As variables, the places are not computed when the two sides are compared.
  generalize g.nextSlot = slot
  generalize g.nextShard q = shard
  by_cases last : q.arrT + 2 = g.n
  · simp only [last, decide_true, if_true]
  · simp only [last, decide_false, Bool.false_eq_true, if_false]

theorem segmentArrival_head_poisoned (bad : s.poisoned g.nextSlot 64 = true) : s.segmentArrival r = s.stepFail b St.poisoned := by
  rw [segmentArrival_waits here busy run waits, if_pos bad]

variable (sound : s.poisoned g.nextSlot 64 = false)
include sound

theorem segmentArrival_other (other : segmentMisfit (s.read g.nextSlot 64) g b x q ≠ false) :
    s.segmentArrival r = s.stepFail b St.badState := by
  rw [segmentArrival_waits here busy run waits, sound, if_neg Bool.false_ne_true, if_pos (Bool.not_eq_false _ ▸ other)]

variable (fits : segmentMisfit (s.read g.nextSlot 64) g b x q = false)
include fits

theorem segmentArrival_body_poisoned (bad : s.poisoned g.nextSlot (segBytes (s.read g.nextSlot 64)) = true) :
    s.segmentArrival r = s.stepFail b St.poisoned := by
  rw [segmentArrival_waits here busy run waits, sound, fits, if_neg Bool.false_ne_true, if_neg Bool.false_ne_true, if_pos bad]

theorem segmentArrival_good (good : s.poisoned g.nextSlot (segBytes (s.read g.nextSlot 64)) = false) : s.segmentArrival r =
    if q.arrSeg + 1 < x.df.segs (g.nextShard q) then s.segmentTaken (s.tellConsumed r g).2.2 b g x q
    else s.shardTaken (s.tellConsumed r g).2.2 b g x q := by
  rw [segmentArrival_waits here busy run waits, sound, fits, good, if_neg Bool.false_ne_true, if_neg Bool.false_ne_true,
    if_neg Bool.false_ne_true]

end Arrival

/-! ## A sparse region closes (R394) -/

section Sparse

variable (here : s.bucket? b = some x) (run : x.run = some q) (ring : s.ring? x.df.ring = some g)
include here run ring

/-- Arrival words are written once, and by a sparse step only. -/
theorem sparseAdvance_off (off : q.phase ≠ 1 ∨ x.df.dens = 0) : s.sparseAdvance b = s := by
  have stays : (q.phase != 1 || q.adds != 0 || decide (x.df.dens = 0)) = true := by
    rcases off with sent | dense
    · simp [sent]
    · simp [dense]
  rw [sparseAdvance, here]
  change (match x.run, s.ring? x.df.ring with | some _, some _ => _ | _, _ => _) = _
  rw [run, ring]
  exact if_pos stays

theorem sparseClose_off (off : x.df.dens = 0 ∨ (q.phase = 2 ∧ s.arrived g x.df q.step = false)) : s.sparseClose b = s := by
  have sent : s.sparseAdvance b = s := sparseAdvance_off here run ring (by omega)
  have stays : (q.phase != 2 || decide (x.df.dens = 0) || !s.arrived g x.df q.step) = true := by
    rcases off with dense | ⟨-, waits⟩
    · simp [dense]
    · simp [waits]
  simp only [sparseClose, sent, here, run, ring]
  exact if_pos stays

variable (waits : q.phase = 2) (sparse : x.df.dens ≠ 0) (all : s.arrived g x.df q.step = true)
include waits sparse all

theorem sparseClose_no_region (none : SMap.get? s.regions (x.df.sparse (q.step % 2)) = none) :
    s.sparseClose b = s.stepFail b St.badState := by
  simp only [sparseClose, sparseAdvance_off here run ring (by omega), here, run, ring, none]
  exact if_neg (by simp [waits, sparse, all])

/-- The region is closed, zeroed and open again, and the ring's wait begins again. -/
def reopened (s : State) (r key : Nat) (z : Region) : State :=
  (((s.zeroAt key (16 * z.count)).beginOpen key z.shadow z.count z.eb).finishOpen key).ringTouch r

/-- The results that a closed region holds for the device's own shard. -/
def closedValues (s : State) (g : Ring) (x : Bucket) (key : Nat) : List XF :=
  (List.range (x.df.shardLen g.pos)).map fun i => (Xw.dec (leNat (s.read (key + 16 * i) 16))).value x.df.ew

theorem sparseClose_closes {z : Region} (region : SMap.get? s.regions (x.df.sparse (q.step % 2)) = some z) :
    s.sparseClose b =
      let key := x.df.sparse (q.step % 2)
      let closed := (s.closeRegion key).2.2
      let t := closed.reopened x.df.ring key z
      if s.poisoned key (16 * x.df.shardLen g.pos) then t.stepFail b St.poisoned
      else if z.elems.any fun e => decide (e.1 < x.df.shardLen g.pos) && e.2.finite && e.2.exceeded then t.floatBegin b
      else t.writeShard b ((closed.closedValues g x key).map fun v => (v, (enc32 v).toNat)) := by
  simp only [sparseClose, sparseAdvance_off here run ring (by omega), here, run, ring, region]
  exact if_neg (by simp [waits, sparse, all])

end Sparse

/-! ## A wait lasts too long (R400) -/

section Timeout

variable {r : Nat} (here : s.ring? r = some g) (busy : s.reducing r = some (b, x)) (run : x.run = some q)
include here busy run

theorem ringTimeout_off (off : s.now < g.lastOk + g.rtmo * 2400000 ∨ (q.phase ≠ 1 ∧ q.phase ≠ 2 ∧ g.queue = [])) :
    s.ringTimeout r = s := by
  simp only [ringTimeout, here, busy, run]
  rcases off with early | ⟨notRing, notSparse, sent⟩
  · exact if_pos early
  · have none : (decide (q.phase = 1) || decide (q.phase = 2) || !g.queue.isEmpty) = false := by simp [notRing, notSparse, sent]
    simp only [none, Bool.false_eq_true, if_false, ite_self]

theorem ringTimeout_due (due : g.lastOk + g.rtmo * 2400000 ≤ s.now) (waits : q.phase = 1 ∨ q.phase = 2 ∨ g.queue ≠ []) :
    s.ringTimeout r = s.stepFail b St.timeout := by
  simp only [ringTimeout, here, busy, run]
  refine (if_neg (Nat.not_lt.mpr due)).trans (if_pos ?_)
  simpa [or_assoc] using waits

end Timeout

/-! ## The end of a bucket step (R402) -/

section Complete

variable (here : s.bucket? b = some x) (run : x.run = some q)
include here run

theorem bucketDone_off (off : q.phase = 1 ∨ q.phase = 2 ∨ (q.phase = 4 ∧ q.status = St.ok ∧ s.bucketQuiet x q = false)) :
    s.bucketDone b = s := by
  have reads : q.phase ≠ 3 := by omega
  simp only [bucketDone, here, run, if_neg reads]
  refine if_pos ?_
  rcases off with waits | waits | ⟨ends, good, busy⟩
  · simp [waits]
  · simp [waits]
  · simp [good, busy]

/-- What the step reports of itself: its path, its side entries and its threshold. -/
def stepValue (q : BucketRun) : Nat := q.path + q.side % 2 ^ 28 * 16 + q.xt * 2 ^ 32

/-- The step's end is recorded, and its turn on the ring goes to the next bucket. -/
def stepRecorded (s : State) (b : Nat) (g : Ring) (x : Bucket) (q : BucketRun) : State :=
  let t := if q.status = St.ok then s else s.forget x.df.result (x.df.result + 4 * x.df.shardLen g.pos)
  (t.setBucket b { x with
    run := none, lastPath := q.path, lastStatus := q.status, lastSide := q.side, lastSent := BitVec.ofNat 64 q.sent }).modRing x.df.ring
    fun g => { g with order := b + 1 }

/-- The step's result and flag follow where the bucket asks for them. -/
def stepReported (t : State) (x : Bucket) (q : BucketRun) : State :=
  let t := if x.df.bres = 0 then t else (t.devWrite x.df.bres (resultBytes q.status (q.step + 1) (stepValue q))).2
  if bitOf x.df.donef 31 then (t.signal .dev (.here (fld x.df.donef 23 12) (fld x.df.donef 11 0)) false 1 []).2 else t

/-- The descriptor that asked for the step ends with what it came to. -/
def stepAnswered (t : State) (q : BucketRun) : State :=
  match q.st with
  | some st => (t.modRun st fun d => { d with value := stepValue q, pieces := 1 }).finish st q.status
  | none => t

theorem bucketDone_ends (ring : s.ring? x.df.ring = some g) (ends : q.phase = 4) (quiet : q.status ≠ St.ok ∨ s.bucketQuiet x q = true) :
    s.bucketDone b = ((s.stepRecorded b g x q).stepReported x q).stepAnswered q := by
  have reads : q.phase ≠ 3 := by omega
  simp only [bucketDone, here, run, ring, if_neg reads]
  exact if_neg (by simpa [ends, imp_iff_not_or] using quiet)

end Complete

end State

section Exec

variable (s : State) (r b : Nat)

theorem exec_segmentArrival : exec (.segmentArrival r) s = .next (s.segmentArrival r) := rfl
theorem exec_sparseClose : exec (.sparseClose b) s = .next (s.sparseClose b) := rfl
theorem exec_ringTimeout : exec (.ringTimeout r) s = .next (s.ringTimeout r) := rfl
theorem exec_bucketStepComplete : exec (.bucketStepComplete b) s = .next (s.bucketDone b) := rfl

end Exec

/-- Settles O49: a slot that a step waits for is refused or taken by the checks of `State.segmentArrival_waits`, and each other event is an
equation for when it acts and one for when it leaves the device as it is. -/
theorem ringsTakeSegmentsAndTimeOut : Obligations.RingsTakeSegmentsAndTimeOut := by
  rintro s r g b x q here busy run known rfl
  refine ⟨⟨fun not => ?left, fun waits bad => ?headPoisoned, fun waits sound other => ?other, fun waits sound fits bad => ?bodyPoisoned,
      fun waits sound fits good => ⟨fun more => ?taken, fun all => ?shard⟩⟩, fun off => ?sparseOff, fun waits sparse all none => ?noRegion,
    fun waits sparse all z region => ?closes, fun off => ?inTime, fun due waits => ?timeout, fun off => ?goesOn, fun ends quiet => ?ends⟩
  case left => rw [exec_segmentArrival, State.segmentArrival_left here busy run not]
  case headPoisoned => rw [exec_segmentArrival, State.segmentArrival_head_poisoned here busy run waits bad]
  case other =>
    rw [exec_segmentArrival, State.segmentArrival_other here busy run waits sound fun fits => other (segmentMisfit_eq_false.mp fits)]
  case bodyPoisoned =>
    rw [exec_segmentArrival, State.segmentArrival_body_poisoned here busy run waits sound (segmentMisfit_eq_false.mpr fits) bad]
  case taken =>
    rw [exec_segmentArrival, State.segmentArrival_good here busy run waits sound (segmentMisfit_eq_false.mpr fits) good,
      if_pos (show _ < x.df.segs (g.nextShard q) from more)]
    rfl
  case shard =>
    rw [exec_segmentArrival, State.segmentArrival_good here busy run waits sound (segmentMisfit_eq_false.mpr fits) good,
      if_neg (show ¬ _ < x.df.segs (g.nextShard q) from Nat.not_lt.mpr all)]
    rfl
  case sparseOff => rw [exec_sparseClose, State.sparseClose_off known run here off]
  case noRegion => rw [exec_sparseClose, State.sparseClose_no_region known run here waits sparse all none]
  case closes =>
    rw [exec_sparseClose, State.sparseClose_closes known run here waits sparse all region]
    rfl
  case inTime => rw [exec_ringTimeout, State.ringTimeout_off here busy run off]
  case timeout => rw [exec_ringTimeout, State.ringTimeout_due here busy run due waits]
  case goesOn => rw [exec_bucketStepComplete, State.bucketDone_off known run off]
  case ends =>
    rw [exec_bucketStepComplete, State.bucketDone_ends known run here ends quiet]
    rfl

end Sys2Proof.Machine

/-! # Step programs: a phase starts, completes, fails and times out (R409 to R411) -/

namespace Sys2Proof.Machine

namespace State

variable {s : State} {sp ph : Nat} {x : StepProg} {r : StepRun} {d : PhaseDef} {p : PhaseRun}

/-! ## What the operations on a phase leave as it is, and what they make of the run -/

section Frames

variable (s) (sp ph : Nat)

theorem modPhase_frame (g : PhaseRun → PhaseRun) : s.modPhase sp ph g = { s with tr := (s.modPhase sp ph g).tr } := by
  unfold modPhase modStepRun
  split <;> rfl

theorem stampPhase_frame (d : PhaseDef) (edge k : Nat) : s.stampPhase d edge k = { s with tr := (s.stampPhase d edge k).tr } := by
  unfold stampPhase
  split <;> rfl

/-- The device once a phase has been stamped and is live. -/
def phaseBegun (d : PhaseDef) (k : Nat) : State :=
  (s.modPhase sp ph fun p => { p with live := true, since := s.now, todo := none, res := none }).stampPhase d 0 k

theorem phaseBegun_frame (d : PhaseDef) (k : Nat) : s.phaseBegun sp ph d k = { s with tr := (s.phaseBegun sp ph d k).tr } := by
  unfold phaseBegun
  rw [stampPhase_frame, modPhase_frame]

@[simp] theorem phaseBegun_prog (d : PhaseDef) (k h : Nat) : (s.phaseBegun sp ph d k).prog h = s.prog h := by
  rw [phaseBegun_frame]; rfl
@[simp] theorem phaseBegun_placeStands (d : PhaseDef) (k : Nat) (g : Prog) : (s.phaseBegun sp ph d k).placeStands g = s.placeStands g := by
  rw [phaseBegun_frame]; rfl
@[simp] theorem phaseBegun_stream? (d : PhaseDef) (k st : Nat) : (s.phaseBegun sp ph d k).stream? st = s.stream? st := by
  rw [phaseBegun_frame]; rfl
@[simp] theorem phaseBegun_gopFree (d : PhaseDef) (k t : Nat) : (s.phaseBegun sp ph d k).gopFree t = s.gopFree t := by
  rw [phaseBegun_frame]; rfl

theorem modStepRun_stepProg {x : StepProg} (here : s.stepProg sp = some x) (g : StepRun → StepRun) :
    (s.modStepRun sp g).stepProg sp = some { x with run := x.run.map g } := by
  rw [modStepRun, here]
  exact SMap.get?_put_same ..

@[simp] theorem longDone_stepProg (st status value pieces : Nat) : (s.longDone st status value pieces).stepProg sp = s.stepProg sp := by
  unfold longDone modStream
  split <;> rfl

/-- A run goes on or is over when one of its phases has ended. -/
theorem stepEnd_stepProg : (s.stepEnd sp).stepProg sp = s.stepProg sp ∨ ∃ x, (s.stepEnd sp).stepProg sp = some x ∧ x.run = none := by
  cases here : s.stepProg sp with
  | none => exact .inl (by simp only [stepEnd, here])
  | some x =>
    cases run : x.run with
    | none => exact .inl (by simp only [stepEnd, here, run])
    | some r =>
      simp only [stepEnd, here, run]
      split_ifs
      · exact .inl here
      · exact .inr ⟨_, (longDone_stepProg ..).trans (SMap.get?_put_same ..), rfl⟩

end Frames

/-- The first failure of a run stands for as long as the run goes on. -/
theorem phaseFail_first {x z : StepProg} {r u : StepRun} (here : s.stepProg sp = some x) (run : x.run = some r) (first : r.fail = none)
    {k status : Nat} (after : (s.phaseFail sp ph k status).stepProg sp = some z) (goes : z.run = some u) : u.fail = some (status, ph, k) := by
  rcases stepEnd_stepProg ((s.modStepRun sp fun r => { r with fail := r.fail.or (some (status, ph, k)) }).modPhase sp ph fun p =>
    { p with live := false }) sp with same | ⟨y, ends, ended⟩
  · have step := same.symm.trans after
    rw [modPhase, modStepRun_stepProg _ _ (modStepRun_stepProg s sp here _), run, Option.some_inj] at step
    rw [← step] at goes
    obtain rfl := Option.some_inj.mp goes
    exact congrArg (·.or (some (status, ph, k))) first
  · obtain rfl := Option.some_inj.mp (ends.symm.trans after)
    rw [ended] at goes
    cases goes

/-- A program phase is stopped by aborting its program. -/
theorem phaseKill_program (kind : d.kind = 0) : s.phaseKill sp ph d = s.stopProgram d.handle 7 := by
  simp only [phaseKill, kind]

/-! ## Without a step program nothing happens -/

section NoProgram

variable (none : s.stepProg sp = none)
include none

theorem phaseStart_no_program : s.phaseStart sp ph = s := by rw [phaseStart, none]

theorem phaseComplete_no_program : s.phaseComplete sp ph = s := by
  have fed : s.phaseFeed sp ph = s := by rw [phaseFeed, none]
  rw [phaseComplete, fed, none]

theorem phaseTimeout_no_program : s.phaseTimeout sp ph = s := by
  rw [phaseTimeout, phaseComplete_no_program none, none]

end NoProgram

section Phase

variable (here : s.stepProg sp = some x) (run : x.run = some r) (df : x.phases[ph]? = some d) (its : r.phases[ph]? = some p)

/-! ## A phase starts (R410) -/

section Start

include here run df

theorem phaseStart_not_ready (off : phaseReady x r ph = false ∨ ∃ j, j < ph ∧ phaseReady x r j = true) : s.phaseStart sp ph = s := by
  simp only [phaseStart, here, run, df]
  exact if_pos (by simpa using off)

variable (ready : phaseReady x r ph = true) (lowest : (List.range ph).any (phaseReady x r) = false)
include its ready lowest

theorem phaseStart_program (kind : d.kind = 0) {g : Prog} (known : s.prog d.handle = some g) :
    s.phaseStart sp ph = if [2, 5, 6, 7].contains g.st && s.placeStands g
      then (s.phaseBegun sp ph d p.next).startProg d.handle g (BitVec.ofNat 64 p.next)
      else (s.phaseBegun sp ph d p.next).phaseFail sp ph p.next St.badState := by
  rw [← phaseBegun_placeStands s sp ph d p.next]
  rw [← phaseBegun_prog s sp ph d p.next] at known
  unfold phaseBegun at known ⊢
  simp only [phaseStart, here, run, df, its, ready, lowest, kind, known, Bool.not_true, Bool.or_self, Bool.false_eq_true, if_false,
    Option.map_some, Option.getD_some]

theorem phaseStart_stream (kind : d.kind = 1) {y : Stream} (known : s.stream? d.stream = some y) :
    s.phaseStart sp ph = if y.owner != Owner.partner r.port || y.stopped || y.long.isSome
      then (s.phaseBegun sp ph d p.next).phaseFail sp ph p.next St.badState
      else ((s.phaseBegun sp ph d p.next).fetchNew (.phase sp ph) [(d.list, 64 * d.count)] 3 none).phaseFeed sp ph := by
  rw [← phaseBegun_stream? s sp ph d p.next] at known
  unfold phaseBegun at known ⊢
  simp only [phaseStart, here, run, df, its, ready, lowest, kind, known, Bool.not_true, Bool.or_self, Bool.false_eq_true, if_false,
    Option.map_some, Option.getD_some]

theorem phaseStart_gop (kind : d.kind = 2) : s.phaseStart sp ph = if s.gopFree d.tree
    then (s.phaseBegun sp ph d p.next).gopStart d.tree d.gkind 0 (some (phaseStream sp ph)) [] 0
    else (s.phaseBegun sp ph d p.next).phaseFail sp ph p.next St.badState := by
  rw [← phaseBegun_gopFree s sp ph d p.next]
  unfold phaseBegun
  simp only [phaseStart, here, run, df, its, ready, lowest, kind, Bool.not_true, Bool.or_self, Bool.false_eq_true, if_false,
    Option.map_some, Option.getD_some]

end Start

/-! ## A phase completes or fails (R410, R411) -/

section Complete

include here run df its

theorem phaseFeed_other (other : d.kind ≠ 1 ∨ p.live = false) : s.phaseFeed sp ph = s := by
  simp only [phaseFeed, here, run, df, its, Option.bind_some]
  exact if_pos (by simpa using other)

theorem phaseFeed_posted (posted : p.todo = some []) : s.phaseFeed sp ph = s := by
  simp only [phaseFeed, here, run, df, its, Option.bind_some, posted, List.length_nil, postPhase, ite_self]

theorem phaseComplete_idle (idle : p.live = false) : s.phaseComplete sp ph = s := by
  simp only [phaseComplete, phaseFeed_other here run df its (.inr idle), here, run, df, its, Option.bind_some, idle, Bool.not_false, if_true]

section Live

variable (live : p.live = true)
include live

theorem phaseComplete_program (kind : d.kind = 0) {g : Prog} (known : s.prog d.handle = some g) (sound : g.st ≠ 6) :
    s.phaseComplete sp ph =
      if g.st = 5 then s.phaseDone sp ph p.next d else if g.st = 7 then s.phaseFail sp ph p.next St.aborted else s := by
  have fed := phaseFeed_other here run df its (.inl (by omega))
  simp only [phaseComplete, fed, here, run, df, its, Option.bind_some, live, kind, known, sound, Bool.not_true, Bool.false_eq_true, if_false]

theorem phaseComplete_stream (kind : d.kind = 1) (posted : p.todo = some []) {y : Stream} (known : s.stream? d.stream = some y) :
    s.phaseComplete sp ph =
      if y.stopped then s.phaseFail sp ph p.next y.last else if Stream.idle y then s.phaseDone sp ph p.next d else s := by
  simp only [phaseComplete, phaseFeed_posted here run df its posted, here, run, df, its, Option.bind_some, live, kind, known, posted,
    Bool.not_true, Bool.false_eq_true, if_false, beq_self_eq_true, Bool.true_and]

theorem phaseComplete_gop_runs (kind : d.kind = 2) (res : p.res = none) : s.phaseComplete sp ph = s := by
  have fed := phaseFeed_other here run df its (.inl (by omega))
  simp only [phaseComplete, fed, here, run, df, its, Option.bind_some, live, kind, res, Bool.not_true, Bool.false_eq_true, if_false]

theorem phaseComplete_gop_ended (kind : d.kind = 2) {e : Nat} (res : p.res = some e) :
    s.phaseComplete sp ph = if e = St.ok then s.phaseDone sp ph p.next d else s.phaseFail sp ph p.next e := by
  have fed := phaseFeed_other here run df its (.inl (by omega))
  simp only [phaseComplete, fed, here, run, df, its, Option.bind_some, live, kind, res, Bool.not_true, Bool.false_eq_true, if_false]

end Live

/-! ## The timeout of a phase (R411) -/

theorem phaseTimeout_off (goes : s.phaseComplete sp ph = s) (off : p.live = false ∨ d.tmo = 0 ∨ s.now < p.since + d.tmo * 2400) :
    s.phaseTimeout sp ph = s := by
  simp only [phaseTimeout, goes, here, run, df, its, Option.bind_some]
  exact if_pos (by simpa [or_assoc] using off)

/-- The work of a phase that is still live at its timeout is stopped, and the phase fails. -/
theorem phaseTimeout_due (goes : s.phaseComplete sp ph = s) (live : p.live = true) (limited : d.tmo ≠ 0)
    (due : p.since + d.tmo * 2400 ≤ s.now) : s.phaseTimeout sp ph = (s.phaseKill sp ph d).phaseFail sp ph p.next St.timeout := by
  simp only [phaseTimeout, goes, here, run, df, its, Option.bind_some]
  exact if_neg (by simpa [live] using ⟨limited, due⟩)

end Complete

end Phase

end State

section Exec

variable (s : State) (sp ph : Nat)

theorem exec_phaseStart : exec (.phaseStart sp ph) s = .next (s.phaseStart sp ph) := rfl
theorem exec_phaseComplete : exec (.phaseComplete sp ph) s = .next (s.phaseComplete sp ph) := rfl
theorem exec_phaseTimeout : exec (.phaseTimeout sp ph) s = .next (s.phaseTimeout sp ph) := rfl

end Exec

/-- Settles O50: a phase that starts is stamped and live (`State.phaseBegun`), and what follows is an equation for each kind of its work; a run
that goes on keeps its first failure (`State.phaseFail_first`). -/
theorem phasesStartCompleteAndTimeOut : Obligations.PhasesStartCompleteAndTimeOut := by
  intro s sp ph
  simp only [exec_phaseStart, exec_phaseComplete, exec_phaseTimeout]
  refine ⟨fun none => ?noProgram, fun x r d p here run df its => ⟨fun off => ?notReady, fun ready first => ?starts, fun idle => ?idle,
    fun live kind g known => ?program, fun live kind => ?gop, fun live kind y posted known => ?stream,
    fun k e first _ z u after goes => State.phaseFail_first here run first after goes⟩⟩
  case noProgram =>
    rw [State.phaseStart_no_program none, State.phaseComplete_no_program none, State.phaseTimeout_no_program none]
    exact ⟨rfl, rfl, rfl⟩
  case notReady => rw [State.phaseStart_not_ready here run df off]
  case starts =>
    have lowest : (List.range ph).any (State.phaseReady x r) = false := by simpa using first
    refine ⟨fun kind g known startable stands => ?_, fun kind g known other => ?_, fun kind y known owner going short => ?_,
      fun kind y known stopped => ?_, fun kind free => ?_, fun kind busy => ?_⟩
    · rw [State.phaseStart_program here run df its ready lowest kind known, if_pos (by simp [startable, stands])]
      rfl
    · rw [State.phaseStart_program here run df its ready lowest kind known, if_neg (by simp [other])]
      rfl
    · rw [State.phaseStart_stream here run df its ready lowest kind known, if_neg (by simp [owner, going, short])]
      rfl
    · rw [State.phaseStart_stream here run df its ready lowest kind known, if_pos (by simp [stopped])]
      rfl
    · rw [State.phaseStart_gop here run df its ready lowest kind, if_pos free]
      rfl
    · rw [State.phaseStart_gop here run df its ready lowest kind, if_neg (by simp [busy])]
      rfl
  case idle =>
    have rests := State.phaseComplete_idle here run df its idle
    rw [rests, State.phaseTimeout_off here run df its rests (.inl idle)]
    exact ⟨rfl, rfl⟩
  case program =>
    have completes := State.phaseComplete_program here run df its live kind known
    have goes (halted : g.st ≠ 5) (faulted : g.st ≠ 6) (aborted : g.st ≠ 7) : s.phaseComplete sp ph = s := by
      rw [completes faulted, if_neg halted, if_neg aborted]
    refine ⟨fun halted => ?_, fun aborted => ?_, fun halted faulted aborted => ?_, fun halted faulted aborted limited due => ?_,
      fun halted faulted aborted off => ?_⟩
    · rw [completes (by omega), if_pos halted]
    · rw [completes (by omega), if_neg (by omega), if_pos aborted]
    · rw [goes halted faulted aborted]
    · rw [State.phaseTimeout_due here run df its (goes halted faulted aborted) live limited due, State.phaseKill_program kind]
    · rw [State.phaseTimeout_off here run df its (goes halted faulted aborted) (.inr off)]
  case gop =>
    refine ⟨fun res => ?_, fun res => ?_, fun e res bad => ?_⟩
    · rw [State.phaseComplete_gop_runs here run df its live kind res]
    · rw [State.phaseComplete_gop_ended here run df its live kind res, if_pos rfl]
    · rw [State.phaseComplete_gop_ended here run df its live kind res, if_neg bad]
  case stream =>
    rw [State.phaseComplete_stream here run df its live kind posted known]
    refine ⟨fun stopped => ?_, fun going idle => ?_, fun going busy => ?_⟩
    · rw [if_pos stopped]
    · rw [if_neg (by simp [going]), if_pos idle]
    · rw [if_neg (by simp [going]), if_neg (by simp [busy])]

end Sys2Proof.Machine

/-! # The phase-timer block: stamps, records and stragglers (R413 to R415) -/

namespace Sys2Proof.Machine

namespace State

variable {s : State}

/-! ## Records (R413, R414) -/

@[simp] theorem phId_setPhId_same (s : State) (n : Nat) (x : PhId) : (s.setPhId n x).phId n = x := by
  rw [phId, SMap.getD, setPhId, SMap.get?_put_same, Option.getD_some]

theorem logRecord_keeps (s : State) (bs : List Byte) : (s.logRecord bs).tr.phids = s.tr.phids ∧ (s.logRecord bs).tr.late = s.tr.late := by
  unfold logRecord
  dsimp only
  split
  · exact ⟨rfl, rfl⟩
  · exact ⟨rfl, rfl⟩

@[simp] theorem logRecord_phId (s : State) (bs : List Byte) (n : Nat) : (s.logRecord bs).phId n = s.phId n := by
  rw [phId, phId, (logRecord_keeps s bs).1]

/-- The record that is logged is open no more, and its step is the last one logged. -/
@[simp] theorem closeRecord_phId (s : State) (n : Nat) (x : PhId) (r : PhRec) (incomplete : Bool) :
    (s.closeRecord n x r incomplete).phId n = { x with rcd := none, logged := some r.step } := phId_setPhId_same ..

@[simp] theorem take_step (r : PhRec) (m : Stamp) : (PhRec.take r m).step = r.step := by
  unfold PhRec.take
  dsimp only
  split <;> rfl

/-! ## A stamp arrives (R413, R414) -/

section Stamps

variable {m : Stamp} {r : PhRec}

/-- The record that the stamp falls into stays open while end stamps are missing. -/
theorem stampInto_open (few : (PhRec.take r m).nend < (s.phId m.phid).expect) :
    s.stampInto m r = s.setPhId m.phid { s.phId m.phid with rcd := some (PhRec.take r m) } := if_neg (by omega)

/-- The last end stamp logs the record. -/
theorem stampInto_last (all : (s.phId m.phid).expect ≤ (PhRec.take r m).nend) :
    s.stampInto m r = s.closeRecord m.phid (s.phId m.phid) (PhRec.take r m) false := if_pos all

/-- A mark is logged, and leaves the records of its identifier and the count of late stamps as they are. -/
theorem applyStamp_mark (mark : m.edge = 2) :
    (s.applyStamp m).phId m.phid = s.phId m.phid ∧ (s.applyStamp m).tr.late = s.tr.late := by
  rw [applyStamp, if_pos mark]
  exact ⟨logRecord_phId .., (logRecord_keeps ..).2⟩

variable (bound : m.edge ≠ 2)
include bound

section Open

variable (rcd : (s.phId m.phid).rcd = some r)
include rcd

theorem applyStamp_earlier (late : m.step.toNat < r.step.toNat) : s.applyStamp m = s.stampLate := by
  simp only [applyStamp, if_neg bound, rcd, if_pos late]

theorem applyStamp_same (same : m.step = r.step) : s.applyStamp m = s.stampInto m r := by
  simp only [applyStamp, if_neg bound, rcd, same, lt_irrefl, if_false, if_true]

/-- A stamp of a later step logs the open record as incomplete, and a new one takes it. -/
theorem applyStamp_later (later : r.step.toNat < m.step.toNat) :
    s.applyStamp m = (s.closeRecord m.phid (s.phId m.phid) r true).stampInto m (PhRec.new m.step) := by
  have other : m.step ≠ r.step := fun same => by rw [same] at later; exact lt_irrefl _ later
  simp only [applyStamp, if_neg bound, rcd, if_neg later.asymm, if_neg other]

end Open

section Closed

variable (rcd : (s.phId m.phid).rcd = none)
include rcd

theorem applyStamp_logged {l : W64} (logged : (s.phId m.phid).logged = some l) (late : m.step.toNat ≤ l.toNat) :
    s.applyStamp m = s.stampLate := by
  simp only [applyStamp, if_neg bound, rcd, logged, if_pos late]

theorem applyStamp_new (new : ∀ l, (s.phId m.phid).logged = some l → l.toNat < m.step.toNat) :
    s.applyStamp m = s.stampInto m (PhRec.new m.step) := by
  simp only [applyStamp, if_neg bound, rcd]
  cases logged : (s.phId m.phid).logged with
  | none => rfl
  | some l => exact if_neg (Nat.not_le.mpr (new l logged))

end Closed

end Stamps

/-- What is left when a stamp has been taken from those under way. -/
def stampGone (s : State) (ix : Nat) : State := { s with tr := { s.tr with stamps := s.tr.stamps.eraseIdx ix } }

theorem phaseStamp_none {ix : Nat} (none : s.tr.stamps[ix]? = none) : s.phaseStamp ix = s := by
  rw [phaseStamp, none]

theorem phaseStamp_arrives {ix : Nat} {m : Stamp} (comes : s.tr.stamps[ix]? = some m) : s.phaseStamp ix = (s.stampGone ix).applyStamp m := by
  rw [phaseStamp, comes]
  rfl

/-! ## Stragglers (R415) -/

section Straggler

variable {n : Nat} {r : PhRec}

theorem straggler_no_record (rcd : (s.phId n).rcd = none) : s.straggler n = s := by
  simp only [straggler, rcd]

theorem straggler_not (rcd : (s.phId n).rcd = some r) (off : (s.phId n).thr = 0 ∨ r.nbegin = 0 ∨ r.strag = true ∨
    s.ftime.toNat < r.first.toNat + (s.phId n).thr.toNat) : s.straggler n = s := by
  simp only [straggler, rcd]
  exact if_pos (by simpa [or_assoc] using off)

/-- The record is marked, and the block reports it. -/
def stragglerFound (s : State) (n : Nat) (r : PhRec) : State :=
  let t := s.setPhId n { s.phId n with rcd := some { r with strag := true } }
  { t with tr := { t.tr with evtStrag := true, lastPhid := BitVec.ofNat 8 n, lastStep := r.step.setWidth 24 } }

theorem straggler_found (rcd : (s.phId n).rcd = some r) (watched : (s.phId n).thr ≠ 0) (begun : r.nbegin ≠ 0) (new : r.strag = false)
    (due : r.first.toNat + (s.phId n).thr.toNat ≤ s.ftime.toNat) :
    s.straggler n = (s.stragglerFound n r).event 4 0 (BitVec.ofNat 64 n) r.step := by
  simp only [straggler, rcd]
  exact if_neg (by simpa [begun, new] using ⟨watched, due⟩)

@[simp] theorem event_phId (cls st : Nat) (v w : W64) (n : Nat) : (s.event cls st v w).phId n = s.phId n := by
  rw [phId, phId, event_tr]

theorem stragglerFound_phId (s : State) (n : Nat) (r : PhRec) :
    (s.stragglerFound n r).phId n = { s.phId n with rcd := some { r with strag := true } } := phId_setPhId_same ..

end Straggler

end State

section Exec

variable (s : State)

theorem exec_phaseStamp (ix : Nat) : exec (.phaseStamp ix) s = .next (s.phaseStamp ix) := rfl
theorem exec_straggler (n : Nat) : exec (.straggler n) s = .next (s.straggler n) := rfl

end Exec

/-- Settles O51: a stamp by the step of the open record or of the last one logged (`State.applyStamp_same` and its neighbours); a straggler
is marked, so it is found once. -/
theorem stampsMakeRecordsAndStragglers : Obligations.StampsMakeRecordsAndStragglers := by
  refine ⟨fun s ix none => ?none, fun s ix m comes => ?arrives, fun s n =>
    ⟨fun r rcd => ⟨fun off => ?notStraggling, fun watched begun new due => ?straggles⟩, fun rcd => ?noRecord⟩⟩
  case none => rw [exec_phaseStamp, State.phaseStamp_none none]
  case arrives =>
    rw [exec_phaseStamp, State.phaseStamp_arrives comes]
    refine ⟨fun mark => ?mark, fun bound rcd ⟨l, logged, late⟩ => ?logged, fun bound r rcd late => ?earlier, fun bound r rcd same few => ?joins,
      fun bound r rcd same all => ?completes, fun bound rcd new few => ?opens, fun bound r rcd later => ?later⟩
    case mark => exact ⟨_, rfl, State.applyStamp_mark mark⟩
    case logged => exact congrArg Host.Outcome.next (State.applyStamp_logged bound rcd logged late)
    case earlier => exact congrArg Host.Outcome.next (State.applyStamp_earlier bound rcd late)
    case joins =>
      rw [State.applyStamp_same (s := s.stampGone ix) bound rcd same, State.stampInto_open (s := s.stampGone ix) few]
      rfl
    case completes =>
      rw [State.applyStamp_same (s := s.stampGone ix) bound rcd same, State.stampInto_last (s := s.stampGone ix) all]
      refine ⟨_, rfl, ?_⟩
      rw [State.closeRecord_phId, State.take_step]
      rfl
    case opens =>
      rw [State.applyStamp_new (s := s.stampGone ix) bound rcd new, State.stampInto_open (s := s.stampGone ix) few]
      rfl
    case later =>
      rw [State.applyStamp_later (s := s.stampGone ix) bound rcd later]
      refine ⟨_, rfl, fun few => ?_, fun all => ?_⟩
      · rw [State.stampInto_open (by rwa [State.closeRecord_phId]), State.phId_setPhId_same, State.closeRecord_phId]
        rfl
      · rw [State.stampInto_last (by rwa [State.closeRecord_phId]), State.closeRecord_phId, State.closeRecord_phId, State.take_step]
        rfl
  case notStraggling => rw [exec_straggler, State.straggler_not rcd off]
  case straggles =>
    have marked : ((s.stragglerFound n r).event 4 0 (BitVec.ofNat 64 n) r.step).phId n =
        { s.phId n with rcd := some { r with strag := true } } := by
      rw [State.event_phId, State.stragglerFound_phId]
    have again : exec (.straggler n) ((s.stragglerFound n r).event 4 0 (BitVec.ofNat 64 n) r.step) = .next _ :=
      congrArg Host.Outcome.next (State.straggler_not (by rw [marked]) (.inr (.inr (.inl rfl))))
    refine ⟨_, congrArg Host.Outcome.next (State.straggler_found rcd watched begun new due), by rw [marked], ?_⟩
    rw [State.event_tr]
    exact ⟨rfl, rfl, rfl, again⟩
  case noRecord => rw [exec_straggler, State.straggler_no_record rcd]

end Sys2Proof.Machine

/-! # The host's windows on the address space (R421 to R433) -/

namespace Sys2Proof.Machine

/-- Entries listed at rising indices stand in the order they came in. -/
theorem SMap.put_last {α : Type} {m : SMap α} {k : Nat} (v : α) (last : ∀ p ∈ m, p.1 < k) : SMap.put m k v = m ++ [(k, v)] := by
  induction m with
  | nil => rfl
  | cons p m ih =>
    have behind : p.1 < k := last p List.mem_cons_self
    rw [SMap.put, if_neg (by omega), if_neg (by omega), ih fun q hq => last q (List.mem_cons_of_mem p hq)]
    rfl

/-- The bytes of a read, listed by their addresses, are the bytes of the read. -/
theorem SMap.values_foldl_put (bs : List (Byte × Bool)) (a i : Nat) (m : SMap Byte) (below : ∀ p ∈ m, p.1 < a + i) :
    ((bs.zipIdx i).foldl (fun m (x : (Byte × Bool) × Nat) => SMap.put m (a + x.2) x.1.1) m).map (·.2) =
      m.map (·.2) ++ bs.map (·.1) := by
  induction bs generalizing i m with
  | nil => simp
  | cons b bs ih =>
    have rising : ∀ p ∈ m ++ [(a + i, b.1)], p.1 < a + (i + 1) := by
      intro p hp
      rcases List.mem_append.mp hp with old | new
      · exact lt_trans (below p old) (by omega)
      · rw [List.mem_singleton.mp new]
        exact Nat.lt_succ_self _
    rw [List.zipIdx_cons, List.foldl_cons, SMap.put_last _ below, ih _ _ rising]
    simp

namespace Memory

/-- A write of unpoisoned bytes stores them. -/
theorem read_storeP_clean (m : Memory) (a : Nat) (bs : List Byte) :
    (m.storeP a (bs.map fun b => (b, false))).read a bs.length = bs := by
  refine List.ext_getElem (by simp [read]) fun i _ inside => ?_
  simp only [read, List.getElem_map, List.getElem_range]
  rw [byte_storeP_inside _ _ _ _ (by simpa using inside), List.getElem_map]

end Memory

theorem gloc_mod_block (g : Nat) : gloc g % 256 = g % 256 := Nat.mod_mod_of_dvd g (by decide)

namespace State

/-! ## Accesses to memory of this device within one block (R28, R345) -/

theorem blocksOf_zero (k a : Nat) : blocksOf k a 0 = [] := by cases k <;> rfl

theorem pieces_one_block {a n : Nat} (some' : 0 < n) (block : a % 256 + n ≤ 256) : pieces a n = [(a, n)] := by
  have whole : min n (256 - a % 256) = n := by omega
  rw [pieces, blocksOf, if_neg (by omega)]
  simp only [whole, Nat.sub_self, blocksOf_zero]

variable {s : State} {g n : Nat} {bs : List Byte}

theorem unmappedHere_memory (some' : 0 < n) (block : gloc g % 256 + n ≤ 256) (memory : s.site (gloc g) n = .mem) :
    s.unmappedHere g n = false := by
  simp [unmappedHere, pieces_one_block some' block, memory]

section Read

variable (memory : s.site (gloc g) n = .mem) (valid : gvalid g = true) (here : gdev g = s.fab.devnum) (up : s.mcDown (gloc g) = false)
include memory valid here up

theorem gReadPiece_memory (vl : Nat) (prog : Option Nat) (cont : Cont) :
    s.gReadPiece g n vl prog cont = (.data (s.mem.readP (gloc g) n), s) := by
  have piece : s.readPiece (gloc g) n = (St.ok, s.mem.readP (gloc g) n) := by simp [readPiece, memory, up]
  simp [gReadPiece, valid, here, piece]

/-- A read of memory of this device within one block completes at once. -/
theorem hostRead_memory (some' : 0 < n) (block : gloc g % 256 + n ≤ 256) (w : Win) : s.hostRead w g n =
    cplData { s with fresh := s.fresh + 1 } s.fresh (s.mem.read (gloc g) n) ((s.mem.readP (gloc g) n).any (·.2)) := by
  have mapped : unmappedHere { s with fresh := s.fresh + 1 } g n = false := unmappedHere_memory some' block memory
  have one : pieces g n = [(g, n)] := pieces_one_block some' (gloc_mod_block g ▸ block)
  have sent : gReadPiece { s with fresh := s.fresh + 1 } g n 3 none (.host s.fresh) =
      (.data (s.mem.readP (gloc g) n), { s with fresh := s.fresh + 1 }) :=
    gReadPiece_memory (s := { s with fresh := s.fresh + 1 }) memory valid here up _ _ _
  have values := SMap.values_foldl_put (s.mem.readP (gloc g) n) g 0 [] (fun p hp => nomatch hp)
  simp only [hostRead, uid, mapped, one, List.foldl_cons, List.foldl_nil, sent, values, Memory.map_fst_readP, Bool.false_eq_true, if_false,
    if_true, Bool.false_or, List.map_nil, List.nil_append]

end Read

section Write

variable (some' : 0 < bs.length) (block : gloc g % 256 + bs.length ≤ 256) (memory : s.site (gloc g) bs.length = .mem)
  (valid : gvalid g = true) (here : gdev g = s.fab.devnum) (up : s.mcDown (gloc g) = false)
  (apart : s.inRegion (gloc g) bs.length = false) (thawed : s.inFrozen (gloc g) bs.length = false)
include some' block memory valid here up apart thawed

theorem gWrite_memory (vl : Nat) (prog : Option Nat) (cont : Cont) : s.gWrite g (bs.map fun b => (b, false)) vl prog cont =
    (St.ok, 0, { s with mem := s.mem.storeP (gloc g) (bs.map fun b => (b, false)) }) := by
  have one : pieces g bs.length = [(g, bs.length)] := pieces_one_block some' (gloc_mod_block g ▸ block)
  have piece : s.writePiece (gloc g) (bs.map fun b => (b, false)) =
      (St.ok, { s with mem := s.mem.storeP (gloc g) (bs.map fun b => (b, false)) }) := by
    simp [writePiece, memory, up, apart, thawed]
  have all : (bs.map fun b => (b, false)).take bs.length = bs.map fun b => (b, false) := List.take_of_length_le (by simp)
  simp [gWrite, one, gWritePiece, all, valid, here, piece]

/-- A posted write to memory of this device within one block is done at once. -/
theorem hostWrite_memory (w : Win) : s.hostWrite w g bs =
    { s with fresh := s.fresh + 1, mem := s.mem.storeP (gloc g) (bs.map fun b => (b, false)) } := by
  have written := gWrite_memory (s := { s with fresh := s.fresh + 1 }) some' block memory valid here up apart thawed 3 none (.host s.fresh)
  simp only [hostWrite, uid, written, if_true]

end Write

/-! ## The Plaza window (R426, R433) -/

theorem portTakes_iff {off top most : Nat} :
    s.portTakes off n top most = true ↔ s.hp.link = 2 ∧ off + n ≤ top ∧ n ≤ most ∧ n ≠ 0 := by
  simp [portTakes, and_assoc]

/-- Bytes posted through the Plaza window are counted for its flush reads. -/
def plazaPosted (s : State) (k : Nat) : State :=
  s.setPosts .plaza { s.posts .plaza with bytes := (s.posts .plaza).bytes + BitVec.ofNat 64 k }

section Plaza

variable {off : Nat}

theorem plazaRead_taken (takes : s.portTakes off n bar2Size 4096 = true) :
    s.plazaRead off n = s.touch.hostRead .plaza (s.hp.pzBase.toNat + off) n := if_neg (by simp [takes])

theorem plazaWrite_taken (takes : s.portTakes off bs.length bar2Size 512 = true)
    (mapped : s.touch.unmappedHere (s.hp.pzBase.toNat + off) bs.length = false) : s.plazaWrite off bs =
      (s.touch.plazaPosted bs.length).hostWrite .plaza (s.hp.pzBase.toNat + off) bs :=
  (if_neg (by simp [takes])).trans (if_neg (Bool.eq_false_iff.mp mapped))

end Plaza

/-! ## The placement aperture (R430, R431) -/

section Aperture

variable {off : Nat} {k : Nat} {r : Rg} {rid : BitVec 16}

theorem rgFor_inside (at' : s.rgAt off = some (k, r)) (inside : off + n ≤ r.aper + r.size) (low : off + n ≤ flushPage) :
    s.rgFor off n = some (k, r) := by
  rw [rgFor, at']
  exact if_pos (by simp [inside, low])

theorem rgFor_outside (outside : s.rgAt off = none) : s.rgFor off n = none := by rw [rgFor, outside]

section Read

variable (takes : s.portTakes off n bar4Size 4096 = true) (low : off < flushPage)
include takes low

theorem apertureRead_granted (region : s.rgFor off n = some (k, r)) (granted : Rg.grants r rid 0 = true) :
    s.apertureRead rid off n = s.touch.hostRead (.region k) (r.target.toNat + (off - r.aper)) n := by
  have region' : s.touch.rgFor off n = some (k, r) := region
  refine (if_neg (by simp [takes])).trans ((if_neg (by simp; omega)).trans ?_)
  rw [region']
  exact if_pos granted

theorem apertureRead_denied (region : s.rgFor off n = some (k, r)) (denied : Rg.grants r rid 0 = false) :
    s.apertureRead rid off n = (((s.touch.violate 1 off rid).uid).2).cplBad s.fresh 4
      (s.logAddr (r.target.toNat + (off - r.aper))) 0 := by
  have region' : s.touch.rgFor off n = some (k, r) := region
  refine (if_neg (by simp [takes])).trans ((if_neg (by simp; omega)).trans ?_)
  rw [region']
  exact if_neg (Bool.eq_false_iff.mp denied)

theorem apertureRead_outside (outside : s.rgAt off = none) :
    s.apertureRead rid off n = (((s.touch.violate 0 off rid).uid).2).cplBad s.fresh 1 0 0 := by
  have outside' : s.touch.rgFor off n = none := rgFor_outside outside
  refine (if_neg (by simp [takes])).trans ((if_neg (by simp; omega)).trans ?_)
  rw [outside']
  rfl

end Read

section Write

variable (takes : s.portTakes off bs.length bar4Size 512 = true)
include takes

theorem apertureWrite_granted (region : s.rgFor off bs.length = some (k, r)) (granted : Rg.grants r rid 1 = true)
    (mapped : s.unmappedHere (r.target.toNat + (off - r.aper)) bs.length = false) : s.apertureWrite rid off bs =
      (s.touch.setPosts (.region k) { s.posts (.region k) with
        bytes := (s.posts (.region k)).bytes + BitVec.ofNat 64 bs.length }).hostWrite (.region k) (r.target.toNat + (off - r.aper)) bs := by
  have region' : s.touch.rgFor off bs.length = some (k, r) := region
  refine (if_neg (by simp [takes])).trans ?_
  dsimp only
  rw [region']
  exact (if_neg (by simp [granted])).trans (if_neg (Bool.eq_false_iff.mp mapped))

theorem apertureWrite_denied (region : s.rgFor off bs.length = some (k, r)) (denied : Rg.grants r rid 1 = false) :
    s.apertureWrite rid off bs = ((s.touch.uid.2.violate 1 off rid).wrDisc).postFailed (.region k) s.fresh := by
  have region' : s.touch.rgFor off bs.length = some (k, r) := region
  refine (if_neg (by simp [takes])).trans ?_
  dsimp only
  rw [region']
  exact if_pos (by simp [denied])

theorem apertureWrite_outside (outside : s.rgAt off = none) :
    s.apertureWrite rid off bs = (s.touch.violate 0 off rid).wrDisc := by
  have outside' : s.touch.rgFor off bs.length = none := rgFor_outside outside
  refine (if_neg (by simp [takes])).trans ?_
  dsimp only
  rw [outside']
  rfl

end Write

end Aperture

/-! ## What a refused access leaves (R424, R430) -/

section Refused

variable (s) (id : Nat) (addr : W64) (status : Nat)

theorem cplBad_hp (code : Nat) : (s.cplBad id code addr status).hp = if code = 1 then { s.hp with ur := s.hp.ur + 1, err := s.hp.err ||| 1 }
    else { s.hp with ca := s.hp.ca + 1, err := s.hp.err ||| 2 } := by
  rw [cplBad, emit_hp, logErr, logErrSev_hp]

theorem cplBad_mem (code : Nat) : (s.cplBad id code addr status).mem = s.mem := by
  rw [cplBad, emit_mem, logErr, logErrSev_mem]

theorem violate_viol {bit : Nat} (h : bit < 3) (off : Nat) (rid : BitVec 16) : (s.violate bit off rid).hp.viol.getLsbD bit = true := by
  interval_cases bit <;> simp [violate]

/-- A posted write that fails changes only the requests that wait for it and the posts of its window. -/
theorem postFailed_eq (w : Win) : ∃ reqs pz rgPosts, s.postFailed w id =
    { s with hp := { s.hp with reqs := reqs, pz := pz, rgPosts := rgPosts } } := by
  simp only [postFailed]
  split
  · exact ⟨_, _, _, rfl⟩
  · cases w <;> exact ⟨_, _, _, rfl⟩

end Refused

end State

section Exec

variable (s : State) (off n : Nat) (bs : List Byte) (rid : BitVec 16)

theorem exec_plazaRead : exec (.plazaRead off n) s = .next (s.plazaRead off n) := rfl
theorem exec_plazaWrite : exec (.plazaWrite off bs) s = .next (s.plazaWrite off bs) := rfl
theorem exec_apertureRead : exec (.apertureRead rid off n) s = .next (s.apertureRead rid off n) := rfl
theorem exec_apertureWrite : exec (.apertureWrite rid off bs) s = .next (s.apertureWrite rid off bs) := rfl

end Exec

/-- Settles O25: an access the port takes is served at the address its window gives it (`State.hostRead_memory`, `State.hostWrite_memory`),
or ends as a violation of the aperture (`State.cplBad_hp`, `State.postFailed_eq`). -/
theorem hostWindowsReachTheAddressSpace : Obligations.HostWindowsReachTheAddressSpace := by
  intro s off n bs rid linked
  refine ⟨fun some' fits size valid here block memory up => ?plazaRead,
    fun some' fits size valid here block memory up apart thawed => ?plazaWrite,
    fun some' fits size => ?apertureRead, fun some' fits size => ?apertureWrite⟩
  case plazaRead =>
    rw [exec_plazaRead, State.plazaRead_taken (State.portTakes_iff.mpr ⟨linked, fits, size, by omega⟩),
      State.hostRead_memory (s := s.touch) memory valid here up some' block]
    rfl
  case plazaWrite =>
    rw [exec_plazaWrite, State.plazaWrite_taken (State.portTakes_iff.mpr ⟨linked, fits, size, by omega⟩)
        (State.unmappedHere_memory (s := s.touch) some' block memory),
      State.hostWrite_memory (s := s.touch.plazaPosted bs.length) some' block memory valid here up apart thawed]
    exact ⟨_, rfl, Memory.read_storeP_clean .., fun b outside => Memory.byte_storeP_outside _ _ _ _ (by simpa using outside), rfl, rfl⟩
  case apertureRead =>
    have takes : s.portTakes off n bar4Size 4096 = true :=
      State.portTakes_iff.mpr ⟨linked, le_trans fits (by decide), size, by omega⟩
    have low : off < flushPage := lt_of_lt_of_le (by omega) fits
    rw [exec_apertureRead]
    refine ⟨fun k r at' inside top granted => ?granted, fun k r at' inside top denied => ?denied, fun outside => ?outside⟩
    case granted => rw [State.apertureRead_granted takes low (State.rgFor_inside at' inside top) granted]
    case denied =>
      rw [State.apertureRead_denied takes low (State.rgFor_inside at' inside top) denied]
      refine ⟨_, rfl, ?_⟩
      rw [State.cplBad_hp, State.cplBad_mem]
      exact ⟨State.violate_viol s.touch (by decide) off rid, rfl, rfl, rfl, rfl⟩
    case outside =>
      rw [State.apertureRead_outside takes low outside]
      refine ⟨_, rfl, ?_⟩
      rw [State.cplBad_hp, State.cplBad_mem]
      exact ⟨State.violate_viol s.touch (by decide) off rid, rfl, rfl, rfl, rfl⟩
  case apertureWrite =>
    have takes : s.portTakes off bs.length bar4Size 512 = true := State.portTakes_iff.mpr ⟨linked, fits, size, by omega⟩
    rw [exec_apertureWrite]
    refine ⟨fun k r at' inside top granted mapped => ?granted, fun k r at' inside top denied => ?denied, fun outside => ?outside⟩
    case granted => rw [State.apertureWrite_granted takes (State.rgFor_inside at' inside top) granted mapped]
    case denied =>
      rw [State.apertureWrite_denied takes (State.rgFor_inside at' inside top) denied]
      obtain ⟨reqs, pz, rgPosts, failed⟩ := State.postFailed_eq ((s.touch.uid.2.violate 1 off rid).wrDisc) s.fresh (.region k)
      rw [failed]
      exact ⟨_, rfl, State.violate_viol s.touch.uid.2 (by decide) off rid, rfl, rfl⟩
    case outside =>
      rw [State.apertureWrite_outside takes outside]
      exact ⟨_, rfl, State.violate_viol s.touch (by decide) off rid, rfl, rfl⟩

end Sys2Proof.Machine

/-! # Commands of the mailboxes (R441, R444, R493, R497) -/

namespace Sys2Proof.Machine

namespace State

variable {t : State} {op : Nat} {m : MbxCmd}

/-- A mailbox that takes a command answers it with what the command does. -/
theorem go_taken (takes : Takes t m.port op) (run : State → Ans × State) : t.go op m run = answered op m (run t) := by
  obtain ⟨idle, seen, served, awake⟩ := takes
  refine (if_neg (by simp [idle, seen])).trans ((if_neg ?held).trans ((if_neg ?waits).trans ?answer))
  case held => rcases served with free | its | its <;> simp [*]
  case waits => rcases awake with none | abort <;> simp [*]
  case answer => rcases run t with ⟨_ | _ | _, u⟩ <;> rfl

/-- GO is ignored but for OVR while a command is in flight or its answer has not been seen. -/
theorem go_occupied (occupied : (t.box m.port).busy.isSome = true ∨ (t.box m.port).done = true) (run : State → Ans × State) :
    t.go op m run = t.setBox m.port { t.box m.port with ovr := true } := if_pos (by simpa using occupied)

theorem runCmd_admitted {k : Cmd} {session : Bool} (admits : t.admits k m session = none) (fields : fieldsBad k m = none) :
    t.runCmd k m session = k.run m t := by
  simp only [runCmd, admits, fields]

theorem issueCmd_eq_go (s : State) (k : Cmd) (m : MbxCmd) :
    s.issueCmd k m = (s.taken m.port).go k.op m fun t => t.runCmd k m t.session? := rfl

theorem unassigned_eq_go {s : State} (none : cmdOf op true m = none) :
    s.unassigned op m = (s.taken m.port).go op m fun t => (.refuse St.badOpcode, t) := if_neg (by simp [none])

end State

/-- Every row of `mboxRow` issues its command. -/
theorem exec_of_mboxRow {i : Instr} {k : Cmd} {m : MbxCmd} (row : mboxRow i = some (k, m)) (s : State) :
    exec i s = .next (s.issueCmd k m) := by
  unfold mboxRow at row
  split at row
  all_goals cases row
  all_goals rfl

theorem exec_unassignedMailboxOpcode (op : BitVec 16) (m : MbxCmd) (s : State) :
    exec (.unassignedMailboxOpcode op m) s = .next (s.unassigned op.toNat m) := rfl

/-- Settles O12: every row issues its command (`exec_of_mboxRow`), and GO has three ends: it is taken (`State.go_taken`), it is ignored
(`State.go_occupied`), or, which the statement leaves aside, it waits. -/
theorem mailboxCommandsAreTakenCheckedAndRun : Obligations.MailboxCommandsAreTakenCheckedAndRun := by
  refine ⟨fun i k m s row => ?rows, fun op m s none takes => ?unassigned⟩
  case rows =>
    rw [exec_of_mboxRow row, State.issueCmd_eq_go]
    refine ⟨fun takes => ?checked, fun ⟨takes, admits, fields⟩ => ?admitted, fun occupied => ?ignored⟩
    case checked =>
      rw [State.go_taken takes]
      rfl
    case admitted => rw [State.go_taken takes, State.runCmd_admitted admits fields]
    case ignored => rw [State.go_occupied occupied]
  case unassigned => rw [exec_unassignedMailboxOpcode, State.unassigned_eq_go none, State.go_taken takes]

end Sys2Proof.Machine

/-! # Aborts and snapshots by register (R455 to R458) -/

namespace Sys2Proof.Machine

namespace State

variable {s : State}

/-! ## The targets of an abort (R457) -/

section Target

theorem active_iff (p : Prog) : p.active = true ↔ p.st = 3 ∨ p.st = 4 := by simp [Prog.active]

variable {h : Nat}

theorem abortTarget_program {p : Prog} (found : s.prog h = some p) (small : h < 1024) :
    s.abortTarget 0 h = if p.st = 3 ∨ p.st = 4 then (St.ok, [h]) else (St.badState, []) := by
  rw [abortTarget, found]
  exact (if_neg (by omega)).trans (if_congr (active_iff p) rfl rfl)

theorem abortTarget_no_program (none : s.prog h = none) : s.abortTarget 0 h = (St.badField, []) := by
  rw [abortTarget, none]

theorem abortTarget_all {kind : Nat} (all : kind = 1 ∨ kind = 2) :
    s.abortTarget kind h = (St.ok, (s.progs.filter fun p => p.2.active).map (·.1)) := by
  rcases all with rfl | rfl <;> rfl

theorem mem_activeHandles (n : Nat) :
    n ∈ (s.progs.filter fun p => p.2.active).map (·.1) ↔ ∃ p, (n, p) ∈ s.progs ∧ (p.st = 3 ∨ p.st = 4) := by
  simp [active_iff]

end Target

/-! ## An abort arrives, and is done (R457) -/

section Arrive

variable {j : AbortJob}

/-- The abort with the status and the targets it has found. -/
def abortFound (s : State) (j : AbortJob) : AbortJob :=
  { j with status := (s.abortTarget j.kind j.handle).1, targets := (s.abortTarget j.kind j.handle).2 }

theorem abortArrive_new (new : ∀ k ∈ s.dc.aborts, k.kind ≠ j.kind ∨ k.handle ≠ j.handle) (prompt : Bool) :
    s.abortArrive j prompt = if prompt then (s.abortFw (s.abortFound j)).abortDone false (s.abortFound j)
      else { s with dc := { s.dc with aborts := s.dc.aborts ++ [s.abortFound j] } } := by
  have unjoined : s.dc.aborts.find? (sameAbort j) = none := by
    refine List.find?_eq_none.mpr fun k hk => ?_
    rcases new k hk with kind | handle
    · simp [sameAbort, kind.symm]
    · simp [sameAbort, handle.symm]
  rw [abortArrive, unjoined]
  rfl

theorem abortDone_register (viaReg : j.viaReg = true) (hw : Bool) : s.abortDone hw j =
    (let w := s.event 10 j.status (BitVec.ofNat 64 (if j.kind = 0 then j.handle else 0xFFFF)) (if hw then 1 else 0)
     { w with dc := { w.dc with abortGo := false, abStatus := j.status, abHw := hw, abDone := true } }).emit (.msix 2) :=
  if_pos viaReg

end Arrive

/-! ## DC_ABORT (R456) and its watchdog (R458) -/

section Register

variable {v : W32}

/-- KIND and HANDLE of the register stand as written. -/
def abortNamed (s : State) (v : W32) : State := { s with dc := { s.dc with abKind := fld v 17 16, abHandle := fld v 9 0 } }

/-- GO of the register stands as well. -/
def abortOpen (s : State) (v : W32) : State :=
  { s.abortNamed v with dc := { (s.abortNamed v).dc with abortGo := true } }

/-- The abort that GO asks for. -/
def abortAsked (s : State) (v : W32) : AbortJob := ⟨true, .host, 0, fld v 17 16, fld v 9 0, 0, [], s.now⟩

/-- The same with what it finds. -/
def abortJob (s : State) (v : W32) : AbortJob := ⟨true, .host, 0, fld v 17 16, fld v 9 0,
  (s.abortTarget (fld v 17 16) (fld v 9 0)).1, (s.abortTarget (fld v 17 16) (fld v 9 0)).2, s.now⟩

theorem abortFound_asked : (s.abortOpen v).abortFound (s.abortAsked v) = s.abortJob v := rfl

variable (prompt : Bool)

theorem dcAbort_without_go (go : v.getLsbD 31 = false) : s.dcAbort v prompt = s.abortNamed v :=
  (if_neg (by rw [go]; exact Bool.false_ne_true)).trans (if_pos (by rw [go]; rfl))

theorem dcAbort_in_progress (go : v.getLsbD 31 = true) (open' : s.dc.abortGo = true) :
    s.dcAbort v prompt = { s with dc := { s.dc with abOvr := true } } := if_pos (by simp [go, open'])

theorem dcAbort_go (go : v.getLsbD 31 = true) (closed : s.dc.abortGo = false) :
    s.dcAbort v prompt = (s.abortOpen v).abortArrive (s.abortAsked v) prompt :=
  (if_neg (by simp [closed])).trans (if_neg (by simp [go]))

/-- Without another abort of the same target in progress, firmware does the abort at once, or it waits for its watchdog. -/
theorem dcAbort_new (go : v.getLsbD 31 = true) (closed : s.dc.abortGo = false)
    (new : ∀ k ∈ s.dc.aborts, k.kind ≠ fld v 17 16 ∨ k.handle ≠ fld v 9 0) : s.dcAbort v prompt =
      if prompt then ((s.abortOpen v).abortFw (s.abortJob v)).abortDone false (s.abortJob v)
      else { s.abortOpen v with dc := { (s.abortOpen v).dc with aborts := s.dc.aborts ++ [s.abortJob v] } } := by
  rw [dcAbort_go prompt go closed, abortArrive_new (s := s.abortOpen v) (j := s.abortAsked v) new, abortFound_asked]
  rfl

theorem abortWatch_due {ix : Nat} {a : AbortJob} (waits : s.dc.aborts[ix]? = some a) (due : a.arrived + 96000 ≤ s.now) :
    s.abortWatch ix = (s.dc.aborts.filter (sameAbort a)).foldl (fun t k => t.abortDone true k)
      (abortHw { s with dc := { s.dc with aborts := s.dc.aborts.filter fun k => !sameAbort a k } } a) := by
  rw [abortWatch, waits]
  exact if_neg (Nat.not_lt.mpr due)

end Register

end State

section Exec

variable (s : State)

theorem exec_dcAbort (linked : s.hp.link = 2) (v : W32) (prompt : Bool) :
    exec (.dcAbort v prompt) s = .next (s.touch.dcAbort v prompt) := congrArg Host.Outcome.next (if_pos linked)
theorem exec_abortWatchdog (ix : Nat) : exec (.abortWatchdog ix) s = .next (s.abortWatch ix) := rfl
theorem exec_dcSnapReq (linked : s.hp.link = 2) (v : W32) : exec (.dcSnapReq v) s = .next (s.touch.dcSnap v) :=
  congrArg Host.Outcome.next (if_pos linked)

end Exec

/-- Settles O30: a write of DC_ABORT by GO and by what is in progress, a new abort by what it names (`State.dcAbort_new`, the lemmas on
`State.abortTarget`), the hardware path by `State.abortWatch_due`. -/
theorem abortsReachTheirTargets : Obligations.AbortsReachTheirTargets := by
  intro r v linked
  have small : fld v 9 0 < 1024 := by
    unfold fld
    omega
  refine ⟨fun go b => ?named, fun go open' b => ?overrun, fun go closed new => ⟨?prompt, ?waits⟩, fun kind p found => ?program,
    fun kind none => ?missing, fun kind => ?all, fun kind => ?reserved, fun ix a waits due => ?watchdog, fun go => ?snapshot,
    fun go => ?noSnapshot⟩
  case named =>
    rw [exec_dcAbort r linked, State.dcAbort_without_go b go]
    rfl
  case overrun => rw [exec_dcAbort r linked, State.dcAbort_in_progress b go open']
  case prompt =>
    rw [exec_dcAbort r linked, State.dcAbort_new true go closed new, if_pos rfl, State.abortDone_register rfl]
    rfl
  case waits =>
    rw [exec_dcAbort r linked, State.dcAbort_new false go closed new, if_neg Bool.false_ne_true]
    rfl
  case program => rw [kind, State.abortTarget_program found small]
  case missing => rw [kind, State.abortTarget_no_program none]
  case all =>
    rw [State.abortTarget_all kind]
    exact ⟨rfl, State.mem_activeHandles⟩
  case reserved =>
    rw [kind]
    rfl
  case watchdog => rw [exec_abortWatchdog, State.abortWatch_due waits due]
  case snapshot =>
    rw [exec_dcSnapReq r linked]
    exact congrArg Host.Outcome.next (if_pos go)
  case noSnapshot =>
    rw [exec_dcSnapReq r linked]
    exact congrArg Host.Outcome.next (if_neg (Bool.eq_false_iff.mp go))

end Sys2Proof.Machine

/-! # Commits of staged items (R449 to R452) -/

namespace Sys2Proof.Machine

/-! ## Stages (R449) -/

section Stage

variable {l : List Item} {x : Item}

theorem stageItem_same_object (h : ∃ y ∈ l, y.object = x.object) :
    stageItem l x = some (l.map fun y => if y.object == x.object then x else y) := if_pos (by simpa using h)

theorem stageItem_new_object (new : ∀ y ∈ l, y.object ≠ x.object) :
    stageItem l x = if 8192 ≤ l.length then none else some (l ++ [x]) := if_neg (by simpa using new)

end Stage

namespace State

/-! ## Generations (R450) -/

theorem nextGen_ne_max (g : W32) : nextGen g ≠ 0xFFFFFFFF := by
  unfold nextGen
  split
  · decide
  · assumption

theorem nextGen_toNat {g : W32} (h : g.toNat + 1 < 0xFFFFFFFF) : (nextGen g).toNat = g.toNat + 1 := by
  have below : g + 1 ≠ 0xFFFFFFFF := by bv_omega
  rw [nextGen, if_neg below]
  bv_omega

/-! ## The items of a stage (R450, R452) -/

section Items

variable {all xs : List Item} {x : Item} {n : Nat} {s : State}

theorem commitItems_cons_good (good : s.itemCheck all x = St.ok) :
    commitItems all n (x :: xs) s = commitItems all (n + 1) xs (s.itemApply x) := by
  rw [commitItems, good]
  rfl

theorem commitItems_cons_bad (bad : s.itemCheck all x ≠ St.ok) : commitItems all n (x :: xs) s = .error (n, s.itemCheck all x) := by
  rw [commitItems]
  split
  · exact absurd ‹_› bad
  · rfl

/-- The items of a stage that is committed have all applied, in order. -/
theorem commitItems_ok {u : State} (h : commitItems all n xs s = .ok u) : u = xs.foldl (fun t x => t.itemApply x) s := by
  induction xs generalizing n s with
  | nil => exact (Except.ok.inj h).symm
  | cons x xs ih =>
    by_cases good : s.itemCheck all x = St.ok
    · exact ih (commitItems_cons_good good ▸ h)
    · rw [commitItems_cons_bad good] at h
      nomatch h

/-- The item that is named is one of the stage, and its check has failed. -/
theorem commitItems_error {i e : Nat} (h : commitItems all n xs s = .error (i, e)) : n ≤ i ∧ i < n + xs.length ∧ e ≠ St.ok := by
  induction xs generalizing n s with
  | nil => nomatch h
  | cons x xs ih =>
    rw [List.length_cons]
    by_cases good : s.itemCheck all x = St.ok
    · obtain ⟨low, high, status⟩ := ih (commitItems_cons_good good ▸ h)
      exact ⟨by omega, by omega, status⟩
    · rw [commitItems_cons_bad good] at h
      obtain ⟨rfl, rfl⟩ := Prod.mk.inj (Except.error.inj h)
      exact ⟨le_rfl, by omega, good⟩

end Items

/-! ## One commit (R450) -/

section One

variable {s : State} {p : Port} {tag base : W32}

theorem commitOne_other_generation (based : base ≠ 0xFFFFFFFF) (other : base ≠ s.dc.gen) :
    s.commitOne p tag base = s.respond p tag St.conflict (commitBytes s.dc.gen 0 0xFFFF) 0 0 :=
  if_pos (by rw [bne_iff_ne.mpr based, bne_iff_ne.mpr other]; rfl)

variable (current : base = 0xFFFFFFFF ∨ base = s.dc.gen)
include current

theorem commitOne_empty (empty : (s.box p).stage = []) :
    s.commitOne p tag base = s.respond p tag St.ok (commitBytes s.dc.gen 0 0xFFFF) 0 0 :=
  (if_neg (by rcases current with rfl | rfl <;> simp)).trans (if_pos (by simp [empty]))

variable (some' : (s.box p).stage ≠ [])
include some'

/-- A commit of the present generation does what the items of its stage come to. -/
theorem commitOne_staged : s.commitOne p tag base =
    match commitItems (s.box p).stage 0 (s.box p).stage s with
    | .error (i, e) => s.respond p tag e (commitBytes s.dc.gen 0 i) 0 0
    | .ok u =>
      let v : State := { u.takeTables with
        dc := { u.takeTables.dc with gen := nextGen s.dc.gen, lastPort := portNo p, lastTime := u.takeTables.ftime } }
      ((v.setBox p { v.box p with stage := [] }).event 8 0 ((nextGen s.dc.gen).setWidth 64) (BitVec.ofNat 64 (portNo p))).respond p tag
        St.ok (commitBytes (nextGen s.dc.gen) (s.box p).stage.length 0xFFFF) 0 0 := by
  refine (if_neg (by rcases current with rfl | rfl <;> simp)).trans ((if_neg (by simp [some'])).trans ?_)
  cases commitItems (s.box p).stage 0 (s.box p).stage s <;> rfl

end One

/-! ## The commit point (R451) -/

section Point

variable {s : State}

/-- The commits that wait have been taken up. -/
def commitsTaken (s : State) : State := { s with dc := { s.dc with commits := [] } }

theorem commitsTaken_of_none (none : s.dc.commits = []) : s.commitsTaken = s := by
  rw [commitsTaken, ← none]

theorem commitPoint_none (none : s.dc.commits = []) : s.commitPoint = s := by
  have untouched : s.commitPoint = s.commitsTaken := by
    rw [commitPoint, none]
    exact foldl_keeps id (fun _ _ => rfl) allPorts _
  rw [untouched, commitsTaken_of_none none]

theorem commitPoint_single {p : Port} {tag base : W32} (one : s.dc.commits = [(p, tag, base)]) :
    s.commitPoint = s.commitsTaken.commitOne p tag base := by
  rw [commitPoint, one]
  cases p <;> rfl

end Point

end State

theorem exec_commitPoint (s : State) : exec .commitPoint s = .next s.commitPoint := rfl

/-- Settles O52: a stage by whether it holds the object (`stageItem_same_object`, `stageItem_new_object`), its items by induction
(`State.commitItems_ok`, `State.commitItems_error`), and a single commit by its base and its stage. -/
theorem commitsApplyStagesWhole : Obligations.CommitsApplyStagesWhole := by
  refine ⟨fun l x => ⟨stageItem_same_object, fun new room => ?adds, fun new full => ?refuses⟩,
    fun g => ⟨State.nextGen_ne_max g, State.nextGen_toNat⟩, fun s none => ?idle, fun s p tag base one => ?single,
    fun all xs n s u => State.commitItems_ok, fun all xs n i e s => State.commitItems_error⟩
  case adds => rw [stageItem_new_object new, if_neg (Nat.not_le.mpr room)]
  case refuses => rw [stageItem_new_object new, if_pos full]
  case idle => rw [exec_commitPoint, State.commitPoint_none none]
  case single =>
    rw [exec_commitPoint, State.commitPoint_single one]
    refine ⟨fun based other => ?conflict, fun current empty => ?empty, fun current staged i e failed => ?fails,
      fun current staged u applied => ?applies⟩
    case conflict =>
      rw [State.commitOne_other_generation (s := s.commitsTaken) based other]
      rfl
    case empty =>
      rw [State.commitOne_empty (s := s.commitsTaken) current empty]
      rfl
    case fails =>
      have items : State.commitItems (s.commitsTaken.box p).stage 0 (s.commitsTaken.box p).stage s.commitsTaken = .error (i, e) := failed
      rw [State.commitOne_staged (s := s.commitsTaken) current staged, items]
      rfl
    case applies =>
      have items : State.commitItems (s.commitsTaken.box p).stage 0 (s.commitsTaken.box p).stage s.commitsTaken = .ok u := applied
      rw [State.commitOne_staged (s := s.commitsTaken) current staged, items]
      rfl

end Sys2Proof.Machine

/-! # What most of the device leaves alone: the queue, the environment and the registers of the power rule

Each function of the machine keeps them (`_kept`, and `_keeps` for the answer of an instruction), file by file, but for those that speak for
the supplies, the throttles, the clocks, the alerts and the reset sequence. -/

namespace Sys2Proof.Machine

/-- What of the Lamplighter's registers the power rule speaks of. -/
def Power.vital (p : Power) : (Nat × Nat × Nat × Nat) × (BitVec 7 × BitVec 7 × Bool) × Bool × Bool × Option Nat × Bool :=
  ((p.pstate, p.pllst, p.plevel, p.tlevel), (p.alert, p.alerten, p.alertn), p.pg48, p.sagOff, p.tripHold, p.latched)

/-- What most of the device leaves alone: the queue, the environment, and what the power rule speaks of. -/
def State.kept (s : State) := (s.pending, s.env, s.pw.vital)

/-- The answer of an instruction keeps what state `s` has. -/
def IRes.Keeps (s : State) : IRes → Prop
  | .done t | .jump t _ | .stop t | .fault t _ => t.kept = s.kept
  | .hold | .queue .. => True

namespace IRes

variable {s t : State}

@[simp] theorem keeps_done : (done t).Keeps s ↔ t.kept = s.kept := Iff.rfl
@[simp] theorem keeps_jump (a : Int) : (jump t a).Keeps s ↔ t.kept = s.kept := Iff.rfl
@[simp] theorem keeps_stop : (stop t).Keeps s ↔ t.kept = s.kept := Iff.rfl
@[simp] theorem keeps_fault (x : FaultInfo) : (fault t x).Keeps s ↔ t.kept = s.kept := Iff.rfl
@[simp] theorem keeps_hold : hold.Keeps s := trivial
@[simp] theorem keeps_queue (lane : Nat) (foot : Foot) (dst : List Nat) : (queue lane foot dst).Keeps s := trivial

end IRes

/-- If there is a next state, it keeps what state `s` has. -/
def State.Kept? (s : State) : Option State → Prop
  | some t => t.kept = s.kept
  | none => True

namespace State

theorem Kept?.of_some {s t : State} {o : Option State} (h : s.Kept? o) (e : o = some t) : t.kept = s.kept := by
  subst e
  exact h

theorem Kept?.trans {s t : State} {o : Option State} (h : t.Kept? o) (k : t.kept = s.kept) : s.Kept? o := by
  cases o
  · trivial
  · exact Eq.trans h k

@[simp] theorem kept?_none (s : State) : s.Kept? none := trivial
@[simp] theorem kept?_some (s t : State) : s.Kept? (some t) ↔ t.kept = s.kept := Iff.rfl

theorem snd_kept_ite {α : Type} (c : Prop) [Decidable c] (p q : α × State) :
    (if c then p else q).2.kept = if c then p.2.kept else q.2.kept := apply_ite (fun r : α × State => r.2.kept) ..

theorem kept_ite (c : Prop) [Decidable c] (a b : State) : (if c then a else b).kept = if c then a.kept else b.kept := apply_ite ..

@[simp] theorem kept_mk (pending now fresh mem cores progs rot sigs atoms regions xunits mcs paused nb slice turns sterr streams sposts kv stems
    sreq ig fab tr hp mbx dc pw blocks tru env out) :
    State.kept ⟨pending, now, fresh, mem, cores, progs, rot, sigs, atoms, regions, xunits, mcs, paused, nb, slice, turns, sterr, streams, sposts,
      kv, stems, sreq, ig, fab, tr, hp, mbx, dc, pw, blocks, tru, env, out⟩ = (pending, env, pw.vital) := rfl

@[simp] theorem kept_eta (s : State) : (s.pending, s.env, s.pw.vital) = s.kept := rfl

@[simp] theorem getD_kept {s : State} {o : Option State} (h : s.Kept? o) : (o.getD s).kept = s.kept := by
  cases o
  · rfl
  · exact h

theorem kept_of_eq {s t : State} (queue : t.pending = s.pending) (env : t.env = s.env) (power : t.pw = s.pw) : t.kept = s.kept := by
  simp only [kept, queue, env, power]

theorem kept_of_mk {α : Type} {p : α × State} {a : α} {t : State} (h : p = (a, t)) : t.kept = p.2.kept := h ▸ rfl

@[simp] theorem foldl_kept {α : Type} (g : State → α → State) (h : ∀ s x, (g s x).kept = s.kept) (l : List α) (s : State) :
    (l.foldl g s).kept = s.kept := foldl_keeps State.kept h l s

@[simp] theorem foldl_snd_kept {α β : Type} (g : β × State → α → β × State) (h : ∀ b x, (g b x).2.kept = b.2.kept) (l : List α) (b : β × State) :
    (l.foldl g b).2.kept = b.2.kept := foldl_keeps (·.2.kept) h l b

@[simp] theorem foldl_fst_kept {α β : Type} (g : State × β → α → State × β) (h : ∀ b x, (g b x).1.kept = b.1.kept) (l : List α) (b : State × β) :
    (l.foldl g b).1.kept = b.1.kept := foldl_keeps (·.1.kept) h l b

@[simp] theorem iterate_kept (n : Nat) (g : Nat → State → State) (h : ∀ i s, (g i s).kept = s.kept) (s : State) : (iterate n s g).kept = s.kept :=
  foldl_kept (fun s i => g i s) (fun s i => h i s) (List.range n) s

@[simp] theorem modPw_kept (s : State) (g : Power → Power) (h : ∀ p, (g p).vital = p.vital) : (s.modPw g).kept = s.kept := by
  simp [modPw, h]

end State

/-! ## Ops -/

namespace State

variable (s : State)

@[simp] theorem uid_kept : s.uid.2.kept = s.kept := (rfl)
@[simp] theorem uidFor_kept (n : Nat) : (s.uidFor n).2.kept = s.kept := by unfold uidFor; split <;> rfl
@[simp] theorem emit_kept (o : Out) : (s.emit o).kept = s.kept := (rfl)
@[simp] theorem store_kept (a : Nat) (bs : List Byte) (pois : Bool) : (s.store a bs pois).kept = s.kept := (rfl)
@[simp] theorem forget_kept (lo hi : Nat) : (s.forget lo hi).kept = s.kept := (rfl)
@[simp] theorem setCore_kept (c : Nat) (k : Core) : (s.setCore c k).kept = s.kept := (rfl)
@[simp] theorem modCore_kept (c : Nat) (g : Core → Core) : (s.modCore c g).kept = s.kept := (rfl)
@[simp] theorem modCtx_kept (c : Nat) (g : Ctx → Ctx) : (s.modCtx c g).kept = s.kept := (rfl)
@[simp] theorem setProg_kept (h : Nat) (p : Prog) : (s.setProg h p).kept = s.kept := (rfl)
@[simp] theorem modProg_kept (h : Nat) (g : Prog → Prog) : (s.modProg h g).kept = s.kept := by unfold modProg; split <;> rfl
@[simp] theorem event_kept (cls status : Nat) (arg0 arg1 : W64) : (s.event cls status arg0 arg1).kept = s.kept :=
  kept_of_eq (event_pending ..) (event_env ..) (event_pw ..)

@[simp] theorem logErrSev_kept (sev src code : Nat) (addr : W64) (status : Nat) (data : List Byte) : (s.logErrSev sev src code addr status data).kept = s.kept :=
  kept_of_eq (logErrSev_pending ..) (logErrSev_env ..) (logErrSev_pw ..)

@[simp] theorem logErr_kept (src code : Nat) (addr : W64) (status : Nat) (data : List Byte) : (s.logErr src code addr status data).kept = s.kept := by
  simp [logErr]

end State

/-! ## Access -/

namespace State

variable (s : State)

@[simp] theorem modSaved_kept (h c : Nat) (g : Saved → Saved) : (s.modSaved h c g).kept = s.kept := by simp [modSaved]
@[simp] theorem countDown_kept (blk : Nat) : (s.countDown blk).kept = s.kept := (rfl)
@[simp] theorem countAccess_kept (a status : Nat) : (s.countAccess a status).kept = s.kept := by unfold countAccess; (repeat' split) <;> simp
@[simp] theorem writePiece_kept (a : Nat) (bs : List (Byte × Bool)) : (s.writePiece a bs).2.kept = s.kept := by
  simp only [writePiece]
  (repeat' split) <;> simp

@[simp] theorem extWrite_kept (a : Nat) (bs : List (Byte × Bool)) : (s.extWrite a bs).2.kept = s.kept :=
  foldl_keeps (fun r : (Nat × State) × List (Byte × Bool) => r.1.2.kept) (fun _ _ => writePiece_kept ..) _ _

@[simp] theorem devWrite_kept (a : Nat) (bs : List Byte) : (s.devWrite a bs).2.kept = s.kept := by simp [devWrite]
@[simp] theorem spoil_kept (a n : Nat) : (s.spoil a n).kept = s.kept := by
  simp only [spoil]
  refine foldl_kept _ (fun _ _ => ?_) _ _
  rfl

@[simp] theorem ownStore_kept (a : Nat) (bs : List Byte) : (s.ownStore a bs).kept = s.kept := by simp [ownStore]
@[simp] theorem modProgCtx_kept (h c : Nat) (g : Ctx → Ctx) : (s.modProgCtx h c g).kept = s.kept := by unfold modProgCtx; (repeat' split) <;> simp
@[simp] theorem modProgFlag_kept (h c n : Nat) (g : W32 → W32) : (s.modProgFlag h c n g).kept = s.kept := by simp [modProgFlag]
@[simp] theorem modFlag_kept (c n : Nat) (g : W32 → W32) : (s.modFlag c n g).kept = s.kept := by unfold modFlag; split <;> simp

end State

/-! ## Net -/

namespace State

variable (s : State)

@[simp] theorem setLink_kept (n : Nat) (l : Link) : (s.setLink n l).kept = s.kept := (rfl)
@[simp] theorem setPort_kept (n : Nat) (p : BvPort) : (s.setPort n p).kept = s.kept := (rfl)
@[simp] theorem fabricEvent_kept : s.fabricEvent.kept = s.kept := by simp [fabricEvent]
@[simp] theorem linkErr_kept (l bit : Nat) : (s.linkErr l bit).kept = s.kept := (rfl)
@[simp] theorem linkLog_kept (l code : Nat) : (s.linkLog l code).kept = s.kept := by simp [linkLog]
@[simp] theorem linkTrain_kept (l : Nat) : (s.linkTrain l).kept = s.kept := (rfl)
@[simp] theorem retrain_kept (l : Nat) : (s.retrain l).kept = s.kept := by simp [retrain]
@[simp] theorem flits_kept (n : Nat) (fs : List (List Byte)) : (s.flits n fs).kept = s.kept := by simp [flits]
@[simp] theorem pumpLink_kept (n : Nat) : (s.pumpLink n).kept = s.kept := by unfold pumpLink; (repeat' split) <;> simp
@[simp] theorem controlFlit_kept (n code : Nat) (body : List Byte) : (s.controlFlit n code body).kept = s.kept := (rfl)
@[simp] theorem idleFlit_kept (n : Nat) : (s.idleFlit n).kept = s.kept := (rfl)
@[simp] theorem sendPacket_kept (n vl : Nat) (p : Packet) : (s.sendPacket n vl p).kept = s.kept := by simp [sendPacket]
@[simp] theorem transmit_kept (tag link : Nat) (r : Req) : (s.transmit tag link r).kept = s.kept := by simp [transmit]
@[simp] theorem cacheLook_kept (g : Nat) : (s.cacheLook g).2.kept = s.kept := by simp only [cacheLook]; (repeat' split) <;> simp
@[simp] theorem cacheFill_kept (g : Nat) (data : List Byte) : (s.cacheFill g data).kept = s.kept := by unfold cacheFill; split <;> rfl
theorem request_kept {t : State} {pkt : Packet} {vl : Nat} {prog : Option Nat} {cont : Cont} (h : s.request pkt vl prog cont = .ok t) :
    t.kept = s.kept := by
  simp only [request] at h
  (repeat' split at h) <;> cases h <;> simp

@[simp] theorem gReadPiece_kept (g n vl : Nat) (prog : Option Nat) (cont : Cont) : (s.gReadPiece g n vl prog cont).2.kept = s.kept := by
  simp only [gReadPiece]
  split
  · rfl
  split
  · split <;> simp
  split
  · simp
  · split
    · simp
    · next sent => exact (request_kept _ sent).trans (cacheLook_kept ..)

@[simp] theorem gWritePiece_kept (g : Nat) (bs : List (Byte × Bool)) (vl : Nat) (prog : Option Nat) (cont : Cont) : (s.gWritePiece g bs vl prog cont).2.kept = s.kept := by
  simp only [gWritePiece]
  split
  · rfl
  split
  · simp
  split
  · rfl
  · next sent => exact request_kept _ sent

@[simp] theorem gWrite_kept (g : Nat) (bs : List (Byte × Bool)) (vl : Nat) (prog : Option Nat) (cont : Cont) : (s.gWrite g bs vl prog cont).2.2.kept = s.kept :=
  foldl_keeps (fun r : (Nat × Nat × State) × List (Byte × Bool) => r.1.2.2.kept) (fun _ _ => gWritePiece_kept ..) _ _

@[simp] theorem setFetch_kept (f : Fetch) : (s.setFetch f).kept = s.kept := (rfl)
@[simp] theorem dropFetch_kept (k : FetchKey) : (s.dropFetch k).kept = s.kept := (rfl)
@[simp] theorem fetchMore_kept (k : FetchKey) (rs : List (Nat × Nat)) (vl : Nat) (prog : Option Nat) (off : Nat) : (s.fetchMore k rs vl prog off).kept = s.kept := by
  simp [fetchMore]

@[simp] theorem fetchNew_kept (k : FetchKey) (rs : List (Nat × Nat)) (vl : Nat) (prog : Option Nat) : (s.fetchNew k rs vl prog).kept = s.kept := by
  simp [fetchNew]

@[simp] theorem signal_kept (src : SigSrc) (dst : SigDst) (set : Bool) (v : W32) (after : List Nat) : (s.signal src dst set v after).2.kept = s.kept :=
  (rfl)

end State

/-! ## Work -/

namespace State

variable (s : State)

@[simp] theorem setStem_kept (e : Nat) (x : StemEngine) : (s.setStem e x).kept = s.kept := (rfl)
@[simp] theorem dropConts_kept (q : Cont → Bool) : (s.dropConts q).kept = s.kept := (rfl)
@[simp] theorem releaseLatch_kept (q : LatchBy → Bool) : (s.releaseLatch q).kept = s.kept := (rfl)
@[simp] theorem forgetG_kept (g n : Nat) : (s.forgetG g n).kept = s.kept := by unfold forgetG; (repeat' split) <;> simp
@[simp] theorem takeStems_kept (c h : Nat) : (s.takeStems c h).2.kept = s.kept := (rfl)
@[simp] theorem setIgEngine_kept (e : Nat) (x : IgEngine) : (s.setIgEngine e x).kept = s.kept := (rfl)
@[simp] theorem modBatch_kept (u : Nat) (g : Batch → Batch) : (s.modBatch u g).kept = s.kept := (rfl)
@[simp] theorem clipRecord_kept (rec status reason decoded tokens e u : Nat) : (s.clipRecord rec status reason decoded tokens e u).kept = s.kept := by
  unfold clipRecord
  split <;> simp

@[simp] theorem clipNoted_kept (u : Nat) : (s.clipNoted u).kept = s.kept := (rfl)
@[simp] theorem clipGone_kept (e status decoded pix : Nat) : (s.clipGone e status decoded pix).kept = s.kept := by
  simp only [clipGone]
  split <;> simp

@[simp] theorem stopClip_kept (e status : Nat) : (s.stopClip e status).kept = s.kept := by simp only [stopClip]; (repeat' split) <;> simp
@[simp] theorem stopBatch_kept (st status : Nat) : (s.stopBatch st status).kept = s.kept := by
  simp only [stopBatch]
  split
  · rfl
  · simp only [kept_mk, kept_eta]
    refine iterate_kept _ _ (fun _ _ => ?_) _
    (repeat' split) <;> simp

@[simp] theorem setStream_kept (st : Nat) (x : Stream) : (s.setStream st x).kept = s.kept := (rfl)
@[simp] theorem detach_kept (st : Nat) : (s.detach st).kept = s.kept := (rfl)
@[simp] theorem cancelStream_kept (st : Nat) : (s.cancelStream st).kept = s.kept := by unfold cancelStream; (repeat' split) <;> simp

end State

/-! ## Stop -/

namespace State

variable (s : State)

@[simp] theorem freeAcc_kept (c : Nat) (keys : List Nat) : (s.freeAcc c keys).kept = s.kept := (rfl)
@[simp] theorem freeTiles_kept (c pc : Nat) (f : Frame) : (s.freeTiles c pc f).kept = s.kept := (rfl)
@[simp] theorem freePend_kept (c : Nat) : (s.freePend c).kept = s.kept := (rfl)
@[simp] theorem freeVregs_kept (c : Nat) (vs : List Nat) : (s.freeVregs c vs).kept = s.kept := (rfl)
@[simp] theorem freeSide_kept (c : Nat) (rs : List Nat) : (s.freeSide c rs).kept = s.kept := (rfl)
@[simp] theorem freeFoot_kept (c : Nat) (f : Foot) : (s.freeFoot c f).kept = s.kept := by simp [freeFoot]
@[simp] theorem freeAttn_kept (c : Nat) (a : Attn) : (s.freeAttn c a).kept = s.kept := by unfold freeAttn; (repeat' split) <;> simp
@[simp] theorem haltCore_kept (c h code : Nat) : (s.haltCore c h code).kept = s.kept := by simp only [haltCore]; split <;> simp
@[simp] theorem restoreCore_kept (h c : Nat) (v : Saved) (p : Prog) : (s.restoreCore h c v p).kept = s.kept := by unfold restoreCore; split <;> rfl
@[simp] theorem writeSave_kept (h : Nat) : (s.writeSave h).kept = s.kept := by unfold writeSave; split <;> rfl
@[simp] theorem stopBare_kept (h st : Nat) : (s.stopBare h st).kept = s.kept := by
  simp only [stopBare]
  split
  · rfl
  split
  · rfl
  · (repeat' split) <;> simp <;> (rw [foldl_kept]; intro s v; split <;> simp)

@[simp] theorem switchIn_kept (h : Nat) : (s.switchIn h).kept = s.kept := by simp only [switchIn]; (repeat' split) <;> simp
@[simp] theorem schedule_kept : s.schedule.kept = s.kept := by
  simp only [schedule]
  refine foldl_kept _ (fun s h => ?_) _ _
  (repeat' split) <;> simp

@[simp] theorem stopProgram_kept (h st : Nat) : (s.stopProgram h st).kept = s.kept := by unfold stopProgram; (repeat' split) <;> simp
@[simp] theorem applyKills_kept : s.applyKills.kept = s.kept := by
  simp only [applyKills]
  rw [foldl_kept]
  · rfl
  · intro s h
    (repeat' split) <;> simp

@[simp] theorem haltedFault_kept (c h pc : Nat) (frame : Frame) (f : FaultInfo) (p : Prog) : (s.haltedFault c h pc frame f p).kept = s.kept := by
  simp [haltedFault]

@[simp] theorem progFault_kept (c h pc : Nat) (frame : Frame) (f : FaultInfo) : (s.progFault c h pc frame f).kept = s.kept := by
  unfold progFault
  (repeat' split) <;> simp

@[simp] theorem failOne_kept (h : Nat) : (s.failOne h).kept = s.kept := by unfold failOne; (repeat' split) <;> simp
@[simp] theorem failGo_kept : s.failGo.kept = s.kept := by simp [failGo]
@[simp] theorem fault_kept (c pc : Nat) (frame : Frame) (f : FaultInfo) : (s.fault c pc frame f).kept = s.kept := by simp [fault]

end State

/-! ## Operands -/

namespace State

variable (s : State)

@[simp] theorem advance_kept (c pc : Nat) : (s.advance c pc).kept = s.kept := (rfl)
@[simp] theorem wait_kept (c : Nat) (f : Frame) : (s.wait c f).kept = s.kept := (rfl)
@[simp] theorem intoQueue_kept (c : Nat) (f : Frame) (lane : Nat) (foot : Foot) (dst : List Nat) : (s.intoQueue c f lane foot dst).kept = s.kept := by
  simp only [intoQueue]
  split <;> simp

@[simp] theorem issueCore_kept (c : Nat) (f : Frame) (dec : Option FaultInfo) (regs : List Nat) (body : Ins → State → IRes)
    (h : ∀ i t, (body i t).Keeps t) : (issueCore c f dec regs body s).kept = s.kept := by
  have answered {i : Ins} {r : IRes} (e : body i s = r) : r.Keeps s := e ▸ h _ _
  simp only [issueCore]
  repeat' split
  any_goals simp
  all_goals exact answered ‹body _ _ = _›

@[simp] theorem start_kept (c : Nat) (f : Frame) (run : State → State) (h : ∀ t, (run t).kept = t.kept) : (start c f run s).kept = s.kept := by
  simp only [start]
  (repeat' split) <;> simp [h]

@[simp] theorem startOp_kept (op c : Nat) (f : Frame) (run : State → State) (h : ∀ t, (run t).kept = t.kept) :
    (startOp op c f run s).kept = s.kept := by
  unfold startOp
  split <;> simp [h]

end State

/-! ## Flags -/

namespace State

variable (s : State)

@[simp] theorem setFlags_kept (c : Nat) (bits : W32) : (s.setFlags c bits).kept = s.kept := (rfl)

end State

/-! ## Control -/

namespace State

variable (s : State)

@[simp] theorem setSel_kept (c v : Nat) (w : W64) : (s.setSel c v w).kept = s.kept := (rfl)

end State

@[simp] theorem nopBody_keeps (i : Ins) (s : State) : (nopBody i s).Keeps s := (rfl)
@[simp] theorem haltBody_keeps (s : State) (i : Ins) : (haltBody i s).Keeps s := by simp only [haltBody]; (repeat' split) <;> simp
@[simp] theorem setiBody_keeps (s : State) (i : Ins) : (setiBody i s).Keeps s := (rfl)
@[simp] theorem saluBody_keeps (s : State) (i : Ins) : (saluBody i s).Keeps s := (rfl)
@[simp] theorem scmpBody_keeps (s : State) (i : Ins) : (scmpBody i s).Keeps s := (rfl)
@[simp] theorem plogBody_keeps (s : State) (i : Ins) : (plogBody i s).Keeps s := (rfl)
@[simp] theorem brBody_keeps (s : State) (i : Ins) : (brBody i s).Keeps s := by unfold brBody; split <;> rfl
@[simp] theorem briBody_keeps (s : State) (i : Ins) : (briBody i s).Keeps s := by simp only [briBody]; (repeat' split) <;> simp
@[simp] theorem lendBody_keeps (s : State) (i : Ins) : (lendBody i s).Keeps s := by simp only [lendBody]; (repeat' split) <;> simp
@[simp] theorem sldBody_keeps (s : State) (i : Ins) : (sldBody i s).Keeps s := by
  simp only [sldBody, State.enterUnit]
  repeat' split
  any_goals simp
  all_goals simp [State.kept_of_mk ‹_ = (_, _)›]

@[simp] theorem sstBody_keeps (s : State) (i : Ins) : (sstBody i s).Keeps s := by
  simp only [sstBody, State.enterUnit]
  repeat' split
  any_goals simp
  all_goals simp [State.kept_of_mk ‹_ = (_, _)›]

@[simp] theorem fsigBody_keeps (s : State) (i : Ins) : (fsigBody i s).Keeps s := by
  simp only [fsigBody]
  (repeat' split) <;> simp

@[simp] theorem fwaitBody_keeps (s : State) (i : Ins) : (fwaitBody i s).Keeps s := by simp only [fwaitBody]; (repeat' split) <;> simp
@[simp] theorem frdBody_keeps (s : State) (i : Ins) : (frdBody i s).Keeps s := (rfl)
@[simp] theorem bollardBody_keeps (s : State) (i : Ins) : (bollardBody i s).Keeps s := (rfl)
@[simp] theorem waituBody_keeps (s : State) (i : Ins) : (waituBody i s).Keeps s := by unfold waituBody; split <;> simp
@[simp] theorem astatBody_keeps (s : State) (i : Ins) : (astatBody i s).Keeps s := by unfold astatBody; split <;> simp
@[simp] theorem trapBody_keeps (s : State) (i : Ins) : (trapBody i s).Keeps s := (rfl)
@[simp] theorem phaseBody_keeps (s : State) (i : Ins) : (phaseBody i s).Keeps s := by unfold phaseBody; split <;> simp
@[simp] theorem timeBody_keeps (s : State) (i : Ins) : (timeBody i s).Keeps s := (rfl)
@[simp] theorem noneBody_keeps (i : Ins) (s : State) : (noneBody i s).Keeps s := by simp [noneBody]

/-! ## Mbx -/

namespace State

variable (s : State)

@[simp] theorem setBox_kept (p : Port) (b : Mailbox) : (s.setBox p b).kept = s.kept := (rfl)
@[simp] theorem svcSend_kept (port ty : Nat) (payload : List Byte) : (s.svcSend port ty payload).kept = s.kept := (rfl)
@[simp] theorem carry_kept (p : Port) (r : List Byte) : (s.carry p r).kept = s.kept := by unfold carry; (repeat' split) <;> simp
@[simp] theorem respond_kept (p : Port) (tag : W32) (status : Nat) (payload : List Byte) (stream detail : Nat) : (s.respond p tag status payload stream detail).kept = s.kept := by
  simp only [respond]
  (repeat' split) <;> simp

@[simp] theorem stage_kept (p : Port) (x : Item) : (s.stage p x).2.kept = s.kept := by unfold stage; split <;> rfl
theorem beginLong_kept {m : MbxCmd} {op result n : Nat} {w : LongWork} {t : State} (h : s.beginLong m op result w = some (n, t)) :
    t.kept = s.kept := by
  simp only [beginLong] at h
  (repeat' split at h) <;> cases h
  simp

@[simp] theorem acceptLong_kept (m : MbxCmd) (op result : Nat) (w : LongWork) : (s.acceptLong m op result w).2.kept = s.kept := by
  simp only [acceptLong]
  split
  · next begun => exact beginLong_kept s begun
  · rfl

@[simp] theorem endLong_kept (n status value : Nat) (write : Bool) (pieces : Nat) : (s.endLong n status value write pieces).kept = s.kept := by
  unfold endLong
  (repeat' split) <;> simp

@[simp] theorem withMbxData_kept (p : Port) (rs : List (Nat × Nat)) (k : State → Nat → List (Byte × Bool) → Ans × State)
    (h : ∀ t st bs, (k t st bs).2.kept = t.kept) : (s.withMbxData p rs k).2.kept = s.kept := by
  simp only [withMbxData]
  (repeat' split) <;> simp [h]

end State

/-! ## Vector -/
@[simp] theorem Opnd.put_kept (s : State) (c : Nat) (o : Opnd) (codes : List Nat) : (Opnd.put s c o codes).kept = s.kept := by unfold Opnd.put; split <;> simp

namespace State

variable (s : State)

@[simp] theorem freeCodes_kept (n bits : Nat) : (s.freeCodes n bits).2.kept = s.kept := (rfl)
@[simp] theorem freeRange_kept (c lo n : Nat) : (s.freeRange c lo n).kept = s.kept := by unfold freeRange; split <;> rfl

end State

@[simp] theorem Opnd.free_kept (s : State) (c n : Nat) (o : Opnd) : (Opnd.free s c n o).kept = s.kept := by unfold Opnd.free; split <;> simp
/-- An instruction of the vector or row engine leaves the rest of the device alone, whether it takes effect or faults. -/
structure VOp.Keeps (v : VOp) : Prop where
  free : ∀ s, (v.free s).kept = s.kept
  act : ∀ s, (v.act s).kept = s.kept

@[simp] theorem VOp.stop_keeps {v : VOp} (h : v.Keeps) (i : Ins) (s : State) (x : FaultInfo) : (v.stop i s x).Keeps s := by
  simp [VOp.stop, h.free]

@[simp] theorem VOp.run_keeps {v : VOp} (h : v.Keeps) (i : Ins) (s : State) : (v.run i s).Keeps s := by
  simp only [VOp.run, State.enterUnit]
  (repeat' split) <;> simp [h, h.act]

@[simp] theorem putBranch_kept (s : State) (a : Nat) (bits : List Bool) : (putBranch s a bits).kept = s.kept := by simp [putBranch]
@[simp] theorem Elem.act_kept (c : Nat) (e : Elem) (s : State) : (e.act c s).kept = s.kept := by
  simp only [Elem.act]
  split <;> simp [State.kept_ite, State.snd_kept_ite]

@[simp] theorem Elem.freeBits_kept (s : State) (c n : Nat) (e : Elem) : (Elem.freeBits s c n e).kept = s.kept := by unfold Elem.freeBits; split <;> simp
theorem Elem.op_keeps (s : State) (c : Nat) (e : Elem) (more late : List (Option FaultInfo)) : (e.op s c more late).Keeps where
  free t := by simp [Elem.op]
  act t := by simp [Elem.op]

@[simp] theorem vewOp_keeps (i : Ins) (s : State) : (vewOp i s).Keeps := Elem.op_keeps ..
@[simp] theorem vewBody_keeps (i : Ins) (s : State) : (vewBody i s).Keeps s := VOp.run_keeps (vewOp_keeps i s) i s

@[simp] theorem vmpOp_keeps (i : Ins) (s : State) : (vmpOp i s).Keeps := Elem.op_keeps ..
@[simp] theorem vmpBody_keeps (i : Ins) (s : State) : (vmpBody i s).Keeps s := by
  unfold vmpBody
  split <;> simp

namespace State

variable (s : State)

@[simp] theorem freeUprog_kept (c slot : Nat) : (s.freeUprog c slot).kept = s.kept := (rfl)

end State

@[simp] theorem uploadBody_keeps (s : State) (i : Ins) : (uploadBody i s).Keeps s := by
  simp only [uploadBody, State.enterUnit]
  (repeat' split) <;> simp

@[simp] theorem vmoveOp_keeps (load : Bool) (i : Ins) (s : State) : (vmoveOp load i s).Keeps where
  free t := by
    simp only [vmoveOp]
    (repeat' split) <;> simp
  act t := by
    simp only [vmoveOp]
    (repeat' split) <;> simp

@[simp] theorem vldBody_keeps (i : Ins) (s : State) : (vldBody i s).Keeps s := VOp.run_keeps (vmoveOp_keeps true i s) i s

@[simp] theorem vstBody_keeps (i : Ins) (s : State) : (vstBody i s).Keeps s := VOp.run_keeps (vmoveOp_keeps false i s) i s
@[simp] theorem vredOp_keeps (i : Ins) (s : State) : (vredOp i s).Keeps where
  free t := by simp [vredOp]
  act t := by
    simp only [vredOp]
    (repeat' split) <;> simp

@[simp] theorem vredBody_keeps (i : Ins) (s : State) : (vredBody i s).Keeps s := VOp.run_keeps (vredOp_keeps i s) i s

@[simp] theorem putElem_kept (s : State) (a es code : Nat) : (putElem s a es code).kept = s.kept := by simp [putElem]
@[simp] theorem poolOp_keeps (bwd : Bool) (i : Ins) (s : State) (w : Win3) : (poolOp bwd i s w).Keeps where
  free t := by simp [poolOp]
  act t := by
    simp only [poolOp]
    split <;> simp [State.snd_kept_ite]

@[simp] theorem poolBody_keeps (bwd : Bool) (i : Ins) (s : State) : (poolBody bwd i s).Keeps s := by
  simp only [poolBody]
  (repeat' split) <;> simp [(poolOp_keeps ..).free]

/-! ## Atomics -/

namespace State

variable (s : State)

@[simp] theorem setXunit_kept (u : Nat) (x : XUnit) : (s.setXunit u x).kept = s.kept := (rfl)
@[simp] theorem takeSlot_kept (key u : Nat) : (s.takeSlot key u).kept = s.kept := (rfl)
@[simp] theorem unhold_kept (key u : Nat) : (s.unhold key u).kept = s.kept := (rfl)
@[simp] theorem fillSlot_kept (u : Nat) : (s.fillSlot u).kept = s.kept := by simp only [fillSlot]; (repeat' split) <;> simp
@[simp] theorem freeSlots_kept (key : Nat) : (s.freeSlots key).kept = s.kept := by simp [freeSlots]
@[simp] theorem putAt_kept (a : Nat) (bs : List Byte) : (s.putAt a bs).kept = s.kept := by unfold putAt; split <;> simp
@[simp] theorem countOp_kept (u : Nat) : (s.countOp u).kept = s.kept := (rfl)
@[simp] theorem addElem_kept (key : Nat) (r : Region) (ix : Nat) (x : XF) : (s.addElem key r ix x).2.kept = s.kept := by simp [addElem]
@[simp] theorem applyAtom_kept (o : AtomOp) (uid : Nat) (judged : Bool) : (s.applyAtom o uid judged).2.2.kept = s.kept := by
  simp only [applyAtom]
  (repeat' split) <;> simp

@[simp] theorem writePend_kept (h c uid reg : Nat) (v : W64) : (s.writePend h c uid reg v).kept = s.kept := by simp [writePend]
@[simp] theorem respondPkt_kept (op src tag vl status : Nat) (bs : List (Byte × Bool)) (frozen : Bool) : (s.respondPkt op src tag vl status bs frozen).kept = s.kept := by
  simp only [respondPkt]
  (repeat' split) <;> simp

@[simp] theorem elemDone_kept (st status : Nat) (ovr : Bool) : (s.elemDone st status ovr).kept = s.kept := by
  unfold elemDone
  (repeat' split) <;> simp

@[simp] theorem atomDone_kept (a : Atom) (status : Nat) (v : W64) : (s.atomDone a status v).kept = s.kept := by
  unfold atomDone
  (repeat' split) <;> simp

@[simp] theorem takeAtom_kept (a : Atom) : (s.takeAtom a).kept = s.kept := by simp [takeAtom]
@[simp] theorem atomicApply_kept (ix : Nat) : (s.atomicApply ix).kept = s.kept := by simp only [atomicApply]; (repeat' split) <;> simp
@[simp] theorem zeroAt_kept (a n : Nat) : (s.zeroAt a n).kept = s.kept := by unfold zeroAt; split <;> simp
@[simp] theorem beginOpen_kept (base shadow count : Nat) (eb : Int) : (s.beginOpen base shadow count eb).kept = s.kept := (rfl)
@[simp] theorem shownElems_kept (r : Region) : (s.shownElems r).kept = s.kept := by
  simp only [shownElems]
  refine iterate_kept _ _ (fun i s => ?_) _
  split <;> simp

@[simp] theorem finishOpen_kept (key : Nat) : (s.finishOpen key).kept = s.kept := by unfold finishOpen; split <;> simp
@[simp] theorem openRegion_kept (key : Nat) : (s.openRegion key).2.kept = s.kept := by unfold openRegion; (repeat' split) <;> simp
@[simp] theorem drainRegion_kept (r : Region) : (s.drainRegion r).kept = s.kept := by simp [drainRegion]
@[simp] theorem setPhase_kept (key p : Nat) : (s.setPhase key p).kept = s.kept := by unfold setPhase; split <;> rfl
@[simp] theorem beginClose_kept (key : Nat) : (s.beginClose key).kept = s.kept := by unfold beginClose; (repeat' split) <;> simp
@[simp] theorem closeRegion_kept (key : Nat) : (s.closeRegion key).2.2.kept = s.kept := by simp only [closeRegion]; (repeat' split) <;> simp
@[simp] theorem slotSwitch_kept (u : Nat) : (s.slotSwitch u).kept = s.kept := by simp only [slotSwitch]; (repeat' split) <;> simp
@[simp] theorem setMc_kept (k : Nat) (x : Mc) : (s.setMc k x).kept = s.kept := (rfl)
@[simp] theorem scrub_kept (a err : Nat) : (s.scrub a err).kept = s.kept := by simp only [scrub]; (repeat' split) <;> simp

end State

@[simp] theorem atomMark_kept (c : Nat) (f : Frame) (u : Nat) (s : State) : (atomMark c f u s).kept = s.kept := by
  unfold atomMark
  split <;> simp

@[simp] theorem atomBody_keeps (i : Ins) (s : State) : (atomBody i s).Keeps s := by
  unfold atomBody State.enterUnit
  extract_lets f x g op n dst foot o pend spad blank p
  have mark (t : State) (u : Nat) : (pend t u).kept = t.kept := atomMark_kept i.c i.f u t
  have numbered {u : Nat} {t : State} (e : s.uidFor i.n = (u, t)) : t.kept = s.kept := by simp [State.kept_of_mk e]
  clear_value pend
  repeat' split
  any_goals simp [mark]
  any_goals exact numbered ‹_›
  exact (State.request_kept _ ‹_ = Except.ok _›).trans (numbered ‹_›)

/-! ## KvMan -/

namespace State

variable (s : State)

@[simp] theorem setPool_kept (n : Nat) (q : KvPool) : (s.setPool n q).kept = s.kept := (rfl)
@[simp] theorem setSeq_kept (ref : Nat) (r : KvSeq) : (s.setSeq ref r).kept = s.kept := (rfl)
@[simp] theorem writeEntry_kept (ref p entry : Nat) : (s.writeEntry ref p entry).kept = s.kept := by unfold writeEntry; split <;> simp
@[simp] theorem setPage_kept (ref p entry : Nat) : (s.setPage ref p entry).kept = s.kept := by unfold setPage; split <;> simp
@[simp] theorem takeFrame_kept (pool entry : Nat) : (s.takeFrame pool entry).kept = s.kept := by unfold takeFrame; split <;> rfl
@[simp] theorem dropFrame_kept (pool entry ref : Nat) (ver : W32) : (s.dropFrame pool entry ref ver).kept = s.kept := by
  unfold dropFrame
  (repeat' split) <;> simp

@[simp] theorem logEdit_kept? (ref lo hi : Nat) (ver : W32) (trunc : Bool) : s.Kept? (s.logEdit ref lo hi ver trunc) := by
  unfold logEdit
  (repeat' split) <;> simp

@[simp] theorem useSeq_kept? (ref : Nat) (r : KvSeq) : s.Kept? (s.useSeq ref r) := by unfold useSeq; split <;> simp
@[simp] theorem frameData_kept (key : FetchKey) (addr n vl : Nat) : (s.frameData key addr n vl).2.kept = s.kept := by
  simp only [frameData]
  (repeat' split) <;> simp

@[simp] theorem progStore_kept (h c a : Nat) (bs : List Byte) : (s.progStore h c a bs).kept = s.kept := by unfold progStore; (repeat' split) <;> simp
@[simp] theorem editDone_kept (e : Edit) (status : Nat) (ver : W32) (len result : Nat) : (s.editDone e status ver len result).kept = s.kept := by
  simp only [editDone]
  (repeat' split) <;> simp

@[simp] theorem editEnd_kept (e : Edit) (status ref result : Nat) : (s.editEnd e status ref result).kept = s.kept := by unfold editEnd; split <;> simp
@[simp] theorem editBad_kept (e : Edit) : (s.editBad e).kept = s.kept := by simp [editBad]
@[simp] theorem newSeq_kept (ref len : Nat) : (s.newSeq ref len).kept = s.kept := (rfl)
@[simp] theorem doCreate_kept? (e : Edit) (pool : Nat) (q : KvPool) : s.Kept? (s.doCreate e pool q) := by unfold doCreate; (repeat' split) <;> simp
@[simp] theorem doQuery_kept? (e : Edit) (r : KvSeq) : s.Kept? (s.doQuery e r) := by simp [doQuery]
@[simp] theorem dropPages_kept (pool ref : Nat) (ps : List (Nat × Nat)) (ver : W32) : (s.dropPages pool ref ps ver).kept = s.kept := by
  simp [dropPages]

@[simp] theorem doFree_kept? (e : Edit) (pool : Nat) (r : KvSeq) : s.Kept? (s.doFree e pool r) := by simp [doFree]
@[simp] theorem reservePages_kept (pool ref : Nat) (ps : List Nat) : (s.reservePages pool ref ps).kept = s.kept := by
  simp only [reservePages]
  refine foldl_kept _ (fun s p => ?_) _ _
  (repeat' split) <;> simp

@[simp] theorem doReserve_kept? (e : Edit) (pool : Nat) (q : KvPool) (r : KvSeq) : s.Kept? (s.doReserve e pool q r) := by
  simp only [doReserve]
  (repeat' split) <;> simp

@[simp] theorem doExtend_kept? (e : Edit) (q : KvPool) (r : KvSeq) : s.Kept? (s.doExtend e q r) := by simp only [doExtend]; split <;> simp
@[simp] theorem doTruncate_kept? (e : Edit) (pool : Nat) (r : KvSeq) : s.Kept? (s.doTruncate e pool r) := by
  have logged {c : Prop} [Decidable c] {lo hi : Nat} {v : W32} {t : State}
      (h : (if c then some s else s.logEdit e.seq lo hi v true) = some t) : t.kept = s.kept := by
    split at h
    · rw [Option.some.inj h]
    · exact (logEdit_kept? ..).of_some h
  simp only [doTruncate]
  repeat' split
  any_goals simp
  all_goals simp [logged ‹_ = some _›]

theorem copyPage_kept? (e : Edit) (pool : Nat) (q : KvPool) (entry : Nat) (k : State → Nat → Option State) (h : ∀ t f, Kept? t (k t f)) :
    s.Kept? (s.copyPage e pool q entry k) := by
  simp only [copyPage]
  repeat' split
  any_goals simp
  any_goals simp [kept_of_mk ‹_ = (_, _)›]
  exact (h _ _).trans (by simp [kept_of_mk ‹_ = (_, _)›])

@[simp] theorem doStage_kept? (e : Edit) (pool : Nat) (q : KvPool) (r : KvSeq) : s.Kept? (s.doStage e pool q r) := by
  simp only [doStage]
  (repeat' split) <;> try simp
  all_goals
    refine copyPage_kept? _ _ _ _ _ _ fun t f => ?_
    simp

@[simp] theorem replaceEntry_kept? (pool ref p f : Nat) : s.Kept? (s.replaceEntry pool ref p f) := by
  simp only [replaceEntry]
  repeat' split
  any_goals simp
  all_goals simp [(logEdit_kept? ..).of_some ‹_ = some _›]

@[simp] theorem stampFrame_kept (pool entry : Nat) : (s.stampFrame pool entry).kept = s.kept := by unfold stampFrame; (repeat' split) <;> simp
@[simp] theorem doInstall_kept? (e : Edit) (pool : Nat) (r : KvSeq) : s.Kept? (s.doInstall e pool r) := by
  simp only [doInstall]
  repeat' split
  any_goals simp
  all_goals exact (replaceEntry_kept? ..).of_some ‹_›

@[simp] theorem doPromote_kept? (e : Edit) (pool : Nat) (q : KvPool) (r : KvSeq) : s.Kept? (s.doPromote e pool q r) := by
  simp only [doPromote]
  (repeat' split) <;> try simp
  refine copyPage_kept? _ _ _ _ _ _ fun t f => ?_
  split
  · simp
  · next e => simp [(replaceEntry_kept? ..).of_some e]

@[simp] theorem sharePage_kept (pool child p entry : Nat) : (s.sharePage pool child p entry).kept = s.kept := by
  unfold sharePage
  (repeat' split) <;> simp

@[simp] theorem doFork_kept? (e : Edit) (pool : Nat) (q : KvPool) (r : KvSeq) : s.Kept? (s.doFork e pool q r) := by
  simp only [doFork]
  (repeat' split) <;> try simp
  refine copyPage_kept? _ _ _ _ _ _ fun t f => ?_
  simp

@[simp] theorem arriveEdits_kept : s.arriveEdits.kept = s.kept := by simp [arriveEdits]
@[simp] theorem applyEdit_kept (e : Edit) : (s.applyEdit e).kept = s.kept := by
  simp only [applyEdit]
  repeat' split
  any_goals simp
  all_goals simp [(useSeq_kept? ..).of_some ‹_ = some _›]

@[simp] theorem editRow_kept (op ix : Nat) : (s.editRow op ix).kept = s.kept := by simp only [editRow]; (repeat' split) <;> simp
@[simp] theorem beginSpill_kept (pool frm dst : Nat) (q : KvPool) : (s.beginSpill pool frm dst q).kept = s.kept := by
  unfold beginSpill
  split <;> simp

@[simp] theorem kvSpill_kept (pool : Nat) : (s.kvSpill pool).kept = s.kept := by simp only [kvSpill]; (repeat' split) <;> simp
@[simp] theorem holdSpill_kept (x : Spill) : (s.holdSpill x).kept = s.kept := by unfold holdSpill; split <;> rfl
@[simp] theorem installSpill_kept? (x : Spill) : s.Kept? (s.installSpill x) := by
  have each (l : List (Nat × Nat)) {o : Option State} (h : s.Kept? o) : s.Kept? (l.foldl (fun (a : Option State) r => match a with
      | some s => s.replaceEntry x.pool r.1 r.2 x.dst
      | none => none) o) := by
    induction l generalizing o with
    | nil => exact h
    | cons r l ih =>
      refine ih ?_
      cases o with
      | none => simp
      | some t => exact (Kept?.trans (replaceEntry_kept? ..) h)
  unfold installSpill
  split
  · simp
  · exact each _ rfl

@[simp] theorem spillDone_kept (ix : Nat) (ok : Bool) : (s.spillDone ix ok).kept = s.kept := by
  simp only [spillDone]
  repeat' split
  any_goals simp
  all_goals simp [(installSpill_kept? ..).of_some ‹_ = some _›]

@[simp] theorem evictRecord_kept (ref : Nat) : (s.evictRecord ref).kept = s.kept := by simp only [evictRecord]; (repeat' split) <;> simp
@[simp] theorem freeLogSlots_kept (ref : Nat) : (s.freeLogSlots ref).kept = s.kept := by unfold freeLogSlots; split <;> rfl
@[simp] theorem releaseFrame_kept (pool entry : Nat) : (s.releaseFrame pool entry).kept = s.kept := by unfold releaseFrame; (repeat' split) <;> simp

end State

/-! ## Matrix -/

namespace State

variable (s : State)

@[simp] theorem modMx_kept (c : Nat) (g : Matrix → Matrix) : (s.modMx c g).kept = s.kept := (rfl)
@[simp] theorem feedRow_kept (c bank : Nat) (p : PassSpec) (l : PanelLoad) (r : RowSrc) : (s.feedRow c bank p l r).kept = s.kept := by simp [feedRow]
@[simp] theorem feed_kept? (c bank lo hi : Nat) (p : PassSpec) (l : PanelLoad) : s.Kept? (s.feed c bank lo hi p l) := by
  simp only [feed]
  split <;> simp

@[simp] theorem doAccst_kept (c bank tile count ncol : Nat) (ofmt : Fmt) (base dstr tstr mask : Nat) (rel : Bool) : (s.doAccst c bank tile count ncol ofmt base dstr tstr mask rel).kept = s.kept := by
  simp only [doAccst]
  split <;> (try simp) <;>
    refine foldl_kept _ (fun t q => foldl_kept _ (fun u i => ?_) _ _) _ _ <;>
    split <;> simp

@[simp] theorem doAccmv_kept (c bank tile vreg : Nat) (rel : Bool) : (s.doAccmv c bank tile vreg rel).kept = s.kept := by
  unfold doAccmv
  split <;> rfl

@[simp] theorem doAccz_kept (c bank tile count : Nat) : (s.doAccz c bank tile count).kept = s.kept := (rfl)
@[simp] theorem doAccsv_kept (c bank base : Nat) : (s.doAccsv c bank base).kept = s.kept := by simp [doAccsv]
@[simp] theorem doAccld_kept (c bank base : Nat) : (s.doAccld c bank base).kept = s.kept := (rfl)
@[simp] theorem doConvInit_kept (c bank : Nat) (rows : List (Nat × Nat)) (bias : Option Nat) (isInt : Bool) : (s.doConvInit c bank rows bias isInt).kept = s.kept :=
  (rfl)

@[simp] theorem gatherClose_kept (c dst uid mask : Nat) : (s.gatherClose c dst uid mask).kept = s.kept := (rfl)
@[simp] theorem popEntry_kept (c : Nat) : (s.popEntry c).kept = s.kept := (rfl)
@[simp] theorem entryFault_kept (c : Nat) (e : MEntry) (i : FaultInfo) : (s.entryFault c e i).kept = s.kept := by simp [entryFault]
@[simp] theorem runFront_kept (c : Nat) : (s.runFront c).2.kept = s.kept := by simp only [runFront]; (repeat' split) <;> simp
@[simp] theorem runQueue_kept (n : Nat) (s : State) (c : Nat) : (runQueue n s c).kept = s.kept := by
  induction n generalizing s with
  | zero => rfl
  | succ n ih =>
    simp only [runQueue]
    split <;> simp [ih]

@[simp] theorem runMatrix_kept (n c : Nat) : (runMatrix n s c).kept = s.kept := by unfold runMatrix; split <;> simp
@[simp] theorem enqueue_kept (i : Ins) (kind : MKind) (foot : Foot) : (s.enqueue i kind foot).2.kept = s.kept := (rfl)
@[simp] theorem enter_keeps (i : Ins) (kind : MKind) (foot : Foot) : (s.enter i kind foot).Keeps s := by unfold enter; split <;> simp

end State

@[simp] theorem orFault_keeps (s : State) (l : List (Option FaultInfo)) (k : IRes) (h : k.Keeps s) : (orFault s l k).Keeps s := by
  unfold orFault
  split <;> simp [h]

@[simp] theorem ploadBody_keeps (s : State) (trans : Bool) (i : Ins) : (ploadBody trans i s).Keeps s := by
  simp only [ploadBody, orFault]
  (repeat' split) <;> simp

@[simp] theorem mmaBody_keeps (s : State) (i : Ins) : (mmaBody i s).Keeps s := by simp only [mmaBody]; split <;> simp
@[simp] theorem mmawgBody_keeps (s : State) (i : Ins) : (mmawgBody i s).Keeps s := by
  simp only [mmawgBody, orFault]
  (repeat' split) <;> simp

@[simp] theorem acczBody_keeps (s : State) (i : Ins) : (acczBody i s).Keeps s := by simp [acczBody]
@[simp] theorem accstBody_keeps (s : State) (i : Ins) : (accstBody i s).Keeps s := by simp only [accstBody]; split <;> simp
@[simp] theorem accmvBody_keeps (s : State) (i : Ins) : (accmvBody i s).Keeps s := by simp [accmvBody]
@[simp] theorem accRawBody_keeps (s : State) (load : Bool) (i : Ins) : (accRawBody load i s).Keeps s := by simp [accRawBody]
@[simp] theorem gwsetBody_keeps (s : State) (i : Ins) : (gwsetBody i s).Keeps s := by simp [gwsetBody]
@[simp] theorem gwaitBody_keeps (s : State) (i : Ins) : (gwaitBody i s).Keeps s := by unfold gwaitBody; split <;> simp

/-! ## Row -/
@[simp] theorem Rows.free_kept (s : State) (c : Nat) (r : Rows) : (Rows.free s c r).kept = s.kept := State.iterate_kept _ _ (fun _ _ => State.freeRange_kept ..) _
@[simp] theorem Rows.put_kept (s : State) (c : Nat) (r : Rows) (clash : Bool) (i : Nat) (vs : List XF) : (Rows.put s c r clash i vs).kept = s.kept := by
  unfold Rows.put
  split <;> simp

@[simp] theorem addPair_kept (s : State) (c a : Nat) (x : XF) : (addPair s c a x).kept = s.kept := by unfold addPair; split <;> simp
@[simp] theorem normOp_keeps (bwd : Bool) (i : Ins) (s : State) : (normOp bwd i s).Keeps where
  free t := by
    simp only [normOp]
    split <;> simp
  act t := by
    simp only [normOp, State.kept_ite, State.forget_kept, ite_self]
    refine State.iterate_kept _ _ (fun r t => ?_) _
    (repeat' split) <;> simp

@[simp] theorem normBody_keeps (bwd : Bool) (i : Ins) (s : State) : (normBody bwd i s).Keeps s := by
  unfold normBody
  split <;> simp

@[simp] theorem smaxOp_keeps (bwd : Bool) (i : Ins) (s : State) : (smaxOp bwd i s).Keeps where
  free t := by simp [smaxOp]
  act t := by
    simp only [smaxOp]
    refine State.iterate_kept _ _ (fun r t => ?_) _
    (repeat' split) <;> simp

@[simp] theorem smaxBody_keeps (bwd : Bool) (i : Ins) (s : State) : (smaxBody bwd i s).Keeps s := by
  unfold smaxBody
  split <;> simp

@[simp] theorem rstatOp_keeps (i : Ins) (s : State) : (rstatOp i s).Keeps where
  free t := by simp [rstatOp]
  act t := by
    simp only [rstatOp]
    split <;> simp

@[simp] theorem rstatBody_keeps (i : Ins) (s : State) : (rstatBody i s).Keeps s := VOp.run_keeps (rstatOp_keeps i s) i s

@[simp] theorem rfinOp_keeps (i : Ins) (s : State) : (rfinOp i s).Keeps where
  free t := by simp [rfinOp]
  act t := by
    simp only [rfinOp]
    split <;> simp

@[simp] theorem rfinBody_keeps (i : Ins) (s : State) : (rfinBody i s).Keeps s := VOp.run_keeps (rfinOp_keeps i s) i s

@[simp] theorem smstOp_keeps (i : Ins) (s : State) : (smstOp i s).Keeps := ⟨fun _ => by simp [smstOp], fun _ => by simp [smstOp]⟩
@[simp] theorem smBody_keeps (load : Bool) (i : Ins) (s : State) : (smBody load i s).Keeps s := by
  simp only [smBody, State.enterUnit]
  (repeat' split) <;> simp

/-! ## Attention -/

namespace State

variable (s : State)

@[simp] theorem putRow_kept (c : Nat) (f : Fmt) (a : Nat) (vs : List XF) : (s.putRow c f a vs).kept = s.kept := by simp [putRow]
@[simp] theorem setWalk_kept (c e : Nat) (w : Walk) : (s.setWalk c e w).kept = s.kept := (rfl)
@[simp] theorem attnFree_kept (c : Nat) (a : Attn) : (s.attnFree c a).kept = s.kept := by simp [attnFree]
@[simp] theorem endAttn_kept (c : Nat) : (s.endAttn c).kept = s.kept := by unfold endAttn; (repeat' split) <;> simp
@[simp] theorem walkEnd_kept (c : Nat) (a : Attn) (ix : Nat) (w : Walk) (keep : Bool) : (s.walkEnd c a ix w keep).kept = s.kept := by
  unfold walkEnd
  (repeat' split) <;> simp

@[simp] theorem touchPages_kept (pool : Nat) (pages : SMap Nat) (ps : List Nat) : (s.touchPages pool pages ps).kept = s.kept := by
  unfold touchPages
  split <;> rfl

@[simp] theorem fwdEntry_kept (c : Nat) (a : Attn) (e : AttEntry) (w : Walk) (q : KvPool) (ts : List Tile) : (s.fwdEntry c a e w q ts).kept = s.kept := by
  simp only [fwdEntry]
  refine foldl_kept _ (fun t r => ?_) _ _
  split
  simp

@[simp] theorem backEntry_kept (c : Nat) (a : Attn) (e : AttEntry) (w : Walk) (q : KvPool) (ts : List Tile) : (s.backEntry c a e w q ts).kept = s.kept := by
  simp only [backEntry]
  refine foldl_kept _ (fun t r => ?_) _ _
  split
  simp

@[simp] theorem keyGroup_kept (c : Nat) (a : Attn) (q : KvPool) (es : List (AttEntry × Walk × Tile)) : (s.keyGroup c a q es).kept = s.kept := by
  simp only [keyGroup]
  split
  split
  · rfl
  · rw [foldl_kept]
    · simp
    · intro t r
      (repeat' split) <;> simp

theorem beginWalk_kept {c ix : Nat} {a : Attn} {t : State} (h : s.beginWalk c a ix = .ok t) : t.kept = s.kept := by
  simp only [beginWalk] at h
  (repeat' split at h) <;> cases h
  · rfl
  · simp
  · next used => simp [(useSeq_kept? ..).of_some used]

theorem nextWalk_kept {c : Nat} {t : State} (h : s.nextWalk c = .ok t) : t.kept = s.kept := by
  simp only [nextWalk] at h
  repeat' split at h
  any_goals exact beginWalk_kept s h
  all_goals cases h; rfl

@[simp] theorem walkComplete_kept (c ix : Nat) : (s.walkComplete c ix).kept = s.kept := by
  unfold walkComplete
  split
  · rfl
  split
  · rfl
  extract_lets fail
  have failed (t : State) (i : FaultInfo) : (fail t i).kept = t.kept := fault_kept ..
  clear_value fail
  split
  rotate_left
  · rfl
  split
  · rfl
  split
  · repeat' split
    any_goals rfl
    any_goals exact failed ..
    all_goals exact beginWalk_kept s ‹_ = Except.ok _›
  split
  rotate_left
  · rfl
  extract_lets ps tiles rows
  clear_value ps rows
  split
  · exact failed ..
  split
  · exact failed ..
  extract_lets begun touched bent
  have begunKept : begun.kept = s.kept := by
    unfold begun
    split <;> simp
  have touchedKept : touched.kept = s.kept := by simp [touched, begunKept]
  clear_value begun touched bent
  split
  · exact begunKept
  split
  · exact begunKept
  split
  · simp [failed, begunKept]
  split
  · simp [failed, begunKept]
  extract_lets bytes seen grp grouped ts worked outs ended
  have seenKept : seen.kept = s.kept := by
    unfold seen
    split <;> simp [touchedKept]
  have endedKept : ended.kept = s.kept := by
    unfold ended outs worked grouped
    (repeat' split) <;> simp [seenKept]
  clear_value bytes ended
  split
  · simp [seenKept]
  split
  · next going => simp [nextWalk_kept _ going, endedKept]
  · exact (failed ..).trans endedKept

end State

@[simp] theorem attBody_keeps (bwd : Bool) (i : Ins) (s : State) : (attBody bwd i s).Keeps s := by
  simp only [attBody]
  repeat' split
  any_goals simp
  next begun => simp [State.nextWalk_kept _ begun]

@[simp] theorem kvopBody_keeps (s : State) (i : Ins) : (kvopBody i s).Keeps s := by
  simp only [kvopBody, State.enterUnit]
  (repeat' split) <;> simp

/-! ## Conv -/
@[simp] theorem convBody_keeps (s : State) (i : Ins) : (convBody i s).Keeps s := by
  simp only [convBody, orFault]
  (repeat' split) <;> simp

theorem withLink_keeps (role : Nat) (i : Ins) (s : State) (k : List Byte → W32 → IRes) (h : ∀ d v, (k d v).Keeps s) :
    (withLink role i s k).Keeps s := by
  simp only [withLink]
  (repeat' split) <;> simp [h]

@[simp] theorem haloSignal_kept (s : State) (i : Ins) (d : List Byte) (k : W32) (after : List Nat) : (haloSignal i s d k after).kept = s.kept := (rfl)
@[simp] theorem haloSendBody_keeps (s : State) (i : Ins) : (haloSendBody i s).Keeps s := by
  simp only [haloSendBody]
  refine withLink_keeps _ _ _ _ fun d v => ?_
  (repeat' split) <;> simp

@[simp] theorem haloWaitBody_keeps (s : State) (i : Ins) : (haloWaitBody i s).Keeps s := by
  simp only [haloWaitBody]
  refine withLink_keeps _ _ _ _ fun d v => ?_
  split <;> simp

@[simp] theorem stemBody_keeps (s : State) (i : Ins) : (stemBody i s).Keeps s := by unfold stemBody; split <;> simp

namespace State

variable (s : State)

@[simp] theorem stemFault_kept (e : Nat) (j : StemJob) (i : FaultInfo) : (s.stemFault e j i).kept = s.kept := by simp [stemFault]
@[simp] theorem stemArrive_kept (c : Nat) : (s.stemArrive c).kept = s.kept := by simp only [stemArrive]; (repeat' split) <;> simp
@[simp] theorem stemGrant_kept (e : Nat) : (s.stemGrant e).kept = s.kept := by simp only [stemGrant]; (repeat' split) <;> simp
@[simp] theorem stemStart_kept (e : Nat) : (s.stemStart e).kept = s.kept := by simp only [stemStart]; (repeat' split) <;> simp
@[simp] theorem stemDone_kept (e : Nat) : (s.stemDone e).kept = s.kept := by simp only [stemDone]; (repeat' split) <;> simp

end State

@[simp] theorem haloReleaseBody_keeps (s : State) (i : Ins) : (haloReleaseBody i s).Keeps s := by
  simp only [haloReleaseBody]
  refine withLink_keeps _ _ _ _ fun d v => ?_
  split <;> simp

/-! ## Streams -/

namespace State

variable (s : State)

@[simp] theorem modStream_kept (st : Nat) (g : Stream → Stream) : (s.modStream st g).kept = s.kept := by unfold modStream; split <;> rfl
@[simp] theorem modRun_kept (st : Nat) (g : Run → Run) : (s.modRun st g).kept = s.kept := by simp [modRun]
@[simp] theorem bringIn_kept (slice : Nat) : (s.bringIn slice).kept = s.kept := by unfold bringIn; (repeat' split) <;> simp
@[simp] theorem sliceExpiry_kept (st : Nat) : (s.sliceExpiry st).kept = s.kept := by unfold sliceExpiry; (repeat' split) <;> simp
@[simp] theorem granted_kept (st : Nat) (x : Stream) : (s.granted st x).kept = s.kept := by unfold granted; split <;> rfl
@[simp] theorem post_kept (st : Nat) (d : Posted) : (s.post st d).kept = s.kept := by unfold post; split <;> simp
@[simp] theorem deliver_kept (n : Nat) : (deliver n s).kept = s.kept := by
  induction n generalizing s with
  | zero => rfl
  | succ n ih =>
    simp only [deliver]
    split
    · rfl
    · simp [ih]

@[simp] theorem finish_kept (st status : Nat) : (s.finish st status).kept = s.kept := by simp [finish]
theorem streamRow_kept (st ty : Nat) (check : State → Stream → List Byte → Bool) (begin' piece : State → Nat → State)
    (hb : ∀ t n, (begin' t n).kept = t.kept) (hp : ∀ t n, (piece t n).kept = t.kept) :
    (s.streamRow st ty check begin' piece).kept = s.kept := by
  simp only [streamRow]
  (repeat' split) <;> simp [hb, hp]

@[simp] theorem withData_kept (st vl : Nat) (rs : List (Nat × Nat)) (k : State → Nat → List (Byte × Bool) → State)
    (h : ∀ t e bs, (k t e bs).kept = t.kept) : (s.withData st vl rs k).kept = s.kept := by
  simp only [withData]
  (repeat' split) <;> simp [h]

@[simp] theorem putStream_kept (st vl g : Nat) (bs : List (Byte × Bool)) : (s.putStream st vl g bs).kept = s.kept := by
  simp only [putStream]
  split <;> simp

@[simp] theorem nextPiece_kept (st total : Nat) : (s.nextPiece st total).kept = s.kept := by unfold nextPiece; (repeat' split) <;> simp
@[simp] theorem copyBegin_kept (st : Nat) : (s.copyBegin st).kept = s.kept := by unfold copyBegin; (repeat' split) <;> simp
@[simp] theorem copyPiece_kept (st : Nat) : (s.copyPiece st).kept = s.kept := by
  simp only [copyPiece]
  split
  · rfl
  · refine withData_kept _ _ _ _ _ fun t e bs => ?_
    split <;> simp

@[simp] theorem fillPiece_kept (st : Nat) : (s.fillPiece st).kept = s.kept := by unfold fillPiece; split <;> simp
@[simp] theorem savePiece_kept (st : Nat) : (s.savePiece st).kept = s.kept := by
  simp only [savePiece]
  split
  · rfl
  split
  · simp
  · refine withData_kept _ _ _ _ _ fun t e bs => ?_
    (repeat' split) <;> simp

@[simp] theorem loadPiece_kept (fuel st : Nat) : (loadPiece fuel s st).kept = s.kept := by
  induction fuel generalizing s with
  | zero => rfl
  | succ fuel ih =>
    simp only [loadPiece]
    repeat' split
    any_goals rfl
    all_goals
      refine withData_kept _ _ _ _ _ fun t e bs => ?_
      (repeat' split) <;> simp [ih]

@[simp] theorem kvfetchLatch_kept (st : Nat) : (s.kvfetchLatch st).kept = s.kept := by
  simp only [kvfetchLatch]
  repeat' split
  any_goals simp
  next used => simp [(useSeq_kept? ..).of_some used]

@[simp] theorem kvfetchPiece_kept (st : Nat) : (s.kvfetchPiece st).kept = s.kept := by
  unfold kvfetchPiece
  split
  · rfl
  extract_lets d pool latched
  have h : latched.kept = s.kept := by
    unfold latched
    split <;> simp
  clear_value latched
  split
  rotate_left
  · exact h
  split
  · simp [h]
  extract_lets n
  refine (withData_kept _ _ _ _ _ fun t e bs => ?_).trans h
  split <;> simp

@[simp] theorem redElem_kept (st op okind ofmt : Nat) (ea : Int) (g : Nat) (v : List Byte) : (s.redElem st op okind ofmt ea g v).kept = s.kept := by
  simp only [redElem]
  repeat' split
  any_goals simp
  next sent => simp [request_kept _ sent]

@[simp] theorem redPiece_kept (st : Nat) : (s.redPiece st).kept = s.kept := by
  simp only [redPiece]
  split
  · rfl
  · refine withData_kept _ _ _ _ _ fun t e bs => ?_
    split
    · simp
    · simp only [nextPiece_kept, modStream_kept]
      refine iterate_kept _ _ (fun i u => ?_) _
      split <;> simp

@[simp] theorem xwopenPiece_kept (st : Nat) : (s.xwopenPiece st).kept = s.kept := by simp only [xwopenPiece]; (repeat' split) <;> simp
@[simp] theorem xwclosePiece_kept (st : Nat) : (s.xwclosePiece st).kept = s.kept := by simp only [xwclosePiece]; (repeat' split) <;> simp
@[simp] theorem waitPiece_kept (st : Nat) : (s.waitPiece st).kept = s.kept := by simp only [waitPiece]; (repeat' split) <;> simp
@[simp] theorem waitTimeout_kept (st : Nat) : (s.waitTimeout st).kept = s.kept := by simp only [waitTimeout]; (repeat' split) <;> simp
@[simp] theorem retire_kept (st : Nat) (x : Stream) (r : Run) : (s.retire st x r).kept = s.kept := by
  simp only [retire]
  (repeat' split) <;> simp

@[simp] theorem writeResult_kept (st : Nat) (r : Run) : (s.writeResult st r).kept = s.kept := by
  simp only [writeResult]
  repeat' split
  any_goals simp
  all_goals simp [(kept_of_mk ‹_ = (_, _)› : State.kept _ = _)]

@[simp] theorem signalDone_kept (st : Nat) (r : Run) : (s.signalDone st r).kept = s.kept := by simp only [signalDone]; (repeat' split) <;> simp
@[simp] theorem descComplete_kept (st : Nat) : (s.descComplete st).kept = s.kept := by
  unfold descComplete
  extract_lets begun
  have begunKept : begun.kept = s.kept := by
    unfold begun
    (repeat' split) <;> simp
  clear_value begun
  split
  · exact begunKept
  split
  · exact begunKept
  extract_lets poison marked written told
  have toldKept : told.kept = s.kept := by
    unfold told written marked
    (repeat' split) <;> simp [begunKept]
  clear_value told
  (repeat' split) <;> simp [toldKept]

end State

@[simp] theorem spostBody_keeps (s : State) (i : Ins) : (spostBody i s).Keeps s := by
  simp only [spostBody, State.enterUnit]
  (repeat' split) <;> simp

@[simp] theorem nothing_kept (s : State) (n : Nat) : (nothing s n).kept = s.kept := (rfl)

namespace State

variable (s : State)

@[simp] theorem undoLong_kept (w : LongWork) : (s.undoLong w).kept = s.kept := by unfold undoLong; (repeat' split) <;> simp
@[simp] theorem cancelAny_kept (st : Nat) : (s.cancelAny st).kept = s.kept := by unfold cancelAny; (repeat' split) <;> simp

end State

theorem withStream_kept (m : MbxCmd) (s : State) (k : Nat → Stream → Ans × State) (h : ∀ n x, (k n x).2.kept = s.kept) :
    (withStream m s k).2.kept = s.kept := by
  simp only [withStream]
  (repeat' split) <;> simp [h]

/-! ## Ingest -/

namespace State

variable (s : State)

@[simp] theorem modClip_kept (e : Nat) (g : ClipRun → ClipRun) : (s.modClip e g).kept = s.kept := (rfl)
@[simp] theorem clipScan_kept (d : List Byte) (fuel e : Nat) : (clipScan d fuel s e).2.kept = s.kept := by
  induction fuel generalizing s with
  | zero => rfl
  | succ fuel ih =>
    simp only [clipScan]
    (repeat' split) <;> simp [ih]

@[simp] theorem clipSpoil_kept (e : Nat) (r : ClipRun) : (s.clipSpoil e r).2.kept = s.kept := by unfold clipSpoil; split <;> simp
@[simp] theorem clipClose_kept (e : Nat) : (s.clipClose e).kept = s.kept := by simp only [clipClose]; (repeat' split) <;> simp
@[simp] theorem clipEnd_kept (e : Nat) (r : ClipRun) (status reason decoded : Nat) : (s.clipEnd e r status reason decoded).kept = s.kept := by
  simp [clipEnd]

@[simp] theorem clipRun_kept (e : Nat) (r : ClipRun) (status reason : Nat) (us : List (List Byte)) : (s.clipRun e r status reason us).kept = s.kept := by
  unfold clipRun
  extract_lets d dec
  split
  · simp
  split
  · simp
  split
  · rfl
  split
  next lost =>
  split
  next sent =>
  have folded := congrArg (fun q => q.2.2.2.kept) sent
  rw [foldl_keeps (fun q : Nat × Nat × List Nat × State => q.2.2.2.kept) (fun _ _ => gWrite_kept ..)] at folded
  simp [← folded]

@[simp] theorem clipAnswer_kept (e t status : Nat) : (s.clipAnswer e t status).kept = s.kept := (rfl)
@[simp] theorem clipComplete_kept (e : Nat) : (s.clipComplete e).kept = s.kept := by
  unfold clipComplete
  split
  · rfl
  next r running =>
  extract_lets key
  split
  · simp
  split
  next q t read =>
  have readKept : t.kept = s.kept := by
    rw [kept_of_mk read]
    repeat' split
    any_goals rfl
    · simp
    · simp
    · extract_lets d r
      split <;> simp
  split
  · exact readKept
  split
  all_goals next scanned => simp [kept_of_mk scanned, readKept]

@[simp] theorem clipTimeout_kept (e : Nat) : (s.clipTimeout e).kept = s.kept := by unfold clipTimeout; (repeat' split) <;> simp
@[simp] theorem clipStart_kept (e : Nat) : (s.clipStart e).kept = s.kept := by unfold clipStart; (repeat' split) <;> simp
@[simp] theorem batchArrive_kept (st : Nat) (h : List Byte) : (s.batchArrive st h).kept = s.kept := (rfl)
@[simp] theorem batchRefuse_kept (k st : Nat) : (batchRefuse k s st).kept = s.kept := by
  induction k generalizing s with
  | zero => rfl
  | succ k ih =>
    simp only [batchRefuse]
    (repeat' split) <;> simp [ih]

@[simp] theorem batchEnd_kept (st : Nat) : (s.batchEnd st).2.kept = s.kept := by simp only [batchEnd]; (repeat' split) <;> simp
@[simp] theorem ingestPiece_kept (st : Nat) : (s.ingestPiece st).kept = s.kept := by
  unfold ingestPiece
  split
  · rfl
  extract_lets begun
  have begunKept : begun.kept = s.kept := by
    unfold begun
    split
    · rfl
    · refine withData_kept _ _ _ _ _ fun t e bs => ?_
      (repeat' split) <;> simp
  clear_value begun
  split
  · split
    · exact begunKept
    split
    all_goals next ended => simp [kept_of_mk ended, begunKept]
  · exact begunKept

@[simp] theorem submitGo_kept (st : Nat) : (s.submitGo st).kept = s.kept := by simp only [submitGo]; (repeat' split) <;> simp

end State

/-! ## Requests -/

namespace State

variable (s : State)

@[simp] theorem reply_kept (p : Packet) (status : Nat) (bs : optParam (List (Byte × Bool)) []) (frozen : Bool) : (s.reply p status bs frozen).kept = s.kept := by
  simp [reply]

@[simp] theorem heard_kept (link : Nat) (p : Packet) : (s.heard link p).2.kept = s.kept := by unfold heard; (repeat' split) <;> simp
theorem unanswered_kept (link : Nat) (p : Packet) (run : State → State) (h : ∀ t, (run t).kept = t.kept) :
    (s.unanswered link p run).kept = s.kept := by
  simp only [unanswered]
  (repeat' split) <;> simp [h]

theorem serve_kept (link : Nat) (p : Packet) (ok : Bool) (run : State → State) (h : ∀ t, (run t).kept = t.kept) :
    (s.serve link p ok run).kept = s.kept := by
  simp only [serve]
  split
  · rfl
  split
  · next e t heard => simp [kept_of_mk heard]
  · next t heard => split <;> simp [h, kept_of_mk heard]

@[simp] theorem onRead_kept (link : Nat) (p : Packet) : (s.onRead link p).kept = s.kept := by
  unfold onRead
  refine serve_kept _ _ _ _ _ fun t => ?_
  (repeat' split) <;> simp

@[simp] theorem onWrite_kept (link : Nat) (p : Packet) : (s.onWrite link p).kept = s.kept := by
  unfold onWrite
  refine serve_kept _ _ _ _ _ fun t => ?_
  split
  · simp
  split
  next written => simp [kept_of_mk written]

@[simp] theorem onAtomic_kept (link : Nat) (p : Packet) : (s.onAtomic link p).kept = s.kept := by
  unfold onAtomic
  refine serve_kept _ _ _ _ _ fun t => ?_
  split
  · simp
  split
  · simp
  split
  next numbered => simp [kept_of_mk numbered]

@[simp] theorem onFlag_kept (link : Nat) (p : Packet) : (s.onFlag link p).kept = s.kept := by
  unfold onFlag
  refine serve_kept _ _ _ _ _ fun t => ?_
  (repeat' split) <;> simp

@[simp] theorem onReserved_kept (link : Nat) (p : Packet) : (s.onReserved link p).kept = s.kept := serve_kept _ _ _ _ _ fun _ => rfl

end State

/-! ## Bucket -/

namespace State

variable (s : State)

@[simp] theorem setBucket_kept (b : Nat) (x : Bucket) : (s.setBucket b x).kept = s.kept := (rfl)
@[simp] theorem modBucket_kept (b : Nat) (g : Bucket → Bucket) : (s.modBucket b g).kept = s.kept := by unfold modBucket; split <;> rfl
@[simp] theorem modBRun_kept (b : Nat) (g : BucketRun → BucketRun) : (s.modBRun b g).kept = s.kept := by simp [modBRun]
@[simp] theorem setRing_kept (r : Nat) (x : Ring) : (s.setRing r x).kept = s.kept := (rfl)
@[simp] theorem modRing_kept (r : Nat) (g : Ring → Ring) : (s.modRing r g).kept = s.kept := by unfold modRing; split <;> rfl
@[simp] theorem ringTouch_kept (r : Nat) : (s.ringTouch r).kept = s.kept := by simp [ringTouch]
@[simp] theorem stepFail_kept (b status : Nat) : (s.stepFail b status).kept = s.kept := by unfold stepFail; (repeat' split) <;> simp
@[simp] theorem ringPump_kept (r : Nat) : (s.ringPump r).kept = s.kept := by simp only [ringPump]; (repeat' split) <;> simp
@[simp] theorem ringSent_kept (r : Nat) : (s.ringSent r).kept = s.kept := by
  unfold ringSent
  split
  · rfl
  split
  rotate_left
  · simp
  split
  · rfl
  split
  · extract_lets seq
    split
    next sent =>
    have kept := congrArg (fun q => q.2.2.kept) sent
    extract_lets noted
    split
    · simp [noted, ← kept]
    · split <;> simp [noted, ← kept]
  · simp

@[simp] theorem ringAnswer_kept (r status : Nat) : (s.ringAnswer r status).kept = s.kept := by simp only [ringAnswer]; (repeat' split) <;> simp
@[simp] theorem emitSegment_kept (b shard hop ix : Nat) (before after : List Part) (xs : List XF) : (s.emitSegment b shard hop ix before after xs).kept = s.kept := by
  unfold emitSegment
  (repeat' split) <;> simp

@[simp] theorem normAdd_kept (spans : List (Nat × Nat)) (i : Nat) (x : XF) : (s.normAdd spans i x).kept = s.kept := by
  simp only [normAdd]
  (repeat' split) <;> simp

@[simp] theorem writeShard_kept (b : Nat) (vals : List (XF × Nat)) : (s.writeShard b vals).kept = s.kept := by
  simp only [writeShard]
  (repeat' split) <;> simp

@[simp] theorem floatBegin_kept (b : Nat) : (s.floatBegin b).kept = s.kept := by unfold floatBegin; (repeat' split) <;> simp
@[simp] theorem floatEnd_kept (b : Nat) : (s.floatEnd b).kept = s.kept := by unfold floatEnd; (repeat' split) <;> simp
@[simp] theorem shardDone_kept (b : Nat) (ps : List Part) : (s.shardDone b ps).kept = s.kept := by unfold shardDone; (repeat' split) <;> simp
@[simp] theorem sendOwn_kept (b : Nat) : (s.sendOwn b).kept = s.kept := by
  simp only [sendOwn]
  repeat' split
  any_goals rfl
  exact iterate_kept _ _ (fun j t => by simp) _

@[simp] theorem skipEmpty_kept (k b : Nat) : (skipEmpty k s b).kept = s.kept := by
  induction k generalizing s with
  | zero => rfl
  | succ k ih =>
    simp only [skipEmpty]
    (repeat' split) <;> simp [ih]

@[simp] theorem sendSparse_kept (b i : Nat) (a : XF) : (s.sendSparse b i a).kept = s.kept := by
  simp only [sendSparse]
  repeat' split
  any_goals simp
  next sent => simp [request_kept _ sent]

@[simp] theorem sparseAdvance_kept (b : Nat) : (s.sparseAdvance b).kept = s.kept := by
  unfold sparseAdvance
  split
  · rfl
  split
  rotate_left
  · rfl
  split
  · rfl
  extract_lets begun
  refine (iterate_kept _ _ (fun k t => ?_) _).trans (modBRun_kept ..)
  split
  · rfl
  extract_lets a
  split
  next sent =>
  have kept := congrArg (fun q => q.2.2.kept) sent
  extract_lets noted
  split <;> simp [noted, ← kept]

@[simp] theorem bucketAnswer_kept (b status : Nat) : (s.bucketAnswer b status).kept = s.kept := by simp only [bucketAnswer]; (repeat' split) <;> simp
@[simp] theorem storeResiduals_kept (d : BucketDef) (as' : List XF) (xt : Nat) : (s.storeResiduals d as' xt).kept = s.kept := by
  unfold storeResiduals
  (repeat' split) <;> simp

@[simp] theorem bucketStart_kept (b : Nat) : (s.bucketStart b).kept = s.kept := by
  unfold bucketStart
  split
  · rfl
  extract_lets d ng fetched spans ready
  split
  · rfl
  have fetchedKept : fetched.kept = s.kept := by
    unfold fetched
    split <;> simp
  have readyKept : ready.kept = s.kept := by simp [ready, fetchedKept]
  clear_value spans ready fetched
  split
  · exact fetchedKept
  extract_lets sp run begun
  have begunKept : begun.kept = s.kept := by simp [begun, readyKept]
  clear_value begun
  split
  · simp [begunKept]
  split
  · simp [begunKept]
  split
  · simp [begunKept]
  split
  · simp [begunKept]
  extract_lets xt sent kept noted
  have notedKept : noted.kept = s.kept := by simp [noted, kept, begunKept]
  clear_value noted
  split
  · split <;> simp [notedKept]
  · rw [sparseAdvance_kept, foldl_kept]
    · exact notedKept
    · intro t a
      split <;> simp

@[simp] theorem segmentArrival_kept (r : Nat) : (s.segmentArrival r).kept = s.kept := by
  unfold segmentArrival
  split
  rotate_left
  · rfl
  split
  · rfl
  extract_lets d slot hd sh n bs wideIn ps xs hop out seq heard pred told last counted more passed
  have passedKept : passed.kept = s.kept := by
    unfold passed more counted told heard
    split <;> simp
  have moreKept : more.kept = s.kept := by
    unfold more counted told heard
    split <;> simp
  split
  · rfl
  split
  · simp
  split
  · simp
  split
  · simp
  clear_value passed more out xs
  split
  · exact moreKept
  split
  · simp [passedKept]
  · simp [passedKept]

@[simp] theorem sparseClose_kept (b : Nat) : (s.sparseClose b).kept = s.kept := by simp only [sparseClose]; (repeat' split) <;> simp
@[simp] theorem ringTimeout_kept (r : Nat) : (s.ringTimeout r).kept = s.kept := by unfold ringTimeout; (repeat' split) <;> simp
@[simp] theorem bucketDone_kept (b : Nat) : (s.bucketDone b).kept = s.kept := by simp only [bucketDone]; (repeat' split) <;> simp
@[simp] theorem bucketPiece_kept (st : Nat) : (s.bucketPiece st).kept = s.kept := by simp only [bucketPiece]; (repeat' split) <;> simp
@[simp] theorem foldPiece_kept (st : Nat) : (s.foldPiece st).kept = s.kept := by
  unfold foldPiece
  split
  · rfl
  extract_lets d nsrc cnt pair pairOut es vl listAt second
  have secondKept (t : State) (bs : List Byte) : (second t bs).kept = t.kept := by
    refine withData_kept _ _ _ _ _ fun t e bs => ?_
    split <;> simp
  clear_value second
  split
  · refine withData_kept _ _ _ _ _ fun t e bs => ?_
    split
    · simp
    split
    · simp
    extract_lets read ranks asked
    have askedKept : asked.kept = t.kept := modRun_kept ..
    split
    · simp
    · exact (secondKept ..).trans askedKept
  · exact secondKept ..

@[simp] theorem normOut_kept (status n : Nat) : (s.normOut status n).kept = s.kept := (rfl)
@[simp] theorem normSend_kept (c : NormCfg) (i : Nat) : (s.normSend c i).kept = s.kept := by
  simp only [normSend]
  repeat' split
  any_goals simp
  next sent => simp [request_kept _ sent]

@[simp] theorem normHomeStep_kept (c : NormCfg) (g : Ring) : (s.normHomeStep c g).kept = s.kept := by
  simp only [normHomeStep]
  (repeat' split) <;> simp

@[simp] theorem normBegin_kept (st : Nat) : (s.normBegin st).kept = s.kept := by unfold normBegin; split <;> simp
@[simp] theorem normSet_kept (g : NormRun → NormRun) : (s.normSet g).kept = s.kept := (rfl)
@[simp] theorem normPiece_kept (st : Nat) : (s.normPiece st).kept = s.kept := by
  unfold normPiece
  split
  · simp
  next c g heq =>
  extract_lets noTr begun
  have begunKept : begun.kept = s.kept := by
    unfold begun
    split <;> rfl
  clear_value begun
  split
  · exact begunKept
  split
  · exact begunKept
  extract_lets closed a told out
  have closedKept : closed.kept = s.kept := by
    unfold closed
    split
    · split
      · simp [begunKept]
      split
      next shut =>
      have shutKept := congrArg (fun q => q.2.2.kept) shut
      simp only [closeRegion_kept] at shutKept
      extract_lets sent zeroed opened
      have sentKept : sent.kept = s.kept := by
        refine (iterate_kept _ _ (fun i t => normSend_kept ..) _).trans ?_
        rw [← shutKept, begunKept]
      split <;> simp [opened, zeroed, sentKept]
    · exact begunKept
  clear_value closed
  have toldKept : told.kept = s.kept := by
    unfold told
    split
    · split
      · split
        next sent =>
        have sentKept := congrArg (fun q => q.2.2.kept) sent
        simp only [gWrite_kept] at sentKept
        simp [← sentKept, closedKept]
      · exact closedKept
    · exact closedKept
  have outKept : out.kept = s.kept := by simp [out, toldKept]
  clear_value out
  split
  · exact outKept
  extract_lets ovr ended
  split
  · exact outKept
  · simp [ended, ← outKept]

end State

@[simp] theorem bfillBody_keeps (s : State) (i : Ins) : (bfillBody i s).Keeps s := by simp only [bfillBody]; (repeat' split) <;> simp
@[simp] theorem optimOp_keeps (i : Ins) (s : State) : (optimOp i s).Keeps where
  free t := by
    simp only [optimOp]
    refine State.foldl_kept _ (fun t a => ?_) _ _
    split <;> simp
  act t := by
    simp only [optimOp]
    refine State.iterate_kept _ _ (fun k t => ?_) _
    split
    simp

@[simp] theorem optimBody_keeps (i : Ins) (s : State) : (optimBody i s).Keeps s := by
  simp only [optimBody, State.enterUnit]
  (repeat' split) <;> simp [(optimOp_keeps i s).act]

/-! ## MatrixEv -/

namespace State

variable (s : State)

@[simp] theorem panelBegin_kept (c : Nat) : (s.panelBegin c).kept = s.kept := by simp only [panelBegin]; (repeat' split) <;> simp
@[simp] theorem panelEnd_kept (c : Nat) : (s.panelEnd c).kept = s.kept := by simp only [panelEnd]; (repeat' split) <;> simp
@[simp] theorem feedOr_kept (c bank lo hi : Nat) (e : MEntry) (p : PassSpec) (l : PanelLoad) :
    (s.feedOr c bank lo hi e p l).2.kept = s.kept := by
  unfold feedOr
  split
  · next fed => exact (feed_kept? ..).of_some fed
  · simp

@[simp] theorem passStart_kept (c : Nat) : (s.passStart c).kept = s.kept := by simp only [passStart]; (repeat' split) <;> simp
@[simp] theorem dropPass_kept (c : Nat) : (s.dropPass c).kept = s.kept := (rfl)
@[simp] theorem passEnd_kept (c : Nat) : (s.passEnd c).kept = s.kept := by simp only [passEnd]; (repeat' split) <;> simp
@[simp] theorem gatherTimeout_kept (c : Nat) : (s.gatherTimeout c).kept = s.kept := by simp only [gatherTimeout]; (repeat' split) <;> simp
@[simp] theorem stopPass_kept (c : Nat) : (s.stopPass c).kept = s.kept := by simp only [stopPass]; (repeat' split) <;> simp
@[simp] theorem spillMatrix_kept (c : Nat) : (s.spillMatrix c).kept = s.kept := by simp [spillMatrix]
@[simp] theorem writeSpill_kept (c : Nat) : (s.writeSpill c).kept = s.kept := by
  simp only [writeSpill, freeAcc_kept, store_kept]
  refine (iterate_kept _ _ (fun k t => ?_) _).trans (forget_kept ..)
  split <;> simp

end State

/-! ## Programs -/

namespace State

variable (s : State)

@[simp] theorem loadImage_kept (m : MbxCmd) (bs : List (Byte × Bool)) : (s.loadImage m bs).2.kept = s.kept := by
  simp only [loadImage]
  (repeat' split) <;> simp

@[simp] theorem loadText_kept (m : MbxCmd) (bs : List (Byte × Bool)) : (s.loadText m bs).2.kept = s.kept := by
  simp only [loadText]
  (repeat' split) <;> simp

@[simp] theorem loadRun_kept (m : MbxCmd) : (loadRun m s).2.kept = s.kept := by simp only [loadRun]; (repeat' split) <;> simp
@[simp] theorem clearStat_kept (c : Nat) : (s.clearStat c).kept = s.kept := by unfold clearStat; split <;> rfl
@[simp] theorem placeAt_kept (h : Nat) (p : Prog) (s0 a0 : Nat) : (s.placeAt h p s0 a0).2.kept = s.kept := by simp [placeAt]
@[simp] theorem startProg_kept (h : Nat) (p : Prog) (arg : W64) : (s.startProg h p arg).kept = s.kept := by simp only [startProg]; split <;> simp
@[simp] theorem takeLoads_kept (c h : Nat) : (s.takeLoads c h).2.kept = s.kept := (rfl)
@[simp] theorem saveCore_kept (h c : Nat) (p : Prog) : (s.saveCore h c p).2.kept = s.kept := by simp [saveCore]
@[simp] theorem switchOut_kept (h : Nat) : (s.switchOut h).kept = s.kept := by
  unfold switchOut
  split
  · rfl
  split
  next saved t all =>
  have tKept := kept_of_mk all
  rw [foldl_snd_kept] at tKept
  · split
    · exact tKept
    split
    · exact tKept
    · extract_lets written rotated
      have writtenKept : written.kept = s.kept := by simp [written, tKept]
      rw [schedule_kept]
      exact writtenKept
  · intro a c
    repeat' split
    any_goals rfl
    all_goals simp [kept_of_mk ‹_ = (_, _)›]

@[simp] theorem switchGo_kept (h : Nat) : (s.switchGo h).kept = s.kept := by unfold switchGo; (repeat' split) <;> simp
@[simp] theorem preempt_kept (h : Nat) (p : Prog) : (s.preempt h p).kept = s.kept := by
  simp only [preempt]
  rw [foldl_kept]
  · rfl
  · intro t c
    split <;> simp

@[simp] theorem progExpiry_kept (h : Nat) : (s.progExpiry h).kept = s.kept := by simp only [progExpiry]; (repeat' split) <;> simp
@[simp] theorem flushFrozen_kept : s.flushFrozen.kept = s.kept := (rfl)
@[simp] theorem retireFrom_kept (c h : Nat) : (s.retireFrom c h).kept = s.kept := by unfold retireFrom; (repeat' split) <;> simp
@[simp] theorem coreRetire_kept (c : Nat) : (s.coreRetire c).kept = s.kept := by unfold coreRetire; split <;> simp
@[simp] theorem dbgHalt_kept (c : Nat) : (s.dbgHalt c).kept = s.kept := by simp only [dbgHalt]; split <;> simp
@[simp] theorem dbgResume_kept (c step : Nat) : (s.dbgResume c step).kept = s.kept := (rfl)
@[simp] theorem dbgGo_kept (c : Nat) : (s.dbgGo c).kept = s.kept := by simp only [dbgGo]; (repeat' split) <;> simp
@[simp] theorem dbgWrite_kept (c : Nat) (v : W32) : (s.dbgWrite c v).kept = s.kept := by simp only [dbgWrite]; (repeat' split) <;> simp

end State

theorem withProg_kept (m : MbxCmd) (s : State) (states : List Nat) (k : Nat → Prog → Ans × State) (h : ∀ n p, (k n p).2.kept = s.kept) :
    (withProg m s states k).2.kept = s.kept := by
  simp only [withProg]
  (repeat' split) <;> simp [h]

/-! ## Boot -/

namespace State

variable (s : State)

@[simp] theorem seqEnd_kept : s.seqEnd.kept = s.kept := by
  unfold seqEnd
  simp [Power.vital, kept]

@[simp] theorem firmwareUp_kept : s.firmwareUp.kept = s.kept := (rfl)
@[simp] theorem bootHeader_kept : s.bootHeader.kept = s.kept := by unfold bootHeader; split <;> simp
@[simp] theorem bootSlot_kept (kind : Nat) : (s.bootSlot kind).2.kept = s.kept := by simp only [bootSlot]; split <;> simp
@[simp] theorem bootCheck_kept (kind slot : Nat) : (s.bootCheck kind slot).2.kept = s.kept := by simp only [bootCheck]; (repeat' split) <;> simp
@[simp] theorem runImage_kept (i : Img) : (s.runImage i).kept = s.kept := (rfl)
@[simp] theorem imgRequest_kept (off : Nat) : (s.imgRequest off).kept = s.kept := by unfold imgRequest; split <;> rfl
@[simp] theorem imgPump_kept (n : Nat) : (imgPump n s).kept = s.kept := by
  induction n generalizing s with
  | zero => rfl
  | succ n ih =>
    simp only [imgPump]
    (repeat' split) <;> simp [ih]

end State

/-! ## Power -/

namespace State

variable (s : State)

@[simp] theorem powerEvent_kept (cause : Nat) : (s.powerEvent cause).kept = s.kept := by simp [powerEvent]
@[simp] theorem sagWarnEnd_kept : s.sagWarnEnd.kept = s.kept := by
  unfold sagWarnEnd
  split
  · rfl
  · exact (powerEvent_kept ..).trans (modPw_kept _ _ fun _ => rfl)

@[simp] theorem throttleEnd_kept (thermal : Bool) : (s.throttleEnd thermal).kept = s.kept := by
  unfold throttleEnd
  extract_lets p
  repeat' split
  any_goals rfl
  all_goals exact (powerEvent_kept ..).trans (modPw_kept _ _ fun _ => rfl)

@[simp] theorem droopStretch_kept (st : Nat) : (s.droopStretch st).kept = s.kept := by unfold droopStretch; split <;> rfl
@[simp] theorem droopEnd_kept (st : Nat) : (s.droopEnd st).kept = s.kept := (rfl)
@[simp] theorem refLoss_kept : s.refLoss.kept = s.kept := (rfl)
@[simp] theorem bitDone_kept (pulse : Option Nat) : (s.bitDone pulse).kept = s.kept := by unfold bitDone; split <;> rfl
@[simp] theorem confirmGo_kept : s.confirmGo.kept = s.kept := by
  have pulsed (n : Nat) : (s.modPw fun p => { p with pulse := some n }).kept = s.kept := rfl
  unfold confirmGo
  split
  · rfl
  · refine (kept_ite ..).trans ?_
    rw [pulsed, respond_kept]
    exact ite_self _

end State

/-! ## Trees -/

namespace State

variable (s : State)

@[simp] theorem sendVl0_kept (dst : Nat) (p : Packet) : (s.sendVl0 dst p).kept = s.kept := by unfold sendVl0; (repeat' split) <;> simp
@[simp] theorem sendGop_kept (dst tree step kind seq : Nat) (fail : Bool) (data : List Byte) : (s.sendGop dst tree step kind seq fail data).kept = s.kept := by
  simp [sendGop]

@[simp] theorem setTree_kept (t : Nat) (x : Tree) : (s.setTree t x).kept = s.kept := (rfl)
@[simp] theorem toChildren_kept (t : Nat) (x : Tree) (step kind : Nat) (fail : Bool) (data : List Byte) : (s.toChildren t x step kind fail data).kept = s.kept := by
  simp [toChildren]

@[simp] theorem longDone_kept (st status value pieces : Nat) : (s.longDone st status value pieces).kept = s.kept := by simp [longDone]
@[simp] theorem phaseHears_kept (n status : Nat) : (s.phaseHears n status).kept = s.kept := (rfl)
@[simp] theorem tellStream_kept (st : Option Nat) (status value : Nat) : (s.tellStream st status value).kept = s.kept := by
  unfold tellStream
  (repeat' split) <;> simp

@[simp] theorem gopEnd_kept (t : Nat) (x : Tree) (r : GopRun) (status value : Nat) : (s.gopEnd t x r status value).kept = s.kept := by simp [gopEnd]
@[simp] theorem gopRelease_kept (t : Nat) (x : Tree) (r : GopRun) : (s.gopRelease t x r).kept = s.kept := by
  unfold gopRelease
  (repeat' split) <;> simp

@[simp] theorem gopResume_kept (t : Nat) (x : Tree) (r : GopRun) (snap : Nat) : (s.gopResume t x r snap).kept = s.kept := by simp [gopResume]
@[simp] theorem gopDrained_kept (t : Nat) (force : Bool) : (s.gopDrained t force).kept = s.kept := by unfold gopDrained; (repeat' split) <;> simp
@[simp] theorem gopDrain_kept (t : Nat) (x : Tree) (r : GopRun) : (s.gopDrain t x r).kept = s.kept := by simp [gopDrain]
@[simp] theorem gopUp_kept (t : Nat) : (s.gopUp t).kept = s.kept := by simp only [gopUp]; (repeat' split) <;> simp
@[simp] theorem gopStart_kept (t kind tmo : Nat) (st : Option Nat) (data : List Byte) (bdst : W64) : (s.gopStart t kind tmo st data bdst).kept = s.kept := by
  unfold gopStart
  split <;> simp

theorem gopPacket_kept (p : Packet) (fromParent : Bool) (k : Nat → Tree → Nat → Nat → Bool → State → State)
    (h : ∀ t x a seq fail u, (k t x a seq fail u).kept = u.kept) : (s.gopPacket p fromParent k).kept = s.kept := by
  simp only [gopPacket]
  (repeat' split) <;> simp [h]

@[simp] theorem onArrive_kept (p : Packet) : (s.onArrive p).kept = s.kept := by
  unfold onArrive
  refine gopPacket_kept _ _ _ _ fun t x a seq fail u => ?_
  (repeat' split) <;> simp

@[simp] theorem onDrain_kept (p : Packet) : (s.onDrain p).kept = s.kept := by
  unfold onDrain
  refine gopPacket_kept _ _ _ _ fun t x a seq fail u => ?_
  (repeat' split) <;> simp

@[simp] theorem onDrained_kept (p : Packet) : (s.onDrained p).kept = s.kept := by
  unfold onDrained
  refine gopPacket_kept _ _ _ _ fun t x a seq fail u => ?_
  (repeat' split) <;> simp

@[simp] theorem onResume_kept (p : Packet) : (s.onResume p).kept = s.kept := by
  unfold onResume
  refine gopPacket_kept _ _ _ _ fun t x a seq fail u => ?_
  (repeat' split) <;> simp

@[simp] theorem drainExpiry_kept (t : Nat) : (s.drainExpiry t).kept = s.kept := by unfold drainExpiry; (repeat' split) <;> simp
@[simp] theorem gopTimeout_kept (t : Nat) : (s.gopTimeout t).kept = s.kept := by unfold gopTimeout; (repeat' split) <;> simp
@[simp] theorem gopDeparted_kept (t dev : Nat) : (s.gopDeparted t dev).kept = s.kept := by simp only [gopDeparted]; (repeat' split) <;> simp
@[simp] theorem timeAsk_kept : s.timeAsk.kept = s.kept := by unfold timeAsk; (repeat' split) <;> simp
@[simp] theorem timeTake_kept (t1 : Nat) (d : List Byte) : (s.timeTake t1 d).kept = s.kept := (rfl)
@[simp] theorem onTime_kept (p : Packet) : (s.onTime p).kept = s.kept := by simp only [onTime]; (repeat' split) <;> simp
@[simp] theorem syncLost_kept : s.syncLost.kept = s.kept := by simp only [syncLost]; split <;> simp
@[simp] theorem leavePoint_kept : s.leavePoint.kept = s.kept := by unfold leavePoint; split <;> rfl
@[simp] theorem gopPiece_kept (st : Nat) : (s.gopPiece st).kept = s.kept := by
  unfold gopPiece
  split
  · rfl
  split
  · rfl
  extract_lets d t kind start root
  have startKept (u : State) (bs : List Byte) : (start u bs).kept = u.kept := by
    unfold start
    split <;> simp
  clear_value start
  split
  · refine withData_kept _ _ _ _ _ fun u e bs => ?_
    (repeat' split) <;> simp [startKept]
  · exact startKept ..

end State

/-! ## Steps -/

namespace State

variable (s : State)

@[simp] theorem setPhId_kept (n : Nat) (x : PhId) : (s.setPhId n x).kept = s.kept := (rfl)
@[simp] theorem logRecord_kept (bs : List Byte) : (s.logRecord bs).kept = s.kept := by simp only [logRecord]; split <;> simp
@[simp] theorem closeRecord_kept (phid : Nat) (x : PhId) (r : PhRec) (incomplete : Bool) : (s.closeRecord phid x r incomplete).kept = s.kept := by
  simp [closeRecord]

@[simp] theorem stampLate_kept : s.stampLate.kept = s.kept := (rfl)
@[simp] theorem stampInto_kept (t : Stamp) (r : PhRec) : (s.stampInto t r).kept = s.kept := by simp only [stampInto]; split <;> simp
@[simp] theorem applyStamp_kept (t : Stamp) : (s.applyStamp t).kept = s.kept := by simp only [applyStamp]; (repeat' split) <;> simp
@[simp] theorem phaseStamp_kept (ix : Nat) : (s.phaseStamp ix).kept = s.kept := by unfold phaseStamp; split <;> simp
@[simp] theorem straggler_kept (phid : Nat) : (s.straggler phid).kept = s.kept := by simp only [straggler]; (repeat' split) <;> simp
@[simp] theorem setStep_kept (sp : Nat) (x : StepProg) : (s.setStep sp x).kept = s.kept := (rfl)
@[simp] theorem modStepRun_kept (sp : Nat) (g : StepRun → StepRun) : (s.modStepRun sp g).kept = s.kept := by unfold modStepRun; split <;> rfl
@[simp] theorem modPhase_kept (sp ph : Nat) (g : PhaseRun → PhaseRun) : (s.modPhase sp ph g).kept = s.kept := by simp [modPhase]
@[simp] theorem stampPhase_kept (d : PhaseDef) (edge k : Nat) : (s.stampPhase d edge k).kept = s.kept := by unfold stampPhase; split <;> rfl
@[simp] theorem stepEnd_kept (sp : Nat) : (s.stepEnd sp).kept = s.kept := by simp only [stepEnd]; (repeat' split) <;> simp
@[simp] theorem phaseFail_kept (sp ph k status : Nat) : (s.phaseFail sp ph k status).kept = s.kept := by simp [phaseFail]
@[simp] theorem postPhase_kept (n sp ph st : Nat) : (postPhase n s sp ph st).kept = s.kept := by
  induction n generalizing s with
  | zero => rfl
  | succ n ih =>
    simp only [postPhase]
    (repeat' split) <;> simp [ih]

@[simp] theorem phaseFeed_kept (sp ph : Nat) : (s.phaseFeed sp ph).kept = s.kept := by simp only [phaseFeed]; (repeat' split) <;> simp
@[simp] theorem phaseStart_kept (sp ph : Nat) : (s.phaseStart sp ph).kept = s.kept := by simp only [phaseStart]; (repeat' split) <;> simp
@[simp] theorem phaseDone_kept (sp ph k : Nat) (d : PhaseDef) : (s.phaseDone sp ph k d).kept = s.kept := by simp [phaseDone]
@[simp] theorem phaseComplete_kept (sp ph : Nat) : (s.phaseComplete sp ph).kept = s.kept := by simp only [phaseComplete]; (repeat' split) <;> simp
@[simp] theorem phaseKill_kept (sp ph : Nat) (d : PhaseDef) : (s.phaseKill sp ph d).kept = s.kept := by unfold phaseKill; split <;> simp
@[simp] theorem phaseTimeout_kept (sp ph : Nat) : (s.phaseTimeout sp ph).kept = s.kept := by simp only [phaseTimeout]; (repeat' split) <;> simp
@[simp] theorem stepStop_kept (sp : Nat) : (s.stepStop sp).kept = s.kept := by simp [stepStop]
@[simp] theorem stepAbort_kept (sp : Nat) : (s.stepAbort sp).kept = s.kept := by unfold stepAbort; (repeat' split) <;> simp

end State

/-! ## Windows -/

namespace State

variable (s : State)

@[simp] theorem touch_kept : s.touch.kept = s.kept := (rfl)
@[simp] theorem cplBad_kept (id code : Nat) (addr : W64) (status : Nat) : (s.cplBad id code addr status).kept = s.kept := by simp [cplBad]
@[simp] theorem cplData_kept (id : Nat) (bs : List Byte) (pois : Bool) : (s.cplData id bs pois).kept = s.kept := (rfl)
@[simp] theorem wrDisc_kept : s.wrDisc.kept = s.kept := (rfl)
@[simp] theorem violate_kept (bit off : Nat) (rid : BitVec 16) : (s.violate bit off rid).kept = s.kept := (rfl)
@[simp] theorem winFail_kept (w : Win) : (s.winFail w).kept = s.kept := by unfold winFail; split <;> rfl
@[simp] theorem setPosts_kept (w : Win) (p : Posts) : (s.setPosts w p).kept = s.kept := by unfold setPosts; split <;> rfl
@[simp] theorem postFailed_kept (w : Win) (id : Nat) : (s.postFailed w id).kept = s.kept := by simp only [postFailed]; split <;> simp
@[simp] theorem flushEnd_kept (id : Nat) (w : Win) (v : List Byte) (fail : Bool) : (s.flushEnd id w v fail).kept = s.kept := by
  unfold flushEnd
  split <;> simp

@[simp] theorem postDone_kept (w : Win) (id : Nat) : (s.postDone w id).kept = s.kept := by
  unfold postDone
  extract_lets p removed reqs ended shown
  refine (foldl_kept _ (fun t r => ?_) _ _).trans (setPosts_kept ..)
  split <;> simp

@[simp] theorem hostFlush_kept (w : Win) (v : List Byte) : (s.hostFlush w v).kept = s.kept := by simp only [hostFlush]; split <;> simp
@[simp] theorem hostRead_kept (w : Win) (g n : Nat) : (s.hostRead w g n).kept = s.kept := by
  unfold hostRead
  split
  next t numbered =>
  have tKept : t.kept = s.kept := kept_of_mk numbered
  split
  · split <;> simp [tKept]
  extract_lets r
  have rKept : r.2.2.kept = s.kept := by
    refine (foldl_keeps (fun a : (SMap Byte × Bool) × (Nat × Nat) × State => a.2.2.kept) (fun a p => ?_) _ _).trans tKept
    split
    next sent u read =>
    have uKept := kept_of_mk read
    rw [gReadPiece_kept] at uKept
    split <;> exact uKept
  clear_value r
  split
  (repeat' split) <;> simp_all

@[simp] theorem wrFail_kept (w : Win) (id : Nat) : (s.wrFail w id).kept = s.kept := by unfold wrFail; split <;> simp
@[simp] theorem hostWrite_kept (w : Win) (g : Nat) (bs : List Byte) : (s.hostWrite w g bs).kept = s.kept := by
  simp only [hostWrite]
  (repeat' split) <;> simp

@[simp] theorem plazaRead_kept (off n : Nat) : (s.plazaRead off n).kept = s.kept := by unfold plazaRead; split <;> simp
@[simp] theorem plazaWrite_kept (off : Nat) (bs : List Byte) : (s.plazaWrite off bs).kept = s.kept := by
  simp only [plazaWrite]
  (repeat' split) <;> simp

@[simp] theorem setBase_kept (v : W64) : (s.setBase v).kept = s.kept := by unfold setBase; split <;> rfl
@[simp] theorem writeBase_kept (half : Nat) (v : W64) : (s.writeBase half v).kept = s.kept := by unfold writeBase; split <;> simp
@[simp] theorem pzFlush_kept (at' n : Nat) : (s.pzFlush at' n).kept = s.kept := by simp [pzFlush]
@[simp] theorem noRg_kept (rid : BitVec 16) (off : Nat) (isRead : Bool) : (s.noRg rid off isRead).kept = s.kept := by unfold noRg; split <;> simp
@[simp] theorem flushRegion_kept (rid : BitVec 16) (n : Nat) : (s.flushRegion rid n).kept = s.kept := by unfold flushRegion; split <;> simp
@[simp] theorem apertureRead_kept (rid : BitVec 16) (off n : Nat) : (s.apertureRead rid off n).kept = s.kept := by
  simp only [apertureRead]
  (repeat' split) <;> simp

@[simp] theorem apertureWrite_kept (rid : BitVec 16) (off : Nat) (bs : List Byte) : (s.apertureWrite rid off bs).kept = s.kept := by
  simp only [apertureWrite]
  (repeat' split) <;> simp

@[simp] theorem hostAnswer_kept (id g status : Nat) (bs : List (Byte × Bool)) : (s.hostAnswer id g status bs).kept = s.kept := by
  simp only [hostAnswer]
  (repeat' split) <;> simp

@[simp] theorem bar0Bad_kept (isWrite : Bool) (off n : Nat) : (s.bar0Bad isWrite off n).kept = s.kept := by unfold bar0Bad; (repeat' split) <;> simp

end State

/-! ## Answers -/

namespace State

variable (s : State)

@[simp] theorem normAnswer_kept (status : Nat) : (s.normAnswer status).kept = s.kept := (rfl)
@[simp] theorem pieceAnswer_kept (st status : Nat) : (s.pieceAnswer st status).kept = s.kept := by unfold pieceAnswer; split <;> simp
@[simp] theorem resultAnswer_kept (st status : Nat) : (s.resultAnswer st status).kept = s.kept := by simp [resultAnswer]
@[simp] theorem fetchAnswer_kept (k : FetchKey) (off status : Nat) (bs : List (Byte × Bool)) : (s.fetchAnswer k off status bs).kept = s.kept := by
  unfold fetchAnswer
  split <;> rfl

@[simp] theorem remoteEnd_kept (c h pc : Nat) (f : Frame) (unit : Nat) (addr : W64) (status : Nat) : (s.remoteEnd c h pc f unit addr status).kept = s.kept := by
  unfold remoteEnd
  split <;> simp

@[simp] theorem complete_kept (r : Req) (status : Nat) (bs : List (Byte × Bool)) : (s.complete r status bs).kept = s.kept := by
  simp only [complete]
  (repeat' split) <;> simp

@[simp] theorem untag_kept (tag : Nat) : (s.untag tag).kept = s.kept := (rfl)
@[simp] theorem answerData_kept (r : Req) (p : Packet) : (s.answerData r p).2.kept = s.kept := by simp only [answerData]; (repeat' split) <;> simp
@[simp] theorem onResponse_kept (p : Packet) : (s.onResponse p).kept = s.kept := by simp only [onResponse]; (repeat' split) <;> simp
@[simp] theorem requestTimeout_kept (tag : Nat) : (s.requestTimeout tag).kept = s.kept := by unfold requestTimeout; (repeat' split) <;> simp
@[simp] theorem signalApply_kept (ix : Nat) : (s.signalApply ix).kept = s.kept := by
  unfold signalApply
  split
  · rfl
  split
  · rfl
  extract_lets taken
  have takenKept : taken.kept = s.kept := rfl
  clear_value taken
  split
  · simp [takenKept]
  · extract_lets prog p
    split
    · next sent => rw [request_kept _ sent, takenKept]
    · split <;> simp [takenKept]

@[simp] theorem fwaitExpire_kept (c : Nat) : (s.fwaitExpire c).kept = s.kept := by
  unfold fwaitExpire
  extract_lets x
  split
  · split
    · exact issueCore_kept _ _ _ _ _ _ fun i t => fwaitBody_keeps t i
    · rfl
  · rfl

end State

/-! ## KvCmd -/

namespace State

variable (s : State)

@[simp] theorem kvCreated_kept (pool : Nat) : (s.kvCreated pool).kept = s.kept := by unfold kvCreated; split <;> simp
@[simp] theorem kvDestroyed_kept (pool : Nat) : (s.kvDestroyed pool).kept = s.kept := (rfl)

end State

/-! ## BvCmd -/

namespace State

variable (s : State)

@[simp] theorem drainLink_kept (l : Nat) : (s.drainLink l).kept = s.kept := by simp only [drainLink]; (repeat' split) <;> simp
@[simp] theorem setFabric_kept (st : Nat) : (s.setFabric st).kept = s.kept := by simp [setFabric]

end State

/-! ## Commit -/

namespace State

variable (s : State)

@[simp] theorem normClose_kept : s.normClose.kept = s.kept := by unfold normClose; split <;> simp
@[simp] theorem openZero_kept (base count : Nat) (eb : Int) : (s.openZero base count eb).kept = s.kept := by simp [openZero]
@[simp] theorem normOpen_kept (c : NormCfg) : (s.normOpen c).kept = s.kept := by simp [normOpen]
@[simp] theorem bucketClose_kept (b : Nat) : (s.bucketClose b).kept = s.kept := by unfold bucketClose; split <;> simp
@[simp] theorem bucketOpen_kept (d : BucketDef) : (s.bucketOpen d).kept = s.kept := by simp [bucketOpen]
@[simp] theorem linkOff_kept (l : Nat) : (s.linkOff l).kept = s.kept := by unfold linkOff; split <;> simp
@[simp] theorem setMode_kept (n mode media : Nat) : (s.setMode n mode media).kept = s.kept := by simp only [setMode]; split <;> simp
@[simp] theorem setRegion_kept (n : Nat) (r : Option Rg) : (s.setRegion n r).kept = s.kept := by unfold setRegion; split <;> rfl
@[simp] theorem setMembers_kept (lo hi : Nat) (set : Bool) : (s.setMembers lo hi set).kept = s.kept := by
  simp only [setMembers]
  rw [foldl_kept]
  · rw [foldl_kept]
    · rfl
    · intro t x
      exact foldl_kept _ (fun _ _ => gopDeparted_kept ..) _ _
  · intro t b
    split <;> simp

@[simp] theorem setPlace_kept (t : Nat) (d : Option (Nat × List Nat)) : (s.setPlace t d).kept = s.kept := by unfold setPlace; (repeat' split) <;> simp
theorem setFcu_kept (t : State) (fcu : Nat) :
    ({ t with fab := { t.fab with fcu := fcu, cache := [], epoch := t.fab.epoch + 1 } } : State).kept = t.kept := (rfl)

theorem forgetEach_kept (n : Nat) (a b : Nat → Nat) : (iterate n s fun c t => t.forget (a c) (b c)).kept = s.kept :=
  iterate_kept _ _ (fun _ _ => forget_kept ..) _

@[simp] theorem setFrozen_kept (fcu : Nat) : (s.setFrozen fcu).kept = s.kept := by
  unfold setFrozen
  split
  · rfl
  · exact (setFcu_kept _ fcu).trans (forgetEach_kept ..)

@[simp] theorem itemApply_kept (x : Item) : (s.itemApply x).kept = s.kept := by
  cases x with
  | port n mode media => exact setMode_kept ..
  | region n r => exact setRegion_kept ..
  | memPart nb =>
    simp only [itemApply]
    split <;> simp
  | members lo hi set => exact setMembers_kept ..
  | tree t d => exact setPlace_kept ..
  | frozen fcu => exact setFrozen_kept ..
  | bucket b d =>
    simp only [itemApply]
    split <;> simp
  | norms d =>
    simp only [itemApply]
    split <;> simp
  | phase n expect thr => exact setPhId_kept ..
  | power cap warn rst alert wdt =>
    simp only [itemApply]
    split
    · exact modPw_kept _ _ fun _ => rfl
    · exact (powerEvent_kept ..).trans (modPw_kept _ _ fun _ => rfl)
  | svcNet p mode addr mask gw srv =>
    simp only [itemApply]
    split
    · exact modPw_kept _ _ fun _ => rfl
    · rfl
  | _ => rfl

@[simp] theorem takeTables_kept : s.takeTables.kept = s.kept := by simp only [takeTables]; split <;> simp
@[simp] theorem commitOne_kept (p : Port) (tag base : W32) : (s.commitOne p tag base).kept = s.kept := by
  unfold commitOne
  extract_lets l g
  split
  · simp
  split
  · simp
  split
  · simp
  · next committed =>
    have kept := congrArg State.kept (commitItems_ok committed)
    rw [foldl_kept _ fun _ _ => itemApply_kept ..] at kept
    simp [kept]

@[simp] theorem commitPoint_kept : s.commitPoint.kept = s.kept := by
  simp only [commitPoint]
  rw [foldl_kept]
  · rfl
  · intro t p
    split <;> simp

end State

/-! ## General -/

namespace State

variable (s : State)

@[simp] theorem takeSnap_kept : s.takeSnap.2.kept = s.kept := (rfl)
@[simp] theorem dcSnap_kept (v : W32) : (s.dcSnap v).kept = s.kept := by unfold dcSnap; split <;> rfl
@[simp] theorem cancelPartners_kept : s.cancelPartners.kept = s.kept := by
  simp only [cancelPartners]
  refine foldl_kept _ (fun t x => ?_) _ _
  split <;> simp

@[simp] theorem abortFw_kept (j : AbortJob) : (s.abortFw j).kept = s.kept := by unfold abortFw; (repeat' split) <;> simp
@[simp] theorem abortHw_kept (j : AbortJob) : (s.abortHw j).kept = s.kept := by
  unfold abortHw
  split
  · rfl
  extract_lets stopped noDc killed
  have killedKept : killed.kept = s.kept := by
    refine Eq.trans (b := stopped.kept) rfl (foldl_kept _ (fun t h => ?_) _ _)
    extract_lets halted
    have haltedKept : halted.kept = t.kept := by
      unfold halted
      (repeat' split) <;> simp
    exact (foldl_kept _ (fun _ _ => cancelStream_kept ..) _ _).trans haltedKept
  clear_value killed
  split <;> simp [killedKept]

@[simp] theorem abortDone_kept (hw : Bool) (j : AbortJob) : (s.abortDone hw j).kept = s.kept := by unfold abortDone; (repeat' split) <;> simp
@[simp] theorem abortArrive_kept (j : AbortJob) (prompt : Bool) : (s.abortArrive j prompt).kept = s.kept := by
  unfold abortArrive
  (repeat' split) <;> simp

@[simp] theorem abortWatch_kept (ix : Nat) : (s.abortWatch ix).kept = s.kept := by unfold abortWatch; (repeat' split) <;> simp
@[simp] theorem dcAbort_kept (v : W32) (prompt : Bool) : (s.dcAbort v prompt).kept = s.kept := by unfold dcAbort; (repeat' split) <;> simp
@[simp] theorem countOne_kept (b : Nat) : (s.countOne b).kept = s.kept := (rfl)
@[simp] theorem resetRun_kept (b st : Nat) : (s.resetRun b st).kept = s.kept := by
  simp only [resetRun, countOne_kept, finish_kept, modRun_kept, dropConts_kept]
  refine foldl_kept _ (fun t k => ?_) _ _
  (repeat' split) <;> simp

@[simp] theorem blockFall_kept (b : Nat) : (s.blockFall b).kept = s.kept := by unfold blockFall; (repeat' split) <;> simp
@[simp] theorem blockReset_kept (b : Nat) (idle : Bool) : (s.blockReset b idle).kept = s.kept := by unfold blockReset; (repeat' split) <;> simp
@[simp] theorem blockIdleEvent_kept (b : Nat) : (s.blockIdleEvent b).kept = s.kept := by unfold blockIdleEvent; split <;> simp
@[simp] theorem blockTmo_kept (b : Nat) : (s.blockTmo b).kept = s.kept := by unfold blockTmo; (repeat' split) <;> simp
@[simp] theorem blockBack_kept (b : Nat) : (s.blockBack b).kept = s.kept := by unfold blockBack; (repeat' split) <;> simp

end State

/-! ## Trust -/

namespace State

variable (s : State)

@[simp] theorem spdm_kept (k : Nat) (boxed : Bool) (msg : List Byte) : (s.spdm k boxed msg).2.kept = s.kept := (rfl)
@[simp] theorem secAnswer_kept (a : Ans) : (s.secAnswer a).2.kept = s.kept := by unfold secAnswer; (repeat' split) <;> simp
theorem withRecord_kept (m : MbxCmd) (owner dbg sess : Bool) (k : State → List Byte → Nat → Ans × State)
    (h : ∀ t bs op, (k t bs op).2.kept = t.kept) : (s.withRecord m owner dbg sess k).2.kept = s.kept := by
  simp only [withRecord]
  (repeat' split) <;> simp [h]

@[simp] theorem setOwner_kept (o : Option (BitVec 384)) (keepChain : Bool) : (s.setOwner o keepChain).kept = s.kept := (rfl)
theorem snd_kept_of_ite {α : Type} {c : Prop} [Decidable c] {p q : α × State} {t : State} (hp : p.2.kept = t.kept) (hq : q.2.kept = t.kept) :
    (if c then p else q).2.kept = t.kept := by
  split <;> assumption

@[simp] theorem ownerRun_kept (m : MbxCmd) : (ownerRun m s).2.kept = s.kept := by
  unfold ownerRun
  refine withRecord_kept _ _ _ _ _ _ fun t r op => ?_
  have refused (a : Ans) : (t.secAnswer a).2.kept = t.kept := secAnswer_kept ..
  refine snd_kept_of_ite (refused _) (snd_kept_of_ite (refused _) (snd_kept_of_ite (refused _) (snd_kept_of_ite (refused _)
    (snd_kept_of_ite (refused _) ?_))))
  split
  · exact setOwner_kept ..
  · exact setOwner_kept ..
  · exact setOwner_kept ..
  split
  refine snd_kept_of_ite (refused _) (snd_kept_of_ite (refused _) (snd_kept_of_ite (refused _) (snd_kept_of_ite (refused _) ?_)))
  rfl

@[simp] theorem debugRun_kept (m : MbxCmd) : (debugRun m s).2.kept = s.kept := by
  unfold debugRun
  split
  · simp
  · refine withRecord_kept _ _ _ _ _ _ fun t r op => ?_
    extract_lets key
    split
    · simp
    · rfl

@[simp] theorem sessionRun_kept (m : MbxCmd) : (sessionRun m s).2.kept = s.kept := by
  unfold sessionRun
  split
  · rfl
  · refine withRecord_kept _ _ _ _ _ _ fun t r op => ?_
    extract_lets key n
    split
    · simp
    · rfl

@[simp] theorem startPulse_kept (code : Nat) : (s.startPulse code).kept = s.kept := by unfold startPulse; split <;> rfl
@[simp] theorem stageRun_kept (m : MbxCmd) : (stageRun m s).2.kept = s.kept := by
  simp only [stageRun]
  repeat' split
  any_goals rfl
  next begun => simp [beginLong_kept _ begun]

@[simp] theorem stageDone_kept (st kind slot src len : Nat) : (s.stageDone st kind slot src len).kept = s.kept := by unfold stageDone; split <;> simp
@[simp] theorem activateRun_kept (m : MbxCmd) : (activateRun m s).2.kept = s.kept := by
  unfold activateRun
  extract_lets kind mode slot hand
  split
  · rfl
  split
  · next begun => simp [beginLong_kept _ begun]
  · rfl

@[simp] theorem handOver_kept : s.handOver.kept = s.kept := by unfold handOver; (repeat' split) <;> simp
@[simp] theorem activateDone_kept (st sel : Nat) : (s.activateDone st sel).kept = s.kept := by unfold activateDone; (repeat' split) <;> simp
@[simp] theorem confirmRun_kept (m : MbxCmd) : (confirmRun m s).2.kept = s.kept := by simp only [confirmRun]; split <;> simp
@[simp] theorem announce_kept (port : Nat) : (s.announce port).kept = s.kept := by unfold announce; split <;> rfl
@[simp] theorem imgRetry_kept (off : Nat) : (s.imgRetry off).kept = s.kept := by unfold imgRetry; (repeat' split) <;> simp
@[simp] theorem arp_kept (port : Nat) (ip : W32) : (s.arp port ip).kept = s.kept := by unfold arp; split <;> rfl
@[simp] theorem echo_kept (port : Nat) (data : List Byte) : (s.echo port data).kept = s.kept := by unfold echo; split <;> rfl
@[simp] theorem mctpSpdm_kept (msg : List Byte) : (s.mctpSpdm msg).kept = s.kept := by unfold mctpSpdm; split <;> rfl
@[simp] theorem mctpControl_kept (msg : List Byte) : (s.mctpControl msg).kept = s.kept := (rfl)
@[simp] theorem dbgctl_kept (v : W32) : (s.dbgctl v).kept = s.kept := by unfold dbgctl; (repeat' split) <;> simp
@[simp] theorem nonceExpiry_kept (p : Port) : (s.nonceExpiry p).kept = s.kept := by unfold nonceExpiry; (repeat' split) <;> simp
@[simp] theorem sessionExpiry_kept : s.sessionExpiry.kept = s.kept := by unfold sessionExpiry; (repeat' split) <;> simp

end State

/-! ## Boxes -/

namespace State

variable (s : State)

@[simp] theorem clearDone_kept (p : Port) : (s.clearDone p).kept = s.kept := by simp only [clearDone]; split <;> simp
@[simp] theorem mgmtReply_kept (link : Nat) (p : Packet) (status : Nat) (bs : List Byte) : (s.mgmtReply link p status bs).kept = s.kept := by
  unfold mgmtReply
  (repeat' split) <;> simp

theorem onMgmt_kept (link : Nat) (p : Packet) (ok : Bool) (run : Nat → State → List Byte × State)
    (h : ∀ off t, (run off t).2.kept = t.kept) : (s.onMgmt link p ok run).kept = s.kept := by
  unfold onMgmt
  split
  · rfl
  extract_lets noFab heard src off
  have heardKept : heard.kept = s.kept := rfl
  clear_value heard
  split
  · simp [heardKept]
  split
  · simp [heardKept]
  split
  · simp [heardKept]
  split
  · simp [heardKept]
  split
  next answered =>
  have kept := kept_of_mk answered
  rw [h] at kept
  simp [kept, heardKept]

@[simp] theorem onMread_kept (link : Nat) (p : Packet) : (s.onMread link p).kept = s.kept := by
  exact onMgmt_kept _ _ _ _ _ fun _ _ => rfl

end State

/-! ## Links -/

namespace State

variable (s : State)

@[simp] theorem askReplay_kept (l : Nat) : (s.askReplay l).kept = s.kept := by simp [askReplay]
@[simp] theorem discardFlit_kept (l : Nat) : (s.discardFlit l).kept = s.kept := by simp only [discardFlit]; (repeat' split) <;> simp
@[simp] theorem drainEnd_kept (l : Nat) : (s.drainEnd l).kept = s.kept := by simp only [drainEnd]; split <;> simp
@[simp] theorem takeHeader_kept (l : Nat) (f : List Byte) : (s.takeHeader l f).kept = s.kept := by simp [takeHeader]
@[simp] theorem replayFrom_kept (l n : Nat) : (s.replayFrom l n).kept = s.kept := by simp [replayFrom]
theorem recv_kept (l : Nat) (f : List Byte) (kind : Nat) (go : State → State) (h : ∀ t, (go t).kept = t.kept) :
    (s.recv l f kind go).kept = s.kept := by
  simp only [recv]
  (repeat' split) <;> simp [h]

@[simp] theorem onIdle_kept (l : Nat) (f : List Byte) : (s.onIdle l f).kept = s.kept :=
  recv_kept _ _ _ _ _ fun _ => takeHeader_kept ..

theorem control_kept (l : Nat) (f : List Byte) (code : Nat) (go : State → State) (h : ∀ t, (go t).kept = t.kept) :
    (s.control l f code go).kept = s.kept := by
  refine recv_kept _ _ _ _ _ fun t => ?_
  split <;> simp [h]

@[simp] theorem onCreditInit_kept (l : Nat) (f : List Byte) : (s.onCreditInit l f).kept = s.kept := by
  exact control_kept _ _ _ _ _ fun t => by simp

@[simp] theorem onRetryReq_kept (l : Nat) (f : List Byte) : (s.onRetryReq l f).kept = s.kept := by
  exact control_kept _ _ _ _ _ fun t => by simp

@[simp] theorem onResumeFlit_kept (l : Nat) (f : List Byte) : (s.onResumeFlit l f).kept = s.kept := by
  exact control_kept _ _ _ _ _ fun t => by simp

@[simp] theorem retryRepeat_kept (l : Nat) : (s.retryRepeat l).kept = s.kept := by simp only [retryRepeat]; (repeat' split) <;> simp
@[simp] theorem ackTimer_kept (l : Nat) : (s.ackTimer l).kept = s.kept := by simp only [ackTimer]; split <;> simp
@[simp] theorem linkUp_kept (l : Nat) : (s.linkUp l).kept = s.kept := by simp only [linkUp]; split <;> simp
@[simp] theorem linkRetrain_kept (l : Nat) : (s.linkRetrain l).kept = s.kept := by simp only [linkRetrain]; split <;> simp
@[simp] theorem retrained_kept (l : Nat) : (s.retrained l).kept = s.kept := by simp only [retrained]; split <;> simp
@[simp] theorem linkDown_kept (l : Nat) : (s.linkDown l).kept = s.kept := by simp only [linkDown]; split <;> simp

end State

/-! ## Issue -/

namespace State

variable (s : State)

@[simp] theorem runAny_kept (c : Nat) (f : Frame) (s : State) : (runAny c f s).kept = s.kept := by
  fun_cases runAny c f
  all_goals
    refine State.issueCore_kept _ _ _ _ _ _ fun i t => ?_
    simp

@[simp] theorem reissue_kept (c : Nat) : (s.reissue c).kept = s.kept := by
  simp only [reissue]
  (repeat' split) <;> simp

@[simp] theorem unitBody_keeps (f : Frame) (i : Ins) (s : State) : (unitBody f i s).Keeps s := by
  fun_cases unitBody f
  all_goals simp

@[simp] theorem startQueued_kept (c : Nat) (q : Queued) : (s.startQueued c q).kept = s.kept := by
  have answered {i : Ins} {t : State} {r : IRes} (e : unitBody q.frame i t = r) : r.Keeps t := e ▸ unitBody_keeps ..
  simp only [startQueued]
  repeat' split
  any_goals rfl
  all_goals
    next done =>
    have kept := answered done
    simp at kept
    simp [kept]

@[simp] theorem startQueues_kept (c : Nat) : (s.startQueues c).kept = s.kept := by simp [startQueues]
@[simp] theorem panelOrder_kept (c : Nat) : (s.panelOrder c).kept = s.kept := by simp only [panelOrder]; (repeat' split) <;> simp
@[simp] theorem clocks_kept : s.clocks.kept = s.kept := by unfold clocks; split <;> rfl
@[simp] theorem resend_kept (r : Req) : (s.resend r).kept = s.kept := by simp only [resend]; (repeat' split) <;> simp
@[simp] theorem resendAll_kept : s.resendAll.kept = s.kept := by simp [resendAll]
@[simp] theorem submitAll_kept : s.submitAll.kept = s.kept := by
  unfold submitAll
  refine foldl_kept _ (fun t x => ?_) _ _
  split <;> simp

@[simp] theorem phasesGo_kept : s.phasesGo.kept = s.kept := by
  unfold phasesGo
  refine foldl_kept _ (fun t x => ?_) _ _
  split <;> simp

@[simp] theorem coreGo_kept (c : Nat) : (s.coreGo c).kept = s.kept := by simp only [coreGo]; (repeat' split) <;> simp
@[simp] theorem reservedEdits_kept : s.reservedEdits.kept = s.kept := by
  unfold reservedEdits
  refine foldl_kept _ (fun t x => ?_) _ _
  split <;> simp

end State

end Sys2Proof.Machine

/-! # Every command and every step keeps the queue, the environment and the power rule (R460 to R466, R470, R481) -/

namespace Sys2Proof.Machine

/-! ## What every step keeps to -/

theorem SafePower.of_vital {p q : Power} (h : q.vital = p.vital) (safe : SafePower p) : SafePower q := by
  simp only [Power.vital, Prod.mk.injEq] at h
  obtain ⟨⟨pstate, pllst, plevel, tlevel⟩, ⟨alert, alerten, alertn⟩, pg48, sagOff, tripHold, latched⟩ := h
  constructor
  · exact pstate ▸ safe.state
  · exact pllst ▸ safe.clock
  · exact plevel ▸ tlevel ▸ safe.level
  · rw [alert, alerten, alertn]
    exact safe.alert
  · rw [pg48, sagOff, tripHold, latched, pstate]
    exact safe.convert

/-- Any of the states with the standby rails valid is as safe. -/
theorem SafePower.setState {p : Power} (safe : SafePower p) {st pll : Nat} (state : st ≤ 3) (on : st ≠ 0) (clock : pll ≤ 2) :
    SafePower { p with pstate := st, pllst := pll } :=
  ⟨state, clock, safe.level, safe.alert, fun conv => ⟨(safe.convert conv).1, (safe.convert conv).2.1, (safe.convert conv).2.2.1, on⟩⟩

/-- What every step keeps to: the queue and the environment stay, and the power rule holds afterwards if it held before. -/
structure State.Lawful (s t : State) : Prop where
  queue : t.pending = s.pending
  env   : t.env = s.env
  power : SafePower s.pw → SafePower t.pw

namespace State

variable {s t u : State}

theorem Lawful.of_kept (h : t.kept = s.kept) : s.Lawful t := by
  simp only [kept, Prod.mk.injEq] at h
  obtain ⟨queue, env, power⟩ := h
  exact ⟨queue, env, .of_vital power⟩

@[refl] theorem Lawful.refl (s : State) : s.Lawful s := .of_kept rfl

theorem Lawful.trans (h : s.Lawful t) (k : t.Lawful u) : s.Lawful u :=
  ⟨k.queue.trans h.queue, k.env.trans h.env, fun safe => k.power (h.power safe)⟩

theorem Lawful.kept_trans (h : t.kept = s.kept) (k : t.Lawful u) : s.Lawful u := (Lawful.of_kept h).trans k

theorem Lawful.trans_kept (h : s.Lawful t) (k : u.kept = t.kept) : s.Lawful u := h.trans (.of_kept k)

theorem Lawful.ite {c : Prop} [Decidable c] (h : c → s.Lawful t) (k : ¬ c → s.Lawful u) : s.Lawful (if c then t else u) := by
  split
  · exact h ‹_›
  · exact k ‹_›

theorem Lawful.foldl {α : Type} {g : State → α → State} (h : ∀ t x, Lawful t (g t x)) (l : List α) (s : State) : s.Lawful (l.foldl g s) := by
  induction l generalizing s with
  | nil => rfl
  | cons x l ih => exact (h s x).trans (ih _)

theorem Lawful.modPw {g : Power → Power} (h : SafePower s.pw → SafePower (g s.pw)) : s.Lawful (s.modPw g) := ⟨rfl, rfl, h⟩

theorem Lawful.modOther {g : Power → Power} (h : ∀ p, (g p).vital = p.vital := by intro _; rfl) : s.Lawful (s.modPw g) :=
  .of_kept (modPw_kept _ _ h)

/-! ## The Lamplighter -/

@[simp] theorem emit_lawful (o : Out) : s.Lawful (s.emit o) := .of_kept (emit_kept ..)

theorem alertPin_lawful (s : State) (a en : BitVec 7) : s.Lawful (s.alertPin a en) := by
  simp only [alertPin]
  refine .trans (t := { s with pw := { s.pw with alert := a, alerten := en, alertn := a &&& en == 0 } }) ⟨rfl, rfl, fun safe => ?_⟩ ?_
  · exact ⟨safe.state, safe.clock, safe.level, rfl, safe.convert⟩
  · exact .ite (fun _ => emit_lawful _) fun _ => .refl _

theorem setAlert_lawful (s : State) (bit : Nat) : s.Lawful (s.setAlert bit) := alertPin_lawful ..

theorem linksUp_lawful (s : State) : s.Lawful s.linksUp :=
  ⟨rfl, rfl, fun safe => safe.setState (by decide) (by decide) (by decide)⟩

theorem recover_lawful (s : State) (hold : Bool) : s.Lawful (s.recover hold) := by
  unfold recover
  extract_lets noDc noPw on
  have onLawful : s.Lawful on := ⟨rfl, rfl, fun safe => safe.setState (by decide) (by decide) safe.clock⟩
  refine .trans_kept (onLawful.trans ?_) (seqEnd_kept _)
  split
  · rfl
  · exact linksUp_lawful _

theorem bringUp_lawful (s : State) : s.Lawful s.bringUp := by
  unfold bringUp
  extract_lets mesh noDc found mapped
  have mappedKept : mapped.kept = s.kept := foldl_kept _ (fun _ _ => modCore_kept ..) _ _
  exact .trans_kept (.kept_trans mappedKept (linksUp_lawful _)) (seqEnd_kept _)

theorem bootGo_lawful (s : State) : s.Lawful s.bootGo := .ite (fun _ => bringUp_lawful s) fun _ => .refl s

theorem bootFlash_lawful (s : State) : s.Lawful s.bootFlash := by
  unfold bootFlash
  extract_lets counted
  have countedKept : counted.kept = s.kept := bootHeader_kept s
  clear_value counted
  split
  next f s1 chosen =>
  split
  next k s2 chosen' =>
  split
  next f' s3 checked =>
  split
  next k' s4 checked' =>
  have kept : s4.kept = s.kept := by
    rw [kept_of_mk checked', bootCheck_kept, kept_of_mk checked, bootCheck_kept, kept_of_mk chosen', bootSlot_kept,
      kept_of_mk chosen, bootSlot_kept, countedKept]
  refine .kept_trans kept ?_
  split
  · split
    · exact .of_kept (by simp)
    · exact recover_lawful ..
  · exact recover_lawful ..

theorem seqBoot_lawful (s : State) : s.Lawful s.seqBoot := by
  unfold seqBoot
  split
  · exact recover_lawful ..
  · exact recover_lawful ..
  · split
    · refine .of_kept ((imgPump_kept ..).trans ?_)
      exact bootHeader_kept s
    · exact bootFlash_lawful s

theorem seqStrap_lawful (s : State) : s.Lawful s.seqStrap := by
  unfold seqStrap
  split
  · exact .of_kept rfl
  split
  next c e code =>
  extract_lets noPw read
  refine .trans (.kept_trans (t := read) rfl ?_) (seqBoot_lawful _)
  split
  · exact setAlert_lawful ..
  · rfl

theorem seqTrim_lawful (s : State) : s.Lawful s.seqTrim := by
  unfold seqTrim
  extract_lets p n ok read
  refine .trans (.kept_trans (t := read) rfl ?_) (seqStrap_lawful _)
  split
  · rfl
  · exact (setAlert_lawful ..).trans_kept (logErr_kept ..)

theorem seqRails_lawful (s : State) (trim : Bool) : s.Lawful (s.seqRails trim) := by
  unfold seqRails
  split
  · exact .of_kept rfl
  next may =>
  extract_lets noPw on
  have onLawful : s.Lawful on := by
    refine ⟨rfl, rfl, fun safe => ⟨safe.state, safe.clock, safe.level, safe.alert, fun _ => ?_⟩⟩
    simp [mayConvert] at may
    exact ⟨may.1.1.1.1.1, may.1.1.1.1.2, may.1.1.1.2, may.1.1.2⟩
  refine onLawful.trans ?_
  split
  · exact seqTrim_lawful ..
  · exact seqStrap_lawful ..

theorem seqGo_lawful (s : State) : s.Lawful s.seqGo := by
  unfold seqGo
  split
  · exact seqRails_lawful ..
  · exact seqRails_lawful ..
  · exact seqStrap_lawful ..
  · rfl

theorem wipe_power (s : State) (cold keep : Bool) : (s.wipe cold keep).pw = s.resetPower cold := rfl

theorem wipe_lawful (s : State) (cold keep : Bool) : s.Lawful (s.wipe cold keep) where
  queue := rfl
  env := rfl
  power safe := by
    rw [wipe_power]
    exact ⟨safe.state, (by decide : Power.reset.pllst ≤ 2), (by decide : Power.reset.plevel ≤ 15 ∧ Power.reset.tlevel ≤ 15),
      (by decide : Power.reset.alertn = (Power.reset.alert &&& Power.reset.alerten == 0)), safe.convert⟩

theorem seqBegin_lawful (s : State) (cause : Nat) : s.Lawful (s.seqBegin cause) := by
  unfold seqBegin
  extract_lets p cold was keep caused wiped
  have causedLawful : s.Lawful caused := by
    refine ⟨rfl, rfl, fun safe => ⟨safe.state, safe.clock, safe.level, safe.alert, fun on => safe.convert ?_⟩⟩
    simp only [caused] at on
    split at on
    · cases on
    · exact on
  have wipedLawful : s.Lawful wiped := causedLawful.trans (wipe_lawful ..)
  clear_value wiped
  refine wipedLawful.trans (.ite (fun _ => seqRails_lawful ..) fun _ => .ite (fun _ => seqRails_lawful ..) fun _ => ?_)
  generalize was = before
  split
  · exact seqRails_lawful ..
  · exact seqRails_lawful ..
  · exact seqStrap_lawful ..

theorem takeReset_lawful (s : State) (cause : Nat) : s.Lawful (s.takeReset cause) := by
  unfold takeReset
  split
  · exact .of_kept rfl
  · exact seqBegin_lawful ..

/-- A power-on reset stops the conversion whether it ran or not. -/
theorem seqBegin_powerOn (s : State) (on : Bool) : ({ s with pw := { s.pw with pg48 := on } } : State).seqBegin 1 = s.seqBegin 1 := rfl

theorem powerOn_lawful (s : State) : s.Lawful s.powerOn := by
  unfold powerOn
  extract_lets p k lost pw held t trust
  rw [← seqBegin_powerOn _ false]
  refine .trans ?_ (seqBegin_lawful ..)
  refine ⟨rfl, rfl, fun safe => ⟨Nat.zero_le 3, safe.clock, safe.level, safe.alert, fun on => ?_⟩⟩
  cases on

theorem railsValid_lawful (s : State) : s.Lawful s.railsValid := by
  refine .ite (fun _ => .refl s) fun off => .trans (.modPw fun safe => ?_) (seqGo_lawful _)
  have stopped : s.pw.pg48 = false := Bool.eq_false_iff.2 fun on => off (by simp [(safe.convert on).2.2.2])
  exact ⟨(by decide : 1 ≤ 3), safe.clock, safe.level, safe.alert, fun on => absurd on (by simp [stopped])⟩

theorem sagWarn_lawful (s : State) : s.Lawful s.sagWarn :=
  .ite (fun _ => .refl s) fun _ => .trans_kept (.trans .modOther (setAlert_lawful ..)) (powerEvent_kept ..)

theorem sagDown_lawful (s : State) : s.Lawful s.sagDown := by
  refine .ite (fun _ => .refl s) fun _ => .trans (.trans (.modPw fun safe => ?_) (takeReset_lawful ..)) (setAlert_lawful ..)
  exact ⟨(by decide : 1 ≤ 3), safe.clock, safe.level, safe.alert, fun on => by cases on⟩

theorem sagUp_lawful (s : State) : s.Lawful s.sagUp := by
  refine .ite (fun _ => .refl s) fun _ => .trans (.modPw fun safe => ?_) (seqGo_lawful _)
  exact ⟨safe.state, safe.clock, safe.level, safe.alert, fun on => ⟨rfl, (safe.convert on).2⟩⟩

theorem setLevels_lawful (s : State) (pl tl : Nat) (h : SafePower s.pw → pl ≤ 15 ∧ tl ≤ 15) : s.Lawful (s.setLevels pl tl) := by
  unfold setLevels
  extract_lets p pStart tStart zero was is set told
  have setLawful : s.Lawful set := .modPw fun safe => ⟨safe.state, safe.clock, h safe, safe.alert, safe.convert⟩
  have toldLawful : s.Lawful told := by
    refine setLawful.trans (.ite (fun _ => .trans_kept (setAlert_lawful ..) (powerEvent_kept ..)) fun _ => .refl _)
  clear_value told
  exact toldLawful.trans (.ite (fun _ => .trans_kept (setAlert_lawful ..) (powerEvent_kept ..)) fun _ => .refl _)

theorem boundary_lawful (s : State) : s.Lawful s.boundary := by
  unfold boundary
  extract_lets p pl t tl
  refine .ite (fun _ => .refl s) fun _ => setLevels_lawful _ _ _ fun safe => ?_
  have plevel : p.plevel ≤ 15 := safe.level.1
  have tlevel : p.tlevel ≤ 15 := safe.level.2
  unfold pl tl
  constructor <;> (repeat' split) <;> omega

theorem trip_lawful (s : State) : s.Lawful s.trip := by
  refine .trans (.modPw fun safe => ?_) (takeReset_lawful ..)
  exact ⟨(by decide : 1 ≤ 3), safe.clock, safe.level, safe.alert, fun on => by cases on⟩

theorem sample_lawful (s : State) (r : Sample) : s.Lawful (s.sample r) := by
  unfold sample
  split
  · rfl
  extract_lets samples top hot again alert rise read capped warned
  have readLawful : s.Lawful read := .of_kept (modPw_kept _ _ fun _ => rfl)
  have cappedLawful : s.Lawful capped :=
    readLawful.trans (.ite (fun _ => setLevels_lawful _ _ _ fun safe => ⟨le_rfl, safe.level.2⟩) fun _ => .refl _)
  have warnedLawful : s.Lawful warned :=
    cappedLawful.trans (.ite (fun _ => .trans_kept (setAlert_lawful ..) (powerEvent_kept ..)) fun _ => .refl _)
  clear_value warned
  exact warnedLawful.trans (.ite (fun _ => trip_lawful _) fun _ => .refl _)

theorem tripEnd_lawful (s : State) : s.Lawful s.tripEnd := by
  unfold tripEnd
  split
  · refine .ite (fun _ => .refl s) fun _ => .trans (.modPw fun safe => ?_) (seqGo_lawful _)
    exact ⟨safe.state, safe.clock, safe.level, safe.alert, fun on => ⟨(safe.convert on).1, rfl, (safe.convert on).2.2⟩⟩
  · rfl

theorem droopStop_lawful (s : State) (street : Nat) : s.Lawful (s.droopStop street) :=
  .ite (fun _ => .refl s) fun _ => .trans_kept (.trans .modOther (setAlert_lawful ..)) (powerEvent_kept ..)

theorem refBack_lawful (s : State) : s.Lawful s.refBack := by
  unfold refBack
  split
  · rfl
  extract_lets lost back
  have backLawful : s.Lawful back := .of_kept (modPw_kept _ _ fun _ => rfl)
  exact backLawful.trans (.ite (fun _ => takeReset_lawful ..) fun _ => seqGo_lawful _)

theorem goIdle_lawful (s : State) : s.Lawful s.goIdle :=
  .ite (fun _ => .modPw fun safe => safe.setState (by decide) (by decide) (by decide)) fun _ => .refl s

theorem wakeUp_lawful (s : State) : s.Lawful s.wakeUp := by
  refine .ite (fun _ => .modPw fun safe => ?_) fun _ => .refl s
  exact ⟨safe.state, (by decide : 1 ≤ 2), safe.level, safe.alert, safe.convert⟩

theorem pllDone_lawful (s : State) : s.Lawful s.pllDone :=
  .ite (fun _ => .modPw fun safe => safe.setState (by decide) (by decide) (by decide)) fun _ => .refl s

theorem pinAssert_lawful (s : State) : s.Lawful s.pinAssert := by
  refine .ite (fun _ => .refl s) fun _ => .trans (.modPw fun safe => ?_) (takeReset_lawful ..)
  exact ⟨safe.state, safe.clock, safe.level, safe.alert, fun on =>
    ⟨(safe.convert on).1, by simp [(safe.convert on).2.1], rfl, (safe.convert on).2.2.2⟩⟩

theorem pinRelease_lawful (s : State) : s.Lawful s.pinRelease :=
  .ite (fun _ => .refl s) fun _ => .trans .modOther (seqGo_lawful _)

theorem watchdog_lawful (s : State) : s.Lawful s.watchdog :=
  .ite (fun _ => .refl s) fun _ => .trans .modOther (takeReset_lawful ..)

theorem pulseEnd_lawful (s : State) : s.Lawful s.pulseEnd := by
  unfold pulseEnd
  split
  · rfl
  extract_lets c ended
  have endedLawful : s.Lawful ended := .of_kept ((bitDone_kept ..).trans (modPw_kept _ _ fun _ => rfl))
  clear_value ended c
  refine endedLawful.trans ?_
  split
  · exact seqBegin_lawful ..
  · exact .trans_kept (seqGo_lawful _) (confirmGo_kept _)

end State

/-! ## Mailbox commands -/

/-- What the work of a command keeps to. -/
def Cmd.Lawful (k : Cmd) : Prop := ∀ m s, State.Lawful s (k.run m s).2

namespace State

variable {s t : State}

theorem runCmd_lawful {k : Cmd} (h : k.Lawful) (m : MbxCmd) (session : Bool) (s : State) : s.Lawful (s.runCmd k m session).2 := by
  unfold runCmd
  split
  · rfl
  split
  · rfl
  · exact h m s

theorem go_lawful (op : Nat) (m : MbxCmd) {run : State → Ans × State} (h : ∀ t, Lawful t (run t).2) (s : State) : s.Lawful (s.go op m run) := by
  unfold go
  extract_lets b
  split
  · exact .of_kept (setBox_kept ..)
  split
  · exact .of_kept (setBox_kept ..)
  split
  · exact .of_kept rfl
  split
  all_goals next ran =>
    have lawful := ran ▸ h s
    refine lawful.trans (.of_kept ?_)
    simp

theorem issueCmd_lawful {k : Cmd} (h : k.Lawful) (m : MbxCmd) (s : State) : s.Lawful (s.issueCmd k m) := by
  unfold issueCmd
  extract_lets b cleared
  have clearedKept : cleared.kept = s.kept := by
    unfold cleared
    split <;> simp
  clear_value cleared
  refine .kept_trans ((applyKills_kept _).trans clearedKept) (go_lawful _ _ (fun t => runCmd_lawful h ..) _)

end State

@[simp] theorem memPartition_lawful : memPartition.Lawful := fun m s => .of_kept (by simp [memPartition])
@[simp] theorem xwOpenCmd_lawful : xwOpenCmd.Lawful := fun m s => .of_kept <| by
  simp only [xwOpenCmd]
  repeat' split
  any_goals simp
  all_goals simp [State.beginLong_kept _ ‹_ = some _›]

@[simp] theorem xwCloseCmd_lawful : xwCloseCmd.Lawful := fun m s => .of_kept <| by
  simp only [xwCloseCmd]
  repeat' split
  any_goals simp
  all_goals simp [State.beginLong_kept _ ‹_ = some _›]

@[simp] theorem xwStatusCmd_lawful : xwStatusCmd.Lawful := fun m s => .of_kept <| by
  simp only [xwStatusCmd]
  (repeat' split) <;> simp

@[simp] theorem streamCreate_lawful : streamCreate.Lawful := fun m s => .of_kept <| by
  simp only [streamCreate]
  (repeat' split) <;> simp

@[simp] theorem streamPost_lawful : streamPost.Lawful := fun m s => .of_kept <| withStream_kept m s _ fun n x => by
  (repeat' split) <;> simp

@[simp] theorem streamStatus_lawful : streamStatus.Lawful := fun m s => .of_kept <| withStream_kept m s _ fun _ _ => rfl
@[simp] theorem streamCancel_lawful : streamCancel.Lawful := fun m s => .of_kept <| withStream_kept m s _ fun st _ => State.cancelAny_kept s st
@[simp] theorem streamDestroy_lawful : streamDestroy.Lawful := fun m s => .of_kept <| withStream_kept m s _ fun n x => by
  split <;> rfl

@[simp] theorem streamConfig_lawful : streamConfig.Lawful := fun m s => .of_kept (by simp [streamConfig])
@[simp] theorem igSubmit_lawful : igSubmit.Lawful := fun m s => .of_kept <| by
  simp only [igSubmit]
  repeat' split
  any_goals simp
  all_goals simp [State.beginLong_kept _ ‹_ = some _›]

@[simp] theorem igStatus_lawful : igStatus.Lawful := fun m s => .of_kept (by simp [igStatus])
@[simp] theorem igConfig_lawful : igConfig.Lawful := fun m s => .of_kept (by simp [igConfig])
@[simp] theorem progLoad_lawful : progLoad.Lawful := fun m s => .of_kept (by simp [progLoad])
@[simp] theorem progPlace_lawful : progPlace.Lawful := fun m s => .of_kept <| withProg_kept m s _ _ fun n p => by
  split
  · split <;> simp
  · exact State.snd_kept_of_ite rfl (State.snd_kept_of_ite rfl (State.snd_kept_of_ite rfl (State.placeAt_kept ..)))

@[simp] theorem progStart_lawful : progStart.Lawful := fun m s => .of_kept <| withProg_kept m s _ _ fun n p => by
  split <;> simp

@[simp] theorem progStatus_lawful : progStatus.Lawful := fun m s => .of_kept <| withProg_kept m s _ _ fun _ _ => rfl
@[simp] theorem progFaults_lawful : progFaults.Lawful := fun m s => .of_kept <| withProg_kept m s _ _ fun n p => by
  extract_lets first n
  split <;> rfl

@[simp] theorem progUnload_lawful : progUnload.Lawful := fun m s => .of_kept <| withProg_kept m s _ _ fun n p => by
  extract_lets mine ended
  exact State.foldl_kept _ (fun _ _ => State.cancelAny_kept ..) _ _

@[simp] theorem progFlag_lawful : progFlag.Lawful := fun m s => .of_kept <| withProg_kept m s _ _ fun n p => by
  extract_lets q so ao c op
  (repeat' split) <;> simp

@[simp] theorem pwrConfig_lawful : pwrConfig.Lawful := fun m s => .of_kept (by simp [pwrConfig])
@[simp] theorem pwrStatus_lawful : pwrStatus.Lawful := fun m s => .of_kept (by simp [pwrStatus])
@[simp] theorem tsRing_lawful : tsRing.Lawful := fun m s => .of_kept <| by
  simp only [tsRing]
  split
  · simp
  split
  · rfl
  · refine State.withMbxData_kept _ _ _ _ fun t e bs => ?_
    (repeat' split) <;> simp

@[simp] theorem tsBucket_lawful : tsBucket.Lawful := fun m s => .of_kept <| by
  simp only [tsBucket]
  (repeat' split) <;> simp

@[simp] theorem tsNorms_lawful : tsNorms.Lawful := fun m s => .of_kept <| by
  simp only [tsNorms]
  (repeat' split) <;> simp

@[simp] theorem tsStep_lawful : tsStep.Lawful := fun m s => .of_kept <| by
  simp only [tsStep]
  repeat' split
  any_goals rfl
  all_goals
    refine State.withMbxData_kept _ _ _ _ fun t e bs => ?_
    (repeat' split) <;> simp

@[simp] theorem tsStepRun_lawful : tsStepRun.Lawful := fun m s => .of_kept <| by
  simp only [tsStepRun]
  repeat' split
  any_goals simp
  all_goals simp [State.beginLong_kept _ ‹_ = some _›]

@[simp] theorem tsStepStop_lawful : tsStepStop.Lawful := fun m s => .of_kept <| by
  simp only [tsStepStop]
  (repeat' split) <;> simp

@[simp] theorem tsPhase_lawful : tsPhase.Lawful := fun m s => .of_kept <| by
  simp only [tsPhase]
  (repeat' split) <;> simp

@[simp] theorem tsPhlog_lawful : tsPhlog.Lawful := fun m s => .of_kept (by simp [tsPhlog])
@[simp] theorem tsStatus_lawful : tsStatus.Lawful := fun m s => .of_kept <| by
  simp only [tsStatus]
  (repeat' split) <;> simp

@[simp] theorem kvPool_lawful : kvPool.Lawful := fun m s => .of_kept <| by
  simp only [kvPool]
  repeat' split
  any_goals simp
  all_goals simp [State.beginLong_kept _ ‹_ = some _›]

@[simp] theorem kvEdit_lawful : kvEdit.Lawful := fun m s => .of_kept <| by
  simp only [kvEdit]
  repeat' split
  any_goals simp
  all_goals simp [State.beginLong_kept _ ‹_ = some _›]

@[simp] theorem kvStatus_lawful : kvStatus.Lawful := fun m s => .of_kept <| by
  simp only [kvStatus]
  (repeat' split) <;> simp

@[simp] theorem bvPortCmd_lawful : bvPortCmd.Lawful := fun m s => .of_kept <| by
  simp only [bvPortCmd]
  (repeat' split) <;> simp

@[simp] theorem bvRoute_lawful : bvRoute.Lawful := fun m s => .of_kept (by simp [bvRoute])
@[simp] theorem bvExpose_lawful : bvExpose.Lawful := fun m s => .of_kept (by simp [bvExpose])
@[simp] theorem bvMembers_lawful : bvMembers.Lawful := fun m s => .of_kept (by simp [bvMembers])
@[simp] theorem bvTree_lawful : bvTree.Lawful := fun m s => .of_kept (by simp [bvTree])
@[simp] theorem bvJoin_lawful : bvJoin.Lawful := fun m s => .of_kept <| by
  simp only [bvJoin]
  (repeat' split) <;> simp

@[simp] theorem bvLeave_lawful : bvLeave.Lawful := fun m s => .of_kept <| by
  simp only [bvLeave]
  repeat' split
  any_goals simp
  all_goals simp [State.beginLong_kept _ ‹_ = some _›]

@[simp] theorem bvGlobal_lawful : bvGlobal.Lawful := fun m s => by
  simp only [bvGlobal]
  repeat' split
  any_goals rfl
  any_goals exact .kept_trans (State.toChildren_kept ..) (State.takeReset_lawful ..)
  all_goals exact .of_kept ((State.gopStart_kept ..).trans (State.beginLong_kept _ ‹_ = some _›))

@[simp] theorem bvFrozen_lawful : bvFrozen.Lawful := fun m s => .of_kept <| by
  simp only [bvFrozen]
  (repeat' split) <;> simp

@[simp] theorem bvConfigCmd_lawful : bvConfigCmd.Lawful := fun m s => .of_kept (by simp [bvConfigCmd])
@[simp] theorem bvStatus_lawful : bvStatus.Lawful := fun m s => .of_kept (by simp [bvStatus])
@[simp] theorem cmdCommit_lawful : cmdCommit.Lawful := fun m s => .of_kept (by simp [cmdCommit])
@[simp] theorem cmdDiscard_lawful : cmdDiscard.Lawful := fun m s => .of_kept (by simp [cmdDiscard])
@[simp] theorem cmdConfigDevice_lawful : cmdConfigDevice.Lawful := fun m s => .of_kept (by simp [cmdConfigDevice])
@[simp] theorem cmdRgSet_lawful : cmdRgSet.Lawful := fun m s => .of_kept <| by
  simp only [cmdRgSet]
  (repeat' split) <;> simp

@[simp] theorem infoDevice_lawful : infoDevice.Lawful := fun m s => .of_kept (by simp [infoDevice])
@[simp] theorem infoInventory_lawful : infoInventory.Lawful := fun m s => .of_kept (by simp [infoInventory])
@[simp] theorem infoConfig_lawful : infoConfig.Lawful := fun m s => .of_kept (by simp [infoConfig])
@[simp] theorem cmdAbort_lawful (prompt : Bool) : (cmdAbort prompt).Lawful := fun m s => .of_kept <| by
  simp only [cmdAbort]
  (repeat' split) <;> simp

@[simp] theorem cmdReset_lawful (c : MbxCmd) : (cmdReset c).Lawful := fun m s => by
  simp only [cmdReset]
  split
  · exact State.takeReset_lawful ..
  split
  · rfl
  split
  · next t begun => exact .of_kept (State.beginLong_kept (t := t) _ begun)
  · rfl

@[simp] theorem cmdSnapshot_lawful : cmdSnapshot.Lawful := fun m s => .of_kept (by simp [cmdSnapshot])
@[simp] theorem secSpdm_lawful : secSpdm.Lawful := fun m s => .of_kept (by simp [secSpdm])
@[simp] theorem secNonce_lawful : secNonce.Lawful := fun m s => .of_kept (by simp [secNonce])
@[simp] theorem secOwner_lawful : secOwner.Lawful := fun m s => .of_kept (by simp [secOwner])
@[simp] theorem secDebug_lawful : secDebug.Lawful := fun m s => .of_kept (by simp [secDebug])
@[simp] theorem secSession_lawful : secSession.Lawful := fun m s => .of_kept (by simp [secSession])
@[simp] theorem fwStage_lawful : fwStage.Lawful := fun m s => .of_kept <| by
  simp only [fwStage]
  (repeat' split) <;> simp

@[simp] theorem fwActivate_lawful : fwActivate.Lawful := fun m s => .of_kept (by simp [fwActivate])
@[simp] theorem fwConfirm_lawful : fwConfirm.Lawful := fun m s => .of_kept (by simp [fwConfirm])
@[simp] theorem fwStatus_lawful : fwStatus.Lawful := fun m s => .of_kept (by simp [fwStatus])
@[simp] theorem errlogRead_lawful : errlogRead.Lawful := fun m s => .of_kept <| by
  simp only [errlogRead]
  (repeat' split) <;> simp

@[simp] theorem svcNetCmd_lawful : svcNetCmd.Lawful := fun m s => .of_kept (by simp [svcNetCmd])

/-- Every command of the mailboxes keeps the queue, the environment and the power rule. -/
theorem allCmds_lawful (prompt : Bool) (m : MbxCmd) : ∀ k ∈ allCmds prompt m, k.Lawful := by
  simp [allCmds]

theorem cmdOf_lawful {op : Nat} {prompt : Bool} {m : MbxCmd} {k : Cmd} (found : cmdOf op prompt m = some k) : k.Lawful :=
  allCmds_lawful prompt m k (List.mem_of_find?_eq_some found)

theorem mboxRow_lawful {i : Instr} {k : Cmd} {m : MbxCmd} (row : mboxRow i = some (k, m)) : k.Lawful := by
  unfold mboxRow at row
  split at row
  all_goals cases row
  all_goals simp

/-! ## The mailboxes, the ports and the cycle -/

namespace State

variable {s t : State}

theorem goArea_lawful (s : State) (op : Nat) (m : MbxCmd) (session : Bool) : s.Lawful (s.goArea op m session) := by
  unfold goArea
  split
  next u t numbered =>
  have tKept : (t.applyKills).kept = s.kept := (applyKills_kept t).trans (kept_of_mk numbered)
  refine .kept_trans tKept (go_lawful _ _ (fun v => ?_) _)
  split
  · next k found => exact runCmd_lawful (cmdOf_lawful found) ..
  · rfl

theorem unassigned_lawful (s : State) (op : Nat) (m : MbxCmd) : s.Lawful (s.unassigned op m) := by
  unfold unassigned
  split
  · rfl
  · exact .kept_trans ((applyKills_kept _).trans (clearDone_kept ..)) (go_lawful _ _ (fun v => .refl v) _)

theorem boxWrite_lawful (s : State) (p : Port) (off : Nat) (v : W32) : s.Lawful (s.boxWrite p off v) := by
  unfold boxWrite
  extract_lets b
  split
  · split
    · split
      exact goArea_lawful ..
    · rfl
  · exact .of_kept (by (repeat' split) <;> simp)

theorem plainWrite_lawful (s : State) (off : Nat) (v : W32) : s.Lawful (s.plainWrite off v) := by
  unfold plainWrite
  split
  · exact .of_kept (setPort_kept ..)
  · split
    case h_12 => exact alertPin_lawful ..
    case h_13 => exact alertPin_lawful ..
    case h_11 | h_14 | h_15 | h_16 => exact .modOther
    all_goals exact .of_kept (kept_of_eq rfl rfl rfl)

theorem wordWrite_lawful (s : State) (off : Nat) (v : W32) : s.Lawful (s.wordWrite off v) := by
  unfold wordWrite
  refine .ite (fun _ => boxWrite_lawful ..) fun _ => .ite (fun _ => .refl s) fun _ => .ite (fun _ => ?_) fun _ =>
    .ite (fun _ => .of_kept (dcSnap_kept ..)) fun _ => .ite (fun _ => .of_kept (writeBase_kept ..)) fun _ =>
    .ite (fun _ => .of_kept (writeBase_kept ..)) fun _ => .ite (fun _ => .of_kept (dbgctl_kept ..)) fun _ =>
    .ite (fun _ => .of_kept (dbgWrite_kept ..)) fun _ => plainWrite_lawful ..
  split
  next numbered => exact .of_kept ((dcAbort_kept ..).trans (kept_of_mk numbered))

theorem regWrite_lawful (s : State) (off n : Nat) (v : W64) : s.Lawful (s.regWrite off n v) := by
  unfold regWrite
  split
  · rfl
  split
  · exact .of_kept (bar0Bad_kept ..)
  extract_lets touched offs at' logged
  have loggedKept : logged.kept = s.kept := by
    unfold logged touched
    split <;> simp
  split
  · exact .of_kept (by simp [touched])
  clear_value logged
  refine .kept_trans loggedKept (.ite (fun _ => .of_kept (writeBase_kept ..)) fun _ => .foldl (fun _ _ => wordWrite_lawful ..) _ _)

theorem runDeferred_lawful (s : State) : s.Lawful s.runDeferred := by
  unfold runDeferred
  extract_lets ps noTru cleared
  refine .kept_trans (t := cleared) rfl (.foldl (fun t n => ?_) _ _)
  split
  · rfl
  split
  · exact .kept_trans (setBox_kept ..) (goArea_lawful ..)
  · rfl

theorem svcCmd_lawful (s : State) (h : SvcHdr) (area : List Byte) : s.Lawful (s.svcCmd h area) := by
  unfold svcCmd
  refine .ite (fun _ => .refl s) fun _ => .ite (fun _ => .ite (fun _ => .refl s) fun _ => .of_kept (svcSend_kept ..)) fun _ => ?_
  split
  next op m area =>
  extract_lets cleared noTru session
  have clearedKept : cleared.kept = s.kept := clearDone_kept ..
  clear_value cleared
  refine .kept_trans clearedKept (.ite (fun _ => .of_kept (setBox_kept ..)) fun _ => ?_)
  refine .trans ?_ (goArea_lawful ..)
  exact ⟨rfl, rfl, id⟩

theorem mctpCmd_lawful (s : State) (area : List Byte) : s.Lawful (s.mctpCmd area) := by
  unfold mctpCmd
  split
  next op m area =>
  refine .ite (fun _ => emit_lawful _) fun _ => .trans (.of_kept (clearDone_kept s .bmc)) (.trans ?_ (goArea_lawful ..))
  exact .of_kept rfl

theorem jtagMbx_lawful (s : State) (dr : BitVec 44) : s.Lawful (s.jtagMbx dr) := by
  unfold jtagMbx
  extract_lets noTru read off
  exact .kept_trans (t := read) rfl (.ite (fun _ => boxWrite_lawful ..) fun _ => emit_lawful _)

theorem longComplete_lawful (s : State) (st : Nat) : s.Lawful (s.longComplete st) := by
  unfold longComplete
  split
  · rfl
  split
  · rfl
  next w long =>
  extract_lets told f time going x
  have goingKept : going.kept = s.kept := submitGo_kept ..
  have toldKept (t : State) : (told t).kept = t.kept := by
    unfold told
    split <;> simp
  clear_value told going x
  cases w with
  | fwActivate sel slot =>
    exact .kept_trans (activateDone_kept ..) (.ite (fun _ => runDeferred_lawful _) fun _ => .refl _)
  | igBatch g =>
    simp only
    refine .of_kept (Eq.trans ?_ goingKept)
    repeat' split
    any_goals simp
    all_goals simp [kept_of_mk ‹_ = (_, _)›]
  | xwOpen b => exact .of_kept (by simp)
  | xwClose b => exact .of_kept (by simp)
  | leave =>
    simp only
    exact .of_kept (by (repeat' split) <;> simp)
  | kvEdit u =>
    simp only
    exact .of_kept (by (repeat' split) <;> simp)
  | join dev time => exact .of_kept (by simp)
  | stepRun sp => exact .of_kept (toldKept s)
  | global tree => exact .of_kept (toldKept s)
  | _ => exact .of_kept (by simp)

theorem boxGo_lawful (s : State) (p : Port) : s.Lawful (s.boxGo p) := by
  unfold boxGo
  split
  · split
    · rfl
    split
    · next k found =>
      have lawful := cmdOf_lawful found
      split
      · next ran =>
        have ranLawful := ran ▸ lawful _ s
        exact ranLawful.trans_kept (respond_kept ..)
      · next ran =>
        have ranLawful := ran ▸ lawful _ s
        exact ranLawful
    · rfl
  · rfl

theorem onMgmt_lawful (link : Nat) (p : Packet) (ok : Bool) {run : Nat → State → List Byte × State}
    (h : ∀ off t, Lawful t (run off t).2) (s : State) : s.Lawful (s.onMgmt link p ok run) := by
  unfold onMgmt
  split
  · rfl
  extract_lets noFab heard src off
  refine .kept_trans (t := heard) rfl ?_
  clear_value heard
  refine .ite (fun _ => .of_kept (by simp)) fun _ => .ite (fun _ => .of_kept (by simp)) fun _ => .ite (fun _ => .of_kept (by simp)) fun _ =>
    .ite (fun _ => .of_kept (by simp)) fun _ => ?_
  split
  next answered =>
  have lawful := h off heard
  rw [answered] at lawful
  exact lawful.trans_kept (mgmtReply_kept ..)

theorem onMwrite_lawful (s : State) (link : Nat) (p : Packet) : s.Lawful (s.onMwrite link p) :=
  onMgmt_lawful _ _ _ (fun _ _ => boxWrite_lawful ..) s

theorem onRelease_lawful (s : State) (p : Packet) : s.Lawful (s.onRelease p) := by
  unfold onRelease gopPacket
  extract_lets a t src
  split
  · rfl
  refine .ite (fun _ => .refl s) fun _ => .ite (fun _ => .refl s) fun _ => ?_
  refine .ite (fun _ => .kept_trans (toChildren_kept ..) (takeReset_lawful ..)) fun _ => .of_kept ?_
  (repeat' split) <;> simp

theorem unanswered_lawful (link : Nat) (p : Packet) {run : State → State} (h : ∀ t, Lawful t (run t)) (s : State) :
    s.Lawful (s.unanswered link p run) := by
  unfold unanswered
  refine .ite (fun _ => .refl s) fun _ => .ite (fun _ => .refl s) fun _ => .ite (fun _ => .of_kept ?_) fun _ =>
    .ite (fun _ => .refl s) fun _ => h s
  split <;> simp

theorem onPacket_lawful (s : State) (l : Nat) (p : Packet) : s.Lawful (s.onPacket l p) := by
  unfold onPacket
  split
  · exact .of_kept (onResponse_kept ..)
  split
  · refine unanswered_lawful _ _ (fun t => ?_) s
    split
    · exact .of_kept (onTime_kept ..)
    · split
      case h_2 => exact onRelease_lawful ..
      all_goals exact .of_kept (by simp)
  · split
    case h_6 => exact onMwrite_lawful ..
    all_goals exact .of_kept (by simp)

theorem recv_lawful (l : Nat) (f : List Byte) (kind : Nat) {go : State → State} (h : ∀ t, Lawful t (go t)) (s : State) :
    s.Lawful (s.recv l f kind go) := by
  unfold recv
  extract_lets st
  exact .ite (fun _ => .refl s) fun _ => .ite (fun _ => .of_kept (discardFlit_kept ..)) fun _ => .ite (fun _ => .refl s) fun _ => h s

theorem payloadFlit_lawful (s : State) (l : Nat) (f : List Byte) : s.Lawful (s.payloadFlit l f) := by
  unfold payloadFlit
  refine recv_lawful _ _ _ (fun t => ?_) s
  extract_lets k ahead pair body part run p
  split
  · exact .of_kept (by (repeat' split) <;> simp)
  split
  next ps rest cut =>
  extract_lets k' taken heard
  have takenKept : taken.kept = t.kept := by simp [taken]
  have heardLawful : t.Lawful heard := .kept_trans takenKept (.foldl (fun _ _ => onPacket_lawful ..) _ _)
  clear_value heard
  exact heardLawful.trans (.ite (fun _ => .of_kept (idleFlit_kept ..)) fun _ => .refl _)

theorem handTimeout_lawful (s : State) : s.Lawful s.handTimeout := by
  unfold handTimeout
  split
  · exact .ite (fun _ => takeReset_lawful ..) fun _ => .refl s
  · rfl

theorem imgBoot_lawful (s : State) (bs : List Byte) : s.Lawful (s.imgBoot bs) := by
  unfold imgBoot
  extract_lets i c k noTru cleared noTru' chosen
  have chosenKept : chosen.kept = s.kept := by
    unfold chosen
    split <;> rfl
  clear_value chosen
  refine .kept_trans chosenKept (.ite (fun _ => .of_kept (by simp)) fun _ => .kept_trans (logErr_kept ..) (recover_lawful ..))

theorem imgData_lawful (s : State) (off : Nat) (data : List Byte) : s.Lawful (s.imgData off data) := by
  unfold imgData
  split
  · rfl
  split
  · rfl
  extract_lets kept filled noTru pumped
  have pumpedKept : pumped.kept = s.kept := imgPump_kept ..
  clear_value pumped
  refine .kept_trans pumpedKept ?_
  split
  · exact imgBoot_lawful ..
  · rfl

theorem imgTimeout_lawful (s : State) : s.Lawful s.imgTimeout := by
  unfold imgTimeout
  split
  · refine .ite (fun _ => .trans (.trans_kept (.of_kept ?_) (logErr_kept ..)) (recover_lawful ..)) fun _ => .refl s
    rfl
  · rfl

theorem background_lawful (s : State) : s.Lawful s.background := by
  unfold background
  extract_lets began pumped sent drained boxed switched
  have beganKept : began.kept = s.kept := by simp [began]
  have pumpedKept : pumped.kept = s.kept := (foldl_kept _ (fun _ _ => by simp) _ _).trans beganKept
  have sentKept : sent.kept = s.kept := (foldl_kept _ (fun _ _ => ringSent_kept ..) _ _).trans pumpedKept
  have drainedKept : drained.kept = s.kept := by
    refine (foldl_kept _ (fun t x => ?_) _ _).trans sentKept
    (repeat' split) <;> simp
  have boxedLawful : s.Lawful boxed :=
    .trans_kept (.trans (.of_kept ((submitAll_kept _).trans drainedKept)) (.foldl (fun _ _ => boxGo_lawful ..) _ _)) (phasesGo_kept _)
  have switchedLawful : s.Lawful switched := boxedLawful.trans_kept (foldl_kept _ (fun _ _ => switchGo_kept ..) _ _)
  exact switchedLawful.trans_kept (foldl_kept _ (fun _ _ => coreGo_kept ..) _ _)

theorem tick_lawful (s : State) : s.Lawful s.tick :=
  .trans (.kept_trans (clocks_kept s) (bootGo_lawful _)) (background_lawful _)

end State

/-! ## Every command, and every step -/

theorem coreRow_body_keeps {i : Instr} {r : CoreRow} (row : coreRow i = some r) (x : Ins) (s : State) : (r.body x s).Keeps s := by
  unfold coreRow at row
  split at row
  all_goals cases row
  all_goals simp

theorem coreRow_issue_kept {i : Instr} {r : CoreRow} (row : coreRow i = some r) (s : State) : (r.issue s).kept = s.kept := by
  have each := State.issueCore_kept (c := r.core) (f := r.frame) (dec := r.dec) (regs := r.regs) (body := r.body)
    (h := coreRow_body_keeps row)
  unfold CoreRow.issue
  split
  · exact State.startOp_kept _ _ _ _ _ fun t => each t
  · split
    · exact State.startOp_kept _ _ _ _ _ fun t => each t
    · rfl

@[simp] theorem runNone_kept (c : Nat) (f : Frame) (s : State) : (runNone c f s).kept = s.kept :=
  State.issueCore_kept _ _ _ _ _ _ fun i t => noneBody_keeps i t

@[simp] theorem recalPause_kept (s : State) (ch : Nat) : (s.recalPause ch).kept = s.kept := by
  unfold State.recalPause
  split <;> rfl

@[simp] theorem recalEnd_kept (s : State) (ch : Nat) : (s.recalEnd ch).kept = s.kept := by
  unfold State.recalEnd
  split <;> rfl

/-- Every command answers a next state; it keeps the queue, the environment and the power rule. -/
theorem exec_lawful (i : Instr) (s : State) : ∃ t, exec i s = .next t ∧ s.Lawful t := by
  cases core : coreRow i with
  | some r => exact ⟨_, exec_of_coreRow core s, .of_kept (coreRow_issue_kept core s)⟩
  | none =>
    cases cmd : mboxRow i with
    | some r => exact ⟨_, exec_of_mboxRow cmd s, State.issueCmd_lawful (mboxRow_lawful cmd) ..⟩
    | none =>
      cases i
      all_goals try contradiction
      case powerOnReset => exact ⟨_, rfl, State.powerOn_lawful s⟩
      case standbyRailsValid => exact ⟨_, rfl, State.railsValid_lawful s⟩
      case sagWarning => exact ⟨_, rfl, State.sagWarn_lawful s⟩
      case sagReset => exact ⟨_, rfl, State.sagDown_lawful s⟩
      case sagResetRelease => exact ⟨_, rfl, State.sagUp_lawful s⟩
      case powerSample r => exact ⟨_, rfl, State.sample_lawful s r⟩
      case throttleBoundary => exact ⟨_, rfl, State.boundary_lawful s⟩
      case standbyWaitExpiry => exact ⟨_, rfl, State.tripEnd_lawful s⟩
      case droopStop street => exact ⟨_, rfl, State.droopStop_lawful s street⟩
      case referenceClockRegained => exact ⟨_, rfl, State.refBack_lawful s⟩
      case chipWideIdleness => exact ⟨_, rfl, State.goIdle_lawful s⟩
      case wake => exact ⟨_, rfl, State.wakeUp_lawful s⟩
      case pllRestartComplete => exact ⟨_, rfl, State.pllDone_lawful s⟩
      case modResetNAssert => exact ⟨_, rfl, State.pinAssert_lawful s⟩
      case modResetNRelease => exact ⟨_, rfl, State.pinRelease_lawful s⟩
      case ucieLinkReset => exact ⟨_, rfl, .ite (fun _ => .refl s) fun _ => State.takeReset_lawful s 4⟩
      case watchdog => exact ⟨_, rfl, State.watchdog_lawful s⟩
      case writePulseEnd => exact ⟨_, rfl, State.pulseEnd_lawful s⟩
      case handoverHeartbeatTimeout => exact ⟨_, rfl, State.handTimeout_lawful s⟩
      case imgData h off data => exact ⟨_, rfl, State.imgData_lawful s off data⟩
      case imageFetchTimeout => exact ⟨_, rfl, State.imgTimeout_lawful s⟩
      case unassignedMailboxOpcode op m => exact ⟨_, rfl, State.unassigned_lawful s op.toNat m⟩
      case mwrite link p => exact ⟨_, rfl, State.onMwrite_lawful ..⟩
      case mbxCmd h area => exact ⟨_, rfl, State.svcCmd_lawful s h area⟩
      case mctpMailboxCommand area => exact ⟨_, rfl, State.mctpCmd_lawful s area⟩
      case mbx dr => exact ⟨_, rfl, State.jtagMbx_lawful s dr⟩
      case registerWrite off n v => exact ⟨_, rfl, State.regWrite_lawful s off n v⟩
      case longCommandComplete st => exact ⟨_, rfl, State.longComplete_lawful s st⟩
      case payloadFlit l f => exact ⟨_, rfl, State.payloadFlit_lawful s l f⟩
      case gopRelease link p => exact ⟨_, rfl, State.unanswered_lawful _ _ (fun t => State.onRelease_lawful t _) s⟩
      case gopArrive | gopDrain | gopDrained | gopResume | timePacket => exact ⟨_, rfl, .of_kept (by simp [State.unanswered_kept])⟩
      case copy | fill | save | load | kvfetch | ingest | redadd | xwopen | xwclose | waitflag | gop | bucket | norm | fold =>
        exact ⟨_, rfl, .of_kept (by simp [State.streamRow_kept])⟩
      all_goals exact ⟨_, rfl, .of_kept (by simp [State.kept_ite])⟩

/-- A step takes the front command, or is a cycle. -/
theorem step_lawful (s : State) : ∃ t, step s = .next t ∧ State.Lawful { s with pending := s.pending.tail } t := by
  cases queue : s.pending with
  | nil =>
    refine ⟨s.tick, step_of_pending_nil queue, ?_⟩
    have same : ({ s with pending := [] } : State) = s := by rw [← queue]
    simpa [same] using State.tick_lawful s
  | cons c rest =>
    obtain ⟨t, next, lawful⟩ := exec_lawful c { s with pending := rest }
    refine ⟨t, ?_, lawful⟩
    rw [← next, ← step_pending_cons, ← queue]

/-- Settles O55: the Lamplighter's registers after reset, one clause of the rule after the other. -/
theorem thePowerRuleHoldsAtReset : Obligations.ThePowerRuleHoldsAtReset :=
  ⟨by decide, by decide, by decide, by decide, by decide⟩

/-- Settles O56: of the step's parts only the supplies, the throttles, the clocks, the alerts and the reset sequence touch what the rule
speaks of, and each of them keeps it (`exec_lawful`, `step_lawful`). -/
theorem everyStepKeepsThePowerRule : Obligations.EveryStepKeepsThePowerRule := by
  intro s t safe next
  obtain ⟨u, stepped, lawful⟩ := step_lawful s
  rw [next] at stepped
  cases stepped
  exact lawful.power safe

/-- Settles O57: `exec` answers a next state that keeps the queue and the environment, whatever the command (`exec_lawful`). -/
theorem noCommandTouchesTheQueueOrTheEnvironment : Obligations.NoCommandTouchesTheQueueOrTheEnvironment := by
  constructor
  · intro i s
    obtain ⟨t, next, lawful⟩ := exec_lawful i s
    exact ⟨t, next, lawful.queue, lawful.env⟩
  · intro s
    obtain ⟨t, next, lawful⟩ := step_lawful s
    exact ⟨t, next, lawful.queue, lawful.env⟩

end Sys2Proof.Machine

/-! # Reset sources: the reset each takes, now or after a write pulse (R461, R467, R471, R472, R474) -/

namespace Sys2Proof.Machine

namespace State

variable {s : State} {cause : Nat}

theorem takeReset_of_free (free : s.pw.pulse = none) : s.takeReset cause = s.seqBegin cause := by
  rw [takeReset, free]
  rfl

theorem takeReset_of_pulse {k : Nat} (pulse : s.pw.pulse = some k) (notPowerOn : cause ≠ 1) : s.takeReset cause = { s with
    cores := s.cores.map fun k => (k.1, if k.2.st = 1 then { k.2 with st := 0 } else k.2)
    pw := { s.pw with held := some (match s.pw.held with | some c => min c cause | none => cause) } } :=
  if_pos (by simp [pulse, notPowerOn])

theorem powerOn_of_free (free : s.pw.pulse = none) : s.powerOn = ((({ s with fresh := s.fresh + 8 } : State).modPw fun p => { p with
    pstate := 0, pulse := none, held := none, pinLow := false, tripHold := none, latched := false, trips := [] }).seqBegin 1) := by
  simp only [powerOn, free]
  rfl

theorem pinAssert_of_high (high : s.pw.pinLow = false) (on : s.pw.pstate ≠ 0) : s.pinAssert = (s.modPw fun p => { p with
    pinLow := true, latched := false, tripHold := if p.latched then none else p.tripHold }).takeReset 3 :=
  if_neg (by simp [high, on])

theorem watchdog_of_ready (ready : s.dc.dstate = 1) (runs : s.tru.wdtsusp = false) : s.watchdog = (s.modPw fun p => { p with
    expired := if p.expired = 0xFFFF then p.expired else p.expired + 1 }).takeReset 5 :=
  if_neg (by simp [ready, runs])

theorem sagDown_of_supplied (supplied : s.pw.sagOff = false) (on : s.pw.pstate ≠ 0) : s.sagDown = ((s.modPw fun p => { p with
    sagOff := true, pg48 := false, pstate := 1, sagwarn := true, sagn := false }).takeReset 2).setAlert 0 :=
  if_neg (by simp [supplied, on])

theorem refBack_of_lost (off : s.pw.refok = false) (lost : s.pw.refLost = true) :
    s.refBack = (s.modPw fun p => { p with refok := true, refLost := false }).takeReset 9 := by
  simp [refBack, off, lost]

/-- The pulse that `pulseEnd` ends has programmed its bit, and nothing is held any more. -/
def pulseOver (s : State) : State := (s.modPw fun p => { p with pulse := none, held := none }).bitDone s.pw.pulse

theorem pulseOver_eq (s : State) : s.pulseOver = { s with
    pw := { s.pw with pulse := none, held := none }
    tru := { s.tru with
      fwsvn := s.tru.fwsvn + (if s.pw.pulse = some 7 then 1 else 0), calsvn := s.tru.calsvn + (if s.pw.pulse = some 8 then 1 else 0) } } := by
  unfold pulseOver bitDone
  split
  · next programs => simp [programs, modPw]
  · next programs => simp [programs, modPw]
  · next not7 not8 =>
    have fw : s.pw.pulse ≠ some 7 := not7
    have cal : s.pw.pulse ≠ some 8 := not8
    simp [fw, cal, modPw]

theorem pulseEnd_held {k c : Nat} (pulse : s.pw.pulse = some k) (held : s.pw.held = some c) : s.pulseEnd = s.pulseOver.seqBegin c := by
  simp [pulseEnd, pulseOver, pulse, held]

theorem seqGo_of_none (ended : s.pw.seq = none) : s.seqGo = s := by
  rw [seqGo, ended]

theorem confirmGo_of_none (none : s.tru.confirm = none) : s.confirmGo = s := by
  rw [confirmGo, none]

theorem pulseEnd_free {k : Nat} (pulse : s.pw.pulse = some k) (held : s.pw.held = none) (ended : s.pw.seq = none)
    (confirmed : s.tru.confirm = none) : s.pulseEnd = s.pulseOver := by
  have ends : s.pulseEnd = s.pulseOver.seqGo.confirmGo := by
    simp [pulseEnd, pulseOver, pulse, held]
  have noSeq : s.pulseOver.pw.seq = none := by
    rw [pulseOver_eq]
    exact ended
  have noConfirm : s.pulseOver.tru.confirm = none := by
    rw [pulseOver_eq]
    exact confirmed
  rw [ends, seqGo_of_none noSeq, confirmGo_of_none noConfirm]

theorem pinRelease_of_low (low : s.pw.pinLow = true) : s.pinRelease = (s.modPw fun p => { p with pinLow := false }).seqGo :=
  if_neg (by simp [low])

theorem railsValid_of_off (off : s.pw.pstate = 0) : s.railsValid = (s.modPw fun p => { p with pstate := 1, auxok := true }).seqGo :=
  if_neg (by simp [off])

theorem sagUp_of_sag (sag : s.pw.sagOff = true) : s.sagUp = (s.modPw fun p => { p with sagOff := false }).seqGo :=
  if_neg (by simp [sag])

theorem tripEnd_of_due {t : Nat} (hold : s.pw.tripHold = some t) (free : s.pw.latched = false) (due : t ≤ s.now) :
    s.tripEnd = (s.modPw fun p => { p with tripHold := none }).seqGo := by
  rw [tripEnd, hold]
  exact if_neg (by simp [free, due])

end State

theorem exec_modResetNAssert (s : State) : exec .modResetNAssert s = .next s.pinAssert := rfl
theorem exec_ucieLinkReset (s : State) : exec .ucieLinkReset s = .next (if s.hp.link = 0 then s else s.takeReset 4) := rfl
theorem exec_watchdog (s : State) : exec .watchdog s = .next s.watchdog := rfl
theorem exec_sagReset (s : State) : exec .sagReset s = .next s.sagDown := rfl
theorem exec_referenceClockRegained (s : State) : exec .referenceClockRegained s = .next s.refBack := rfl
theorem exec_powerOnReset (s : State) : exec .powerOnReset s = .next s.powerOn := rfl
theorem exec_writePulseEnd (s : State) : exec .writePulseEnd s = .next s.pulseEnd := rfl
theorem exec_modResetNRelease (s : State) : exec .modResetNRelease s = .next s.pinRelease := rfl
theorem exec_standbyRailsValid (s : State) : exec .standbyRailsValid s = .next s.railsValid := rfl
theorem exec_sagResetRelease (s : State) : exec .sagResetRelease s = .next s.sagUp := rfl
theorem exec_standbyWaitExpiry (s : State) : exec .standbyWaitExpiry s = .next s.tripEnd := rfl

/-- Settles O14: each source by the lemma on its event, and the reset by whether a write pulse is under way
(`State.takeReset_of_free`, `State.takeReset_of_pulse`). -/
theorem resetSourcesTakeTheirResets : Obligations.ResetSourcesTakeTheirResets := by
  intro s expire pin sag hold take
  have taken (u : State) (cause : Nat) (notPowerOn : cause ≠ 1) : u.takeReset cause = take u cause := by
    unfold take
    split
    · next free => exact State.takeReset_of_free free
    · next busy =>
      obtain ⟨k, pulse⟩ := Option.ne_none_iff_exists'.mp busy
      exact State.takeReset_of_pulse pulse notPowerOn
  refine ⟨fun high on => ?pin, fun up => ?link, fun ready runs => ?watchdog, fun supplied on => ?sag, fun off lost => ?ref,
    fun free => ?powerOn, fun k c pulse held => ?held, fun k pulse held ended confirmed => ?free, fun low => ?release, fun off => ?rails,
    fun sagged => ?rises, fun t trips free due => ?cool, rfl, rfl⟩
  case pin => rw [exec_modResetNAssert, State.pinAssert_of_high high on, taken _ _ (by decide)]
  case link => rw [exec_ucieLinkReset, if_neg up, taken _ _ (by decide)]
  case watchdog => rw [exec_watchdog, State.watchdog_of_ready ready runs, taken _ _ (by decide)]
  case sag => rw [exec_sagReset, State.sagDown_of_supplied supplied on, taken _ _ (by decide)]
  case ref => rw [exec_referenceClockRegained, State.refBack_of_lost off lost, taken _ _ (by decide)]
  case powerOn => exact ⟨s.fresh + 8, by rw [exec_powerOnReset, State.powerOn_of_free free]⟩
  case held => exact ⟨s.pulseOver, by rw [State.pulseOver_eq], by rw [exec_writePulseEnd, State.pulseEnd_held pulse held]⟩
  case free =>
    rw [exec_writePulseEnd, State.pulseEnd_free pulse held ended confirmed, State.pulseOver_eq, pulse]
    simp [held]
  case release => rw [exec_modResetNRelease, State.pinRelease_of_low low]
  case rails => rw [exec_standbyRailsValid, State.railsValid_of_off off]
  case rises => rw [exec_sagResetRelease, State.sagUp_of_sag sagged]
  case cool => rw [exec_standbyWaitExpiry, State.tripEnd_of_due trips free due]

end Sys2Proof.Machine

/-! # Sags, droops, the reference clock, idleness and wake (R461, R466, R467, R469, R470, R484) -/

namespace Sys2Proof.Machine

/-- Two states that differ in the Lamplighter's registers, the event ring and what goes out at most. -/
def State.OnlyPower (s t : State) : Prop := t = { s with pw := t.pw, dc := t.dc, out := t.out }

namespace State

variable {s t u : State}

theorem OnlyPower.refl (s : State) : s.OnlyPower s := rfl

theorem OnlyPower.trans (h : s.OnlyPower t) (k : t.OnlyPower u) : s.OnlyPower u := by
  unfold OnlyPower at *
  rw [k, h]

theorem OnlyPower.ite {c : Prop} [Decidable c] (h : c → s.OnlyPower t) (k : ¬ c → s.OnlyPower u) : s.OnlyPower (if c then t else u) := by
  split
  · exact h ‹_›
  · exact k ‹_›

theorem modPw_onlyPower (s : State) (g : Power → Power) : s.OnlyPower (s.modPw g) := rfl

theorem alertPin_onlyPower (s : State) (a en : BitVec 7) : s.OnlyPower (s.alertPin a en) :=
  .ite (fun _ => rfl) fun _ => rfl

theorem setAlert_onlyPower (s : State) (bit : Nat) : s.OnlyPower (s.setAlert bit) := alertPin_onlyPower ..

theorem event_onlyPower (s : State) (cls status : Nat) (a b : W64) : s.OnlyPower (s.event cls status a b) :=
  .ite (fun _ => .refl s) fun _ => .ite (fun _ => rfl) fun _ => rfl

theorem powerEvent_onlyPower (s : State) (cause : Nat) : s.OnlyPower (s.powerEvent cause) := event_onlyPower ..

theorem sagWarn_onlyPower (s : State) : s.OnlyPower s.sagWarn :=
  .ite (fun _ => .refl s) fun _ => .trans (.trans (modPw_onlyPower ..) (setAlert_onlyPower ..)) (powerEvent_onlyPower ..)

theorem sagWarnEnd_onlyPower (s : State) : s.OnlyPower s.sagWarnEnd :=
  .ite (fun _ => .refl s) fun _ => .trans (modPw_onlyPower ..) (powerEvent_onlyPower ..)

theorem goIdle_onlyPower (s : State) : s.OnlyPower s.goIdle := .ite (fun _ => modPw_onlyPower ..) fun _ => .refl s
theorem wakeUp_onlyPower (s : State) : s.OnlyPower s.wakeUp := .ite (fun _ => modPw_onlyPower ..) fun _ => .refl s
theorem pllDone_onlyPower (s : State) : s.OnlyPower s.pllDone := .ite (fun _ => modPw_onlyPower ..) fun _ => .refl s

theorem sagWarn_of_rise (calm : s.pw.sagwarn = false) (on : s.pw.pstate ≠ 0) : s.sagWarn = ((s.modPw fun p => { p with
    sagwarn := true, sagn := false, sagCnt := p.sagCnt + 1 }).setAlert 0).powerEvent 1 :=
  if_neg (by simp [calm, on])

theorem sagWarnEnd_of_warned (warned : s.pw.sagwarn = true) (on : s.pw.pstate ≠ 0) :
    s.sagWarnEnd = (s.modPw fun p => { p with sagwarn := false, sagn := true }).powerEvent 2 :=
  if_neg (by simp [warned, on])

theorem droopStretch_new {street : Nat} (real : street < 48) (new : street ∉ s.pw.stretch) :
    s.droopStretch street = s.modPw fun p => { p with stretch := p.stretch ++ [street] } :=
  if_neg (by simp [new, Nat.not_le.2 real])

theorem droopStop_new {street : Nat} (real : street < 48) (new : street ∉ s.pw.stops) : s.droopStop street = ((s.modPw fun p => { p with
    stops := p.stops ++ [street], droopTot := p.droopTot + 1
    droopCnt := if p.droopCnt = 0xFFFFFFFF then p.droopCnt else p.droopCnt + 1 }).setAlert 6).powerEvent 8 :=
  if_neg (by simp [new, Nat.not_le.2 real])

theorem mem_stops_droopEnd (s : State) (street other : Nat) :
    other ∈ (s.droopEnd street).pw.stops ↔ other ∈ s.pw.stops ∧ other ≠ street := by
  simp [droopEnd, modPw]

theorem mem_stretch_droopEnd (s : State) (street other : Nat) :
    other ∈ (s.droopEnd street).pw.stretch ↔ other ∈ s.pw.stretch ∧ other ≠ street := by
  simp [droopEnd, modPw]

theorem refLoss_running (ok : s.pw.refok = true) (ended : s.pw.seq = none) (on : 2 ≤ s.pw.pstate) :
    s.refLoss = s.modPw fun p => { p with refok := false, refLost := true } := by
  simp [refLoss, modPw, ok, ended, on]

theorem goIdle_of_quiet (active : s.pw.pstate = 3) (ended : s.pw.seq = none) (quiet : s.quiet = true)
    (still : s.pw.idleFrom + 10 * msCycles ≤ s.now) (unasked : s.fab.lastReq + 10 * msCycles ≤ s.now) :
    s.goIdle = s.modPw fun p => { p with pstate := 2, pllst := 0 } :=
  if_pos (by simp [active, ended, quiet, still, unasked])

theorem wakeUp_of_idle (idle : s.pw.pstate = 2) (stopped : s.pw.pllst = 0) :
    s.wakeUp = s.modPw fun p => { p with pllst := 1, idleFrom := s.now } :=
  if_pos (by simp [idle, stopped])

theorem pllDone_of_idle (idle : s.pw.pstate = 2) (starting : s.pw.pllst = 1) :
    s.pllDone = s.modPw fun p => { p with pllst := 2, pstate := 3 } :=
  if_pos (by simp [idle, starting])

end State

theorem exec_sagWarning (s : State) : exec .sagWarning s = .next s.sagWarn := rfl
theorem exec_sagWarningRelease (s : State) : exec .sagWarningRelease s = .next s.sagWarnEnd := rfl
theorem exec_droopStretch (street : Nat) (s : State) : exec (.droopStretch street) s = .next (s.droopStretch street) := rfl
theorem exec_droopStop (street : Nat) (s : State) : exec (.droopStop street) s = .next (s.droopStop street) := rfl
theorem exec_referenceClockLost (s : State) : exec .referenceClockLost s = .next s.refLoss := rfl
theorem exec_chipWideIdleness (s : State) : exec .chipWideIdleness s = .next s.goIdle := rfl
theorem exec_wake (s : State) : exec .wake s = .next s.wakeUp := rfl
theorem exec_pllRestartComplete (s : State) : exec .pllRestartComplete s = .next s.pllDone := rfl

/-- Settles O17: each event by the lemma on its case, and what they leave alone by `State.OnlyPower`. -/
theorem supplyDroopAndClockEvents : Obligations.SupplyDroopAndClockEvents := by
  refine fun s => ⟨fun calm on => ?warn, fun warned on => ?release, fun street real new => ?stretch, fun street real new => ?stop,
    fun street => ?recovery, fun ok ended on => ?loss, fun active ended quiet still unasked => ?idle, fun idle stopped => ?wake,
    fun idle starting => ?restart, ?alone⟩
  case warn => rw [exec_sagWarning, State.sagWarn_of_rise calm on]; rfl
  case release => rw [exec_sagWarningRelease, State.sagWarnEnd_of_warned warned on]; rfl
  case stretch => rw [exec_droopStretch, State.droopStretch_new real new]
  case stop => rw [exec_droopStop, State.droopStop_new real new]; rfl
  case recovery =>
    refine ⟨s.droopEnd street, rfl, ?_, ?_, fun other ne => ⟨?_, ?_⟩, State.modPw_onlyPower ..⟩
    · simp [State.mem_stretch_droopEnd]
    · simp [State.mem_stops_droopEnd]
    · simp [State.mem_stops_droopEnd, ne]
    · simp [State.mem_stretch_droopEnd, ne]
  case loss => rw [exec_referenceClockLost, State.refLoss_running ok ended on]
  case idle => rw [exec_chipWideIdleness, State.goIdle_of_quiet active ended quiet still unasked]
  case wake => rw [exec_wake, State.wakeUp_of_idle idle stopped]
  case restart => rw [exec_pllRestartComplete, State.pllDone_of_idle idle starting]
  case alone =>
    intro i listed t next
    simp only [List.mem_cons, List.not_mem_nil, or_false] at listed
    obtain rfl | rfl | rfl | rfl | rfl | rfl := listed
    all_goals cases next
    · exact State.sagWarn_onlyPower s
    · exact State.sagWarnEnd_onlyPower s
    · exact State.modPw_onlyPower ..
    · exact State.goIdle_onlyPower s
    · exact State.wakeUp_onlyPower s
    · exact State.pllDone_onlyPower s

end Sys2Proof.Machine

/-! # Power samples, boundaries and the throttle levels (R462 to R465, R478) -/

namespace Sys2Proof.Machine

/-- What the samples and the throttles have come to: the samples kept, their mean and whether the last was hot, and the two levels. -/
def Power.reading (p : Power) : (List Nat × Nat × Bool) × Nat × Nat := ((p.samples, p.mean, p.hot), p.plevel, p.tlevel)

namespace State

variable {s : State}

theorem alertPin_pw (s : State) (a en : BitVec 7) :
    (s.alertPin a en).pw = { s.pw with alert := a, alerten := en, alertn := a &&& en == 0 } := by
  rw [alertPin_onlyPower]
  unfold alertPin
  exact (apply_ite State.pw _ _ _).trans (ite_self _)

theorem setAlert_pw (s : State) (bit : Nat) : (s.setAlert bit).pw = { s.pw with
    alert := s.pw.alert ||| BitVec.ofNat 7 (2 ^ bit), alertn := (s.pw.alert ||| BitVec.ofNat 7 (2 ^ bit)) &&& s.pw.alerten == 0 } :=
  alertPin_pw ..

theorem powerEvent_pw (s : State) (cause : Nat) : (s.powerEvent cause).pw = s.pw := event_pw ..

/-- What a power sample reads. -/
def sampleRead (s : State) (r : Sample) : State :=
  let samples := (s.pw.samples ++ [r.watts]).drop (s.pw.samples.length + 1 - 100)
  let top := max r.die r.sram
  s.modPw fun p => { p with
    samples := samples, mean := samples.foldl (· + ·) 0 / samples.length, vin := r.vin, tjmax := r.die, sensor := r.sensor
    tdeck := r.sram, tlp := r.lp, hot := decide (1840 ≤ top), alerted := decide (16 * (s.pw.alertc : Int) ≤ top) }

/-- A power sample before the trip it may bring. -/
def sampled (s : State) (r : Sample) : State :=
  let rise := decide (16 * (s.pw.alertc : Int) ≤ max r.die r.sram) && !s.pw.alerted
  let t := s.sampleRead r
  let t := if t.pw.cap * 125 < r.watts * 100 then t.setLevels 15 t.pw.tlevel else t
  if rise then (t.setAlert 2).powerEvent 9 else t

theorem mainRails (on : 2 ≤ s.pw.pstate ∨ s.pw.pg48 = true) : ¬(s.pw.pstate < 2 && !s.pw.pg48) = true := by
  rcases on with on | on
  · simp [Nat.not_lt.2 on]
  · simp [on]

theorem sample_eq (on : 2 ≤ s.pw.pstate ∨ s.pw.pg48 = true) (r : Sample) :
    s.sample r = if decide (1840 ≤ max r.die r.sram) && s.pw.hot then (s.sampled r).trip else s.sampled r :=
  if_neg (mainRails on)

@[simp] theorem setAlert_reading (s : State) (bit : Nat) : (s.setAlert bit).pw.reading = s.pw.reading := by
  rw [setAlert_pw]
  rfl

@[simp] theorem powerEvent_reading (s : State) (cause : Nat) : (s.powerEvent cause).pw.reading = s.pw.reading := by
  rw [powerEvent_pw]

theorem setLevels_reading (s : State) (pl tl : Nat) :
    (s.setLevels pl tl).pw.reading = ((s.pw.samples, s.pw.mean, s.pw.hot), pl, tl) := by
  unfold setLevels
  extract_lets p pStart tStart zero was is set told
  have toldReading : told.pw.reading = set.pw.reading := by
    unfold told
    split <;> simp
  refine Eq.trans ?_ (toldReading.trans rfl)
  split <;> simp

theorem sampled_reading (s : State) (r : Sample) :
    let keep := (s.pw.samples ++ [r.watts]).drop (s.pw.samples.length + 1 - 100)
    (s.sampled r).pw.reading = ((keep, keep.foldl (· + ·) 0 / keep.length, decide (1840 ≤ max r.die r.sram)),
      if s.pw.cap * 125 < r.watts * 100 then 15 else s.pw.plevel, s.pw.tlevel) := by
  intro keep
  unfold sampled
  extract_lets rise read capped
  have cappedReading : capped.pw.reading = ((keep, keep.foldl (· + ·) 0 / keep.length, decide (1840 ≤ max r.die r.sram)),
      if s.pw.cap * 125 < r.watts * 100 then 15 else s.pw.plevel, s.pw.tlevel) := by
    unfold capped
    split
    · next big => rw [setLevels_reading, if_pos (show s.pw.cap * 125 < r.watts * 100 from big)]; rfl
    · next small => rw [if_neg (show ¬ s.pw.cap * 125 < r.watts * 100 from small)]; rfl
  refine Eq.trans ?_ cappedReading
  split <;> simp

theorem setLevels_onlyPower (s : State) (pl tl : Nat) : s.OnlyPower (s.setLevels pl tl) := by
  unfold setLevels
  extract_lets p pStart tStart zero was is set told
  have toldOnly : s.OnlyPower told := .trans (modPw_onlyPower s _)
    (.ite (fun _ => .trans (setAlert_onlyPower ..) (powerEvent_onlyPower ..)) fun _ => .refl _)
  clear_value told
  exact toldOnly.trans (.ite (fun _ => .trans (setAlert_onlyPower ..) (powerEvent_onlyPower ..)) fun _ => .refl _)

theorem boundary_eq (on : 2 ≤ s.pw.pstate ∨ s.pw.pg48 = true) :
    let t := max s.pw.tjmax s.pw.tdeck + if s.pw.trimFault then 160 else 0
    s.boundary = s.setLevels
      (if s.pw.cap < s.pw.mean then min 15 (s.pw.plevel + 1)
        else if s.pw.mean * 100 < s.pw.cap * 97 then s.pw.plevel - 1 else s.pw.plevel)
      (if 1600 ≤ t then min 15 (s.pw.tlevel + 1) else if t < 1568 then s.pw.tlevel - 1 else s.pw.tlevel) :=
  if_neg (mainRails on)

theorem throttleEnd_power {t : Nat} (back : s.pw.plZero = some t) (due : t + 10 * msCycles ≤ s.now) :
    s.throttleEnd false = (s.modPw fun p => { p with plZero := none }).powerEvent 4 := by
  simp [throttleEnd, back, Nat.not_lt.2 due]

theorem throttleEnd_thermal {t : Nat} (back : s.pw.tlZero = some t) (due : t + 10 * msCycles ≤ s.now) :
    s.throttleEnd true = (s.modPw fun p => { p with tlZero := none }).powerEvent 6 := by
  simp [throttleEnd, back, Nat.not_lt.2 due]

theorem clocked_iff (s : State) (c : Nat) : s.clocked c = true ↔
    s.pw.pstate = 3 ∧ s.pw.pllst = 2 ∧ c / 64 ∉ s.pw.stops ∧ max s.pw.plevel s.pw.tlevel ≤ (s.now + c) % 16 := by
  simp [clocked, elevel, and_assoc]

/-- The conversion has stopped after a trip, and the wait of 10 s begins. -/
def tripped (s : State) : State :=
  let ts := (s.pw.trips.filter fun t => s.now < t + 600000 * msCycles) ++ [s.now]
  s.modPw fun p => { p with
    trips := ts, latched := decide (3 ≤ ts.length), tripHold := some (s.now + 10000 * msCycles), pg48 := false, pstate := 1
    hot := false }

theorem trip_eq (s : State) : s.trip = s.tripped.takeReset 6 := rfl

end State

theorem exec_powerSample (r : Sample) (s : State) : exec (.powerSample r) s = .next (s.sample r) := rfl
theorem exec_throttleBoundary (s : State) : exec .throttleBoundary s = .next s.boundary := rfl
theorem exec_throttleEnd (thermal : Bool) (s : State) : exec (.throttleEnd thermal) s = .next (s.throttleEnd thermal) := rfl

/-- Settles O16: a sample and a boundary by what they leave in the registers (`State.sampled_reading`, `State.setLevels_reading`), the end of
a throttle by its due time, and the stopped cycles by `State.clocked_iff`. -/
theorem throttlingFollowsPowerAndHeat : Obligations.ThrottlingFollowsPowerAndHeat := by
  refine ⟨fun s r on => ?sample, fun s on => ?boundary, fun s t due => ⟨fun back => ?power, fun back => ?thermal⟩, State.clocked_iff⟩
  case sample =>
    intro keep hot
    have reading := State.sampled_reading s r
    simp only [Power.reading, Prod.mk.injEq] at reading
    obtain ⟨⟨samples, mean, wasHot⟩, plevel, tlevel⟩ := reading
    refine ⟨s.sampled r, samples, mean, tlevel, plevel, wasHot, fun cool => ?_, fun again => ?_⟩
    · rw [exec_powerSample, State.sample_eq on, if_neg (by rwa [Bool.and_eq_true, decide_eq_true_eq])]
    · refine ⟨(s.sampled r).tripped, rfl, rfl, rfl, ?_⟩
      rw [exec_powerSample, State.sample_eq on, if_pos (by rwa [Bool.and_eq_true, decide_eq_true_eq]), State.trip_eq]
  case boundary =>
    intro t
    have reading := State.setLevels_reading s
      (if s.pw.cap < s.pw.mean then min 15 (s.pw.plevel + 1)
        else if s.pw.mean * 100 < s.pw.cap * 97 then s.pw.plevel - 1 else s.pw.plevel)
      (if 1600 ≤ t then min 15 (s.pw.tlevel + 1) else if t < 1568 then s.pw.tlevel - 1 else s.pw.tlevel)
    rw [← State.boundary_eq on] at reading
    simp only [Power.reading, Prod.mk.injEq] at reading
    refine ⟨s.boundary, exec_throttleBoundary s, ?_, reading.2⟩
    rw [State.boundary_eq on]
    exact State.setLevels_onlyPower ..
  case power =>
    rw [exec_throttleEnd, State.throttleEnd_power back due]
    rfl
  case thermal =>
    rw [exec_throttleEnd, State.throttleEnd_thermal back due]
    rfl

end Sys2Proof.Machine

/-! # Block resets and the completion of long commands (R348, R410, R443, R480) -/

namespace Sys2Proof.Machine
namespace State

variable {s : State} {b st : Nat} {k : BlockReset} {x : Stream}

/-- The block's reset has begun, with what is known of its idleness. -/
def blockMarked (s : State) (b : Nat) (k : BlockReset) (idle : Bool) : State := { s with
  blocks := SMap.put s.blocks b { k with phase := 2, idle := idle } }

theorem blockReset_of_none (h : SMap.get? s.blocks b = none) (idle : Bool) : s.blockReset b idle = s := by
  simp [blockReset, h]

theorem blockReset_of_unmarked (h : SMap.get? s.blocks b = some k) (unmarked : k.phase ≠ 1) (idle : Bool) : s.blockReset b idle = s := by
  simp [blockReset, h, unmarked]

theorem blockReset_of_marked (h : SMap.get? s.blocks b = some k) (marked : k.phase = 1) (idle : Bool) :
    s.blockReset b idle = (s.blockMarked b k idle).blockFall b := by
  simp [blockReset, blockMarked, h, marked]

theorem blockIdleEvent_of_busy (busy : s.blockIdle b = false) : s.blockIdleEvent b = s :=
  if_neg (by simp [busy])

theorem blockIdleEvent_of_idle (idle : s.blockIdle b = true) : s.blockIdleEvent b = s.blockReset b true :=
  if_pos idle

theorem blockTmo_of_none (h : SMap.get? s.blocks b = none) : s.blockTmo b = s := by
  simp [blockTmo, h]

theorem blockTmo_of_early (h : SMap.get? s.blocks b = some k) (early : s.now < k.since + k.tmo * 2400 ∨ s.blockIdle b = true) :
    s.blockTmo b = s := by
  simp only [blockTmo, h]
  refine if_neg ?_
  obtain early | idle := early
  · simp [Nat.not_le.2 early]
  · simp [idle]

theorem blockTmo_of_passed (h : SMap.get? s.blocks b = some k) (passed : k.since + k.tmo * 2400 ≤ s.now) (busy : s.blockIdle b = false) :
    s.blockTmo b = s.blockReset b false := by
  simp only [blockTmo, h]
  exact if_pos (by simp [passed, busy])

/-- A block that is not marked is left alone, whether its timeout has passed or not. -/
theorem blockTmo_of_unmarked (h : SMap.get? s.blocks b = some k) (unmarked : k.phase ≠ 1) : s.blockTmo b = s := by
  simp only [blockTmo, h, blockReset_of_unmarked h unmarked, ite_self]

theorem blockBack_of_none (h : SMap.get? s.blocks b = none) : s.blockBack b = s := by
  simp [blockBack, h]

theorem blockBack_of_early (h : SMap.get? s.blocks b = some k) (early : k.phase ≠ 2) : s.blockBack b = s := by
  simp [blockBack, h, early]

/-- The block is available again; a memory controller's links need no training (R480). -/
def blockFreed (s : State) (b : Nat) : State :=
  let t : State := { s with blocks := SMap.del s.blocks b }
  if b ≤ 0x0B then t.setMc b { t.mc b with trained := 0xFF } else t

theorem blockBack_of_reset (h : SMap.get? s.blocks b = some k) (fallen : k.phase = 2) :
    s.blockBack b = (s.blockFreed b).endLong k.st St.ok ((if k.idle then 1 else 0) + k.count * 2 ^ 32) true := by
  simp only [blockBack, h, fallen, bne_self_eq_false, Bool.false_eq_true, if_false]
  rfl

theorem longComplete_of_gone (h : s.stream? st = none) : s.longComplete st = s := by
  simp [longComplete, h]

theorem longComplete_of_short (h : s.stream? st = some x) (short : x.long = none) : s.longComplete st = s := by
  simp [longComplete, h, short]

theorem longComplete_xwOpen (h : s.stream? st = some x) (w : x.long = some (.xwOpen b)) :
    s.longComplete st = (s.openRegion b).2.endLong st (s.openRegion b).1 0 true := by
  simp only [longComplete, h, w]

theorem longComplete_xwClose (h : s.stream? st = some x) (w : x.long = some (.xwClose b)) :
    s.longComplete st = (s.closeRegion b).2.2.endLong st (s.closeRegion b).1 (s.closeRegion b).2.1 true := by
  simp only [longComplete, h, w]

/-- A step run and a global operation wait until their work is done. -/
theorem longComplete_told (h : s.stream? st = some x) (w : x.long = some (.stepRun b) ∨ x.long = some (.global b)) :
    s.longComplete st = if x.done = 1 then s.endLong st x.last x.bytes.toNat true x.rlog2 else s := by
  obtain w | w := w <;> simp only [longComplete, h, w]

theorem longComplete_blockReset (h : s.stream? st = some x) (w : x.long = some (.blockReset b)) : s.longComplete st = s := by
  simp only [longComplete, h, w]

/-- A leave waits until the fabric drains with nothing outstanding. -/
theorem longComplete_leave (h : s.stream? st = some x) (w : x.long = some .leave) : s.longComplete st =
    if s.fab.devState = 2 && s.fab.leaving.isSome && s.fab.outst.isEmpty && s.fab.waiting.isEmpty then
      (s.setFabric 3).endLong st St.ok 0 true
    else s := by
  simp only [longComplete, h, w]

theorem openRegion_of_thawed {g : Region} (h : SMap.get? s.regions b = some g) (thawed : s.inFrozen g.shadow (8 * g.count) = false) :
    s.openRegion b = (St.ok, s.finishOpen b) := by
  simp only [openRegion, h, thawed, Bool.false_eq_true, if_false]

theorem openRegion_of_frozen {g : Region} (h : SMap.get? s.regions b = some g) (frozen : s.inFrozen g.shadow (8 * g.count) = true) :
    s.openRegion b = (St.notAuthorised, { s with regions := SMap.del s.regions b }) := by
  simp only [openRegion, h, frozen, if_true]

/-- The stream of a long command is gone when the command has ended. -/
theorem stream?_endLong (h : s.stream? st = some x) (e v : Nat) (write : Bool) (pieces : Nat) :
    (s.endLong st e v write pieces).stream? st = none := by
  simp only [endLong, h]
  exact SMap.get?_del_same _ _

end State

theorem exec_blockResetIdle (b : Nat) (s : State) : exec (.blockResetIdle b) s = .next (s.blockIdleEvent b) := rfl
theorem exec_blockResetTmo (b : Nat) (s : State) : exec (.blockResetTmo b) s = .next (s.blockTmo b) := rfl
theorem exec_blockReinitialised (b : Nat) (s : State) : exec (.blockReinitialised b) s = .next (s.blockBack b) := rfl
theorem exec_longCommandComplete (st : Nat) (s : State) : exec (.longCommandComplete st) s = .next (s.longComplete st) := rfl

/-- Settles O53: each step of a block's reset and each long command by the lemma on its case. -/
theorem blocksResetAndLongCommandsComplete : Obligations.BlocksResetAndLongCommandsComplete := by
  unfold Obligations.BlocksResetAndLongCommandsComplete
  simp only [exec_blockResetIdle, exec_blockResetTmo, exec_blockReinitialised, exec_longCommandComplete]
  refine ⟨fun s b => ⟨fun absent => ?noBlock, fun k present => ⟨?busy, ?idle, ?early, ?passed, ?waiting, ?back⟩⟩,
    fun s st => ⟨fun gone => ?gone, fun x present => ⟨fun short => ?short, fun b w g open' => ⟨fun thawed => ?thawed, fun frozen => ?frozen⟩,
      fun b w => ?close, fun b w => ⟨fun working => ?working, fun done => ?done⟩, fun b w => ?reset,
      fun w => ⟨fun unready => ?unready, fun draining leaving answered sent => ?left⟩, fun _ _ _ e v => ?freed⟩⟩⟩
  case noBlock =>
    refine ⟨?_, by rw [State.blockTmo_of_none absent], by rw [State.blockBack_of_none absent]⟩
    cases idle : s.blockIdle b
    · rw [State.blockIdleEvent_of_busy idle]
    · rw [State.blockIdleEvent_of_idle idle, State.blockReset_of_none absent]
  case busy =>
    intro alone
    cases idle : s.blockIdle b
    · rw [State.blockIdleEvent_of_busy idle]
    · rw [State.blockIdleEvent_of_idle idle, State.blockReset_of_unmarked present (alone.resolve_left (by simp [idle]))]
  case idle =>
    intro idle marked
    rw [State.blockIdleEvent_of_idle idle, State.blockReset_of_marked present marked]
    rfl
  case early =>
    rintro (early | idle | unmarked)
    · rw [State.blockTmo_of_early present (.inl early)]
    · rw [State.blockTmo_of_early present (.inr idle)]
    · rw [State.blockTmo_of_unmarked present unmarked]
  case passed =>
    intro passed busy marked
    rw [State.blockTmo_of_passed present passed busy, State.blockReset_of_marked present marked]
    rfl
  case waiting => exact fun early => by rw [State.blockBack_of_early present early]
  case back =>
    intro fallen
    rw [State.blockBack_of_reset present fallen]
    rfl
  case gone => rw [State.longComplete_of_gone gone]
  case short => rw [State.longComplete_of_short present short]
  case thawed => rw [State.longComplete_xwOpen present w, State.openRegion_of_thawed open' thawed]
  case frozen => rw [State.longComplete_xwOpen present w, State.openRegion_of_frozen open' frozen]
  case close => rw [State.longComplete_xwClose present w]
  case working => rw [State.longComplete_told present w, if_neg working]
  case done => rw [State.longComplete_told present w, if_pos done]
  case reset => rw [State.longComplete_blockReset present w]
  case unready =>
    rw [State.longComplete_leave present w, if_neg]
    simp only [Bool.and_eq_true, decide_eq_true_eq, Option.isSome_iff_ne_none, List.isEmpty_iff, not_and_or]
    tauto
  case left =>
    rw [State.longComplete_leave present w, if_pos]
    simp [draining, Option.isSome_iff_ne_none.2 leaving, answered, sent]
  case freed => exact State.stream?_endLong present e v true 1

end Sys2Proof.Machine

/-! # The service transports and the expiries of nonces and sessions (R500, R505, R508, R509, R512, R517) -/

namespace Sys2Proof.Machine
namespace State

variable {s : State} {port : Nat} {v : W32}

/-- ANNOUNCE carries the serial number, the version of the firmware, the device state, the strap code, the port and its MAC address. -/
def announcement (s : State) (port : Nat) : List Byte :=
  le 8 Config.serial.toNat ++ le 8 (rd s.tru.runHdr 8 8) ++ le 1 s.dc.dstate ++ le 1 s.pw.code ++ le 1 port ++ zeros 5 ++
    le 6 (Config.mac port).toNat ++ zeros 2

theorem announce_of_up (up : s.svcUp = true) (real : port < 2) : s.announce port = s.svcSend port 2 (s.announcement port) :=
  if_neg (by simp [up, real])

theorem arp_of_own {ip : W32} (up : s.svcUp = true) (real : port < 2) (own : s.svcAddr port = ip) : s.arp port ip = s.emit (.arp port ip) :=
  if_pos (by simp [up, real, own])

theorem echo_of_up (up : s.svcUp = true) (real : port < 2) (data : List Byte) : s.echo port data = s.emit (.icmp port data) :=
  if_pos (by simp [up, real])

theorem mctpSpdm_of_running (running : s.dc.dstate ≠ 0) (msg : List Byte) :
    s.mctpSpdm msg = (s.spdm 5 false msg).2.emit (.mctp (5 :: (s.spdm 5 false msg).1)) :=
  if_neg running

theorem dbgctl_of_lock (lock : v.getLsbD 0 = true) :
    s.dbgctl v = { s with tru := { s.tru with dbglock := true, debug := 0, wdtsusp := false } } :=
  if_pos lock

theorem dbgctl_of_control (unlocked : v.getLsbD 0 = false) (control : s.tru.debug = 2) :
    s.dbgctl v = { s with tru := { s.tru with wdtsusp := v.getLsbD 1 } } := by
  simp only [dbgctl, unlocked, control, Bool.false_eq_true, if_false, if_true]

theorem nonceExpiry_of_some {p : Port} {n : BitVec 256} {till : Nat} (h : SMap.get? s.tru.nonces (portNo p) = some (n, till)) : s.nonceExpiry p =
    if till ≤ s.now then { s with tru := { s.tru with nonces := SMap.del s.tru.nonces (portNo p) } } else s := by
  simp only [nonceExpiry, h]

theorem sessionExpiry_of_some {x : Session} (h : s.tru.session = some x) :
    s.sessionExpiry = if x.expiry ≤ s.now then { s with tru := { s.tru with session := none } } else s := by
  simp only [sessionExpiry, h]

end State

theorem exec_discover (h : SvcHdr) (s : State) : exec (.discover h) s = .next (s.announce h.port) := rfl
theorem exec_arpRequest (port : Nat) (ip : W32) (s : State) : exec (.arpRequest port ip) s = .next (s.arp port ip) := rfl
theorem exec_icmpEchoRequest (port : Nat) (data : List Byte) (s : State) :
    exec (.icmpEchoRequest port data) s = .next (s.echo port data) := rfl
theorem exec_mctpSpdm (msg : List Byte) (s : State) : exec (.mctpSpdm msg) s = .next (s.mctpSpdm msg) := rfl
theorem exec_nonceExpiry (p : Port) (s : State) : exec (.nonceExpiry p) s = .next (s.nonceExpiry p) := rfl
theorem exec_sessionExpiry (s : State) : exec .sessionExpiry s = .next s.sessionExpiry := rfl

/-- DBGLOCK and WDTSUSP lie in one register: a write of either writes both. -/
theorem exec_dbgctl {s : State} {v : W32} {i : Instr} (listed : i ∈ [Instr.dbglock v, .wdtsusp v]) (linked : s.hp.link = 2) :
    exec i s = .next (s.touch.dbgctl v) := by
  simp only [List.mem_cons, List.not_mem_nil, or_false] at listed
  obtain rfl | rfl := listed <;> exact congrArg Host.Outcome.next (if_pos linked)

/-- Settles O28: each message, register write and expiry by the lemma on its case. -/
theorem serviceTransportsAndExpiries : Obligations.ServiceTransportsAndExpiries := by
  refine fun s => ⟨fun h up real => ?announce, fun port ty bs => rfl, fun port ip up real own => ?arp, fun port bs up real => ?echo,
    fun h bs => rfl, fun bs running => ?spdm, fun bs => ⟨_, _, rfl, rfl, rfl, rfl⟩,
    fun v linked => ⟨fun lock i listed => ?lock, fun unlocked control i listed => ?suspend⟩, fun p n till held => ?nonce, fun x held => ?session⟩
  case announce => rw [exec_discover, State.announce_of_up up real]; rfl
  case arp => rw [exec_arpRequest, State.arp_of_own up real own]
  case echo => rw [exec_icmpEchoRequest, State.echo_of_up up real]
  case spdm => rw [exec_mctpSpdm, State.mctpSpdm_of_running running]
  case lock => rw [exec_dbgctl listed linked, State.dbgctl_of_lock lock]; rfl
  case suspend => rw [exec_dbgctl listed linked, State.dbgctl_of_control (s := s.touch) unlocked control]; rfl
  case nonce => rw [exec_nonceExpiry, State.nonceExpiry_of_some held]
  case session => rw [exec_sessionExpiry, State.sessionExpiry_of_some held]

end Sys2Proof.Machine

/-! # The image fetch and the hand-over between firmware banks (R490, R491, R493, R497, R510) -/

namespace Sys2Proof.Machine
namespace State

variable {s : State} {f : ImgFetch} {off : Nat}

/-- A fetch whose length is known asks for nothing more. -/
theorem imgPump_of_len (fetching : s.tru.fetch = some f) (known : f.len.isSome = true) : ∀ k, imgPump k s = s
  | 0 => rfl
  | _ + 1 => by
    simp only [imgPump, fetching]
    exact if_neg (by simp [Option.isSome_iff_ne_none.1 known])

theorem imgRequest_fetch (fetching : s.tru.fetch = some f) (off : Nat) :
    (s.imgRequest off).tru.fetch = some { f with out := SMap.put f.out off s.now } := by
  simp only [imgRequest, fetching]
  rfl

/-- Asking for blocks does not settle the length. -/
theorem imgPump_unknown (n : Nat) (fetching : s.tru.fetch = some f) (unknown : f.len = none) :
    ∃ g, (imgPump n s).tru.fetch = some g ∧ g.len = none := by
  induction n generalizing s f with
  | zero => exact ⟨f, fetching, unknown⟩
  | succ n ih =>
    simp only [imgPump, fetching]
    split
    · exact ih (imgRequest_fetch (f := { f with next := f.next + 1024 }) rfl f.next) unknown
    · exact ⟨f, fetching, unknown⟩

/-- An image whose blocks have all come is checked and started. -/
def imgDone (s : State) : State :=
  match s.tru.fetch.bind fetched with
  | some image => s.imgBoot image
  | none => s

theorem imgDone_of_unknown (fetching : s.tru.fetch = some f) (unknown : f.len = none) : s.imgDone = s := by
  simp only [imgDone, fetching, Option.bind_some, fetched, unknown]

theorem imgDone_of_fetch (fetching : s.tru.fetch = some f) :
    s.imgDone = match fetched f with | some image => s.imgBoot image | none => s := by
  simp only [imgDone, fetching, Option.bind_some]

section Block

variable (booting : s.pw.seq = some 4) (fetching : s.tru.fetch = some f)
include booting fetching

theorem imgRetry_of_late {t : Nat} (since : SMap.get? f.out off = some t) (late : t + 200 * msCycles ≤ s.now) :
    s.imgRetry off = s.imgRequest off := by
  simp only [imgRetry, fetching, since]
  exact if_pos (by simp [booting, late])

theorem imgTimeout_of_silent (silent : f.lastRx + 30000 * msCycles ≤ s.now) : s.imgTimeout =
    (({ s with tru := { s.tru with fetch := none } } : State).logErr 0x81 9 0 St.timeout).recover false := by
  simp only [imgTimeout, fetching]
  exact if_pos (by simp [booting, silent])

section Asked

variable (asked : (SMap.get? f.out off).isSome = true)
include asked

/-- A block with bytes is kept. -/
theorem imgData_of_block {bs : List Byte} (filled : bs ≠ []) (short : bs.length ≤ 1024) : s.imgData off bs =
    imgDone (imgPump 16 { s with tru := { s.tru with
      fetch := some { f with out := SMap.del f.out off, lastRx := s.now, bytes := SMap.put f.bytes off bs } } }) := by
  simp only [imgData, fetching, List.isEmpty_iff, filled, if_false]
  exact if_neg (by simp [booting, Option.isSome_iff_ne_none.1 asked, short])

/-- An empty block fixes the length. -/
theorem imgData_of_empty (unknown : f.len = none) : s.imgData off [] = imgDone (imgPump 16 { s with tru := { s.tru with
      fetch := some { f with out := SMap.del f.out off, lastRx := s.now, len := some off } } }) := by
  simp only [imgData, fetching, List.isEmpty_nil, if_true, unknown]
  exact if_neg (by simp [booting, Option.isSome_iff_ne_none.1 asked])

end Asked

end Block

theorem recover_dstate (hold : Bool) : (s.recover hold).dc.dstate = 3 := by
  cases hold <;> simp [recover]

/-- An image that fails a check leads to recovery. -/
theorem imgBoot_dstate {image : List Byte} (bad : imgCheck s.tru 0 ⟨image.take 1024, image.drop 1024⟩ ≠ 0) :
    (s.imgBoot image).dc.dstate = 3 := by
  simp only [imgBoot, bad, if_false, recover_dstate]

theorem handOver_of_staged {slot : Nat} {i : Img} (staged : s.tru.handover = some slot) (calm : s.pw.pulse = none)
    (held : s.tru.img 0 slot = some i) : s.handOver = { s with
      tru := { s.tru with handover := none, handAt := some s.now, bank := 1 - s.tru.bank, fwslot := slot, runHdr := i.hdr }
      dc := { s.dc with fwok := false } } := by
  simp only [handOver, staged, calm, held, Option.isSome_none, Bool.false_eq_true, if_false]

theorem handTimeout_of_silent {t : Nat} (since : s.tru.handAt = some t) (silent : t + 10 * msCycles ≤ s.now) :
    s.handTimeout = s.takeReset 5 := by
  simp only [handTimeout, since, silent, if_true]

end State

theorem exec_imgData (h : SvcHdr) (off : Nat) (bs : List Byte) (s : State) : exec (.imgData h off bs) s = .next (s.imgData off bs) := rfl
theorem exec_imgReqRetry (off : Nat) (s : State) : exec (.imgReqRetry off) s = .next (s.imgRetry off) := rfl
theorem exec_imageFetchTimeout (s : State) : exec .imageFetchTimeout s = .next s.imgTimeout := rfl
theorem exec_handOverPoint (s : State) : exec .handOverPoint s = .next s.handOver := rfl
theorem exec_handoverHeartbeatTimeout (s : State) : exec .handoverHeartbeatTimeout s = .next s.handTimeout := rfl

/-- Settles O29: each event of the fetch and of the hand-over by the lemma on its case. -/
theorem imagesAreFetchedAndHandedOver : Obligations.ImagesAreFetchedAndHandedOver := by
  refine ⟨fun s h off bs f booting fetching asked => ⟨fun filled short unknown => ?block, fun unknown => ⟨?pumped, ?empty⟩,
    fun t since late => ?retry, fun silent => ?timeout⟩, fun s image bad => State.imgBoot_dstate bad,
    fun s slot i staged calm held => ?handOver, fun s t since silent => ?silent⟩
  case block =>
    obtain ⟨g, still, open'⟩ := State.imgPump_unknown (s := { s with tru := { s.tru with
      fetch := some { f with out := SMap.del f.out off, lastRx := s.now, bytes := SMap.put f.bytes off bs } } }) 16 rfl unknown
    rw [exec_imgData, State.imgData_of_block booting fetching asked filled short, State.imgDone_of_unknown still open']
  case pumped => exact State.imgPump_of_len rfl rfl 16
  case empty =>
    rw [exec_imgData, State.imgData_of_empty booting fetching asked unknown, State.imgPump_of_len rfl rfl 16,
      State.imgDone_of_fetch rfl] <;> rfl
  case retry => rw [exec_imgReqRetry, State.imgRetry_of_late booting fetching since late]
  case timeout => rw [exec_imageFetchTimeout, State.imgTimeout_of_silent booting fetching silent]
  case handOver => rw [exec_handOverPoint, State.handOver_of_staged staged calm held]
  case silent => rw [exec_handoverHeartbeatTimeout, State.handTimeout_of_silent since silent]

end Sys2Proof.Machine

/-! # What a reset removes, leaves undefined and keeps (R8, R445, R473, R475, R499) -/

namespace Sys2Proof.Machine

/-- A state with what the boot may change taken from another one: the memory controllers and the host port, the Lamplighter but for the cause
and the count of merged resets, what firmware says of itself, the boot's own part of the trust state, and what goes out. -/
def State.booted (s t : State) : State := { s with
  mcs := t.mcs, hp := t.hp, out := t.out
  pw := { t.pw with cause := s.pw.cause, merged := s.pw.merged }
  dc := { t.dc with ring := s.dc.ring, evEn := s.dc.evEn, gen := s.dc.gen }
  tru := { t.tru with
    owner := s.tru.owner, fwsvn := s.tru.fwsvn, calsvn := s.tru.calsvn, ownchg := s.tru.ownchg, keyrev := s.tru.keyrev
    nonces := s.tru.nonces, session := s.tru.session, debug := s.tru.debug } }

/-- While the event ring is off, the second state differs from the first in what the boot may change at most. -/
structure State.Boots (s t : State) : Prop where
  same : s.dc.evEn = false → t = s.booted t

namespace State

variable {s t u : State}

theorem Boots.refl (s : State) : s.Boots s := ⟨fun _ => rfl⟩

theorem Boots.trans (h : s.Boots t) (k : t.Boots u) : s.Boots u where
  same off := by
    have first := h.same off
    have second := k.same (by rw [first]; exact off)
    rw [second, first]
    rfl

theorem Boots.ite {c : Prop} [Decidable c] (h : c → s.Boots t) (k : ¬ c → s.Boots u) : s.Boots (if c then t else u) := by
  split
  · exact h ‹_›
  · exact k ‹_›

theorem event_of_off (off : s.dc.evEn = false) (cls status : Nat) (x y : W64) : s.event cls status x y = s :=
  if_pos (by simp [off])

theorem event_boots (s : State) (cls status : Nat) (x y : W64) : s.Boots (s.event cls status x y) :=
  ⟨fun off => by rw [event_of_off off]; rfl⟩

theorem logged_boots (s : State) (log : List ErrEntry) (n : W32) (cls status : Nat) (x y : W64) (o : Out) :
    s.Boots ((({ s with tru := { s.tru with log := log, errSeq := n } } : State).event cls status x y).emit o) :=
  .trans (.trans ⟨fun _ => rfl⟩ (event_boots ..)) ⟨fun _ => rfl⟩

theorem logErrSev_boots (s : State) (sev src code : Nat) (addr : W64) (status : Nat) (data : List Byte) :
    s.Boots (s.logErrSev sev src code addr status data) := by
  unfold logErrSev
  dsimp only
  split
  · exact ⟨fun _ => rfl⟩
  · exact logged_boots ..

theorem logErr_boots (s : State) (src code : Nat) (addr : W64) (status : Nat) (data : List Byte) :
    s.Boots (s.logErr src code addr status data) := logErrSev_boots ..

theorem setAlert_boots (s : State) (bit : Nat) : s.Boots (s.setAlert bit) := .ite (fun _ => ⟨fun _ => rfl⟩) fun _ => ⟨fun _ => rfl⟩

theorem seqEnd_boots (s : State) : s.Boots s.seqEnd := .trans (⟨fun _ => rfl⟩) (logErrSev_boots ..)

theorem linksUp_boots (s : State) : s.Boots s.linksUp := ⟨fun _ => rfl⟩

theorem recover_boots (s : State) (hold : Bool) : s.Boots (s.recover hold) := by
  refine .trans (t := { s with dc := { s.dc with fwok := true, dstate := 3 }, pw := { s.pw with pstate := 3 } }) (⟨fun _ => rfl⟩)
    (.trans ?_ (seqEnd_boots _))
  exact .ite (fun _ => .refl _) fun _ => linksUp_boots _

theorem writeHdr_boots (s : State) (g : BootHdr → BootHdr) : s.Boots { s with tru := s.tru.writeHdr g } := by
  refine ⟨fun _ => ?_⟩
  unfold Trust.writeHdr
  dsimp only
  split <;> rfl

theorem bootHeader_boots (s : State) : s.Boots s.bootHeader :=
  .trans (.ite (fun _ => logErr_boots ..) fun _ => .refl s) (writeHdr_boots ..)

theorem bootSlot_boots (s : State) (kind : Nat) : s.Boots (s.bootSlot kind).2 := by
  unfold bootSlot
  dsimp only
  split <;> dsimp only
  · exact .trans (writeHdr_boots ..) (logErr_boots ..)
  · exact .refl s

theorem bootCheck_boots (s : State) (kind slot : Nat) : s.Boots (s.bootCheck kind slot).2 := by
  unfold bootCheck
  dsimp only
  split
  · exact .refl s
  · split <;> dsimp only
    · exact logErr_boots ..
    · exact .trans (logErr_boots ..) (logErr_boots ..)

theorem runImage_boots (s : State) (fw cal : Nat) (hdr : List Byte) (i : Img) :
    s.Boots (({ s with tru := { s.tru with fwslot := fw, calslot := cal, calHdr := hdr } } : State).runImage i).firmwareUp := ⟨fun _ => rfl⟩

theorem bootFlash_boots (s : State) : s.Boots s.bootFlash := by
  unfold bootFlash
  extract_lets header
  dsimp only
  have checked := (bootHeader_boots s).trans ((bootSlot_boots header 0).trans ((bootSlot_boots _ 1).trans
    ((bootCheck_boots _ 0 (header.bootSlot 0).1).trans (bootCheck_boots _ 1 ((header.bootSlot 0).2.bootSlot 1).1))))
  split
  · split
    · exact checked.trans (runImage_boots ..)
    · exact checked.trans (recover_boots ..)
  · exact checked.trans (recover_boots ..)

theorem imgRequest_boots (s : State) (off : Nat) : s.Boots (s.imgRequest off) := by
  unfold imgRequest
  split <;> exact ⟨fun _ => rfl⟩

theorem imgPump_boots (n : Nat) (s : State) : s.Boots (imgPump n s) := by
  induction n generalizing s with
  | zero => exact .refl s
  | succ n ih =>
    unfold imgPump
    split
    · exact .ite (fun _ => .trans (.trans (⟨fun _ => rfl⟩) (imgRequest_boots ..)) (ih _)) fun _ => .refl s
    · exact .refl s

theorem seqBoot_boots (s : State) : s.Boots s.seqBoot := by
  unfold seqBoot
  split
  · exact recover_boots ..
  · exact recover_boots ..
  · exact .ite (fun _ => .trans (bootHeader_boots s) (.trans (⟨fun _ => rfl⟩) (imgPump_boots ..))) fun _ => bootFlash_boots s

theorem seqStrap_boots (s : State) : s.Boots s.seqStrap := by
  refine .ite (fun _ => ⟨fun _ => rfl⟩) fun _ => ?_
  refine .trans (.trans (t := { s with pw := { s.pw with
    code := (strapCode s.env.rmeas).1, straperr := (strapCode s.env.rmeas).2, rmeas := min (s.env.rmeas / 100) 0xFFF } }) (⟨fun _ => rfl⟩)
    (.ite (fun _ => setAlert_boots ..) fun _ => .refl _)) (seqBoot_boots _)

theorem seqTrim_boots (s : State) : s.Boots s.seqTrim := by
  unfold seqTrim
  extract_lets p n ok trimmed
  have first : s.Boots trimmed := ⟨fun _ => rfl⟩
  clear_value trimmed
  exact .trans (first.trans (.ite (fun _ => .refl _) fun _ => .trans (setAlert_boots ..) (logErr_boots ..))) (seqStrap_boots _)

theorem seqRails_boots (s : State) (trim : Bool) : s.Boots (s.seqRails trim) :=
  .ite (fun _ => ⟨fun _ => rfl⟩) fun _ => .ite (fun _ => .trans (⟨fun _ => rfl⟩) (seqTrim_boots _)) fun _ => .trans (⟨fun _ => rfl⟩) (seqStrap_boots _)

/-- Does a reset of the cause keep LPDDR5X (R475)? -/
def resetKeeps (s : State) (cause : Nat) : Bool := !decide (cause ≤ 2) && cause != 6 && s.nb == 0

/-- The state that the sequence starts from: with the cause in its registers, and wiped. -/
def begun (s : State) (cause : Nat) : State :=
  ({ s with pw := { s.pw with
    cause := if s.pw.seq.isSome then s.pw.cause else cause
    cold := decide (cause ≤ 2) || (s.pw.seq.isSome && s.pw.cold)
    merged := if s.pw.seq.isSome then min 255 (s.pw.merged + 1) else 0
    warmcnt := if decide (cause ≤ 2) || s.pw.warmcnt = 0xFFFF then s.pw.warmcnt else s.pw.warmcnt + 1
    pg48 := if decide (cause ≤ 2) || cause = 6 then false else s.pw.pg48 } }).wipe (decide (cause ≤ 2)) (s.resetKeeps cause)

theorem seqBegin_boots (s : State) (cause : Nat) : (s.begun cause).Boots (s.seqBegin cause) := by
  unfold seqBegin
  extract_lets p cold was keep caused wiped
  have start : s.begun cause = wiped := rfl
  rw [start]
  clear_value wiped
  refine .ite (fun _ => seqRails_boots ..) fun _ => .ite (fun _ => seqRails_boots ..) fun _ => ?_
  generalize was = before
  split
  · exact seqRails_boots ..
  · exact seqRails_boots ..
  · exact seqStrap_boots ..

theorem resetKeeps_eq (s : State) (cause : Nat) : s.resetKeeps cause = (decide (3 ≤ cause) && cause != 6 && s.nb == 0) := by
  rw [resetKeeps, ← decide_not]
  simp only [Nat.not_le, Nat.succ_le_iff]

theorem begun_mem (s : State) (cause : Nat) :
    (s.begun cause).mem = s.mem.forget (if s.resetKeeps cause then fwEnd else 0) (2 ^ 48) s.fresh := rfl

theorem begun_cause (s : State) (cause : Nat) : (s.begun cause).pw.cause = if s.pw.seq = none then cause else s.pw.cause := by
  show (if s.pw.seq.isSome then s.pw.cause else cause) = _
  cases s.pw.seq <;> simp

theorem begun_merged (s : State) (cause : Nat) : (s.begun cause).pw.merged = if s.pw.seq = none then 0 else min 255 (s.pw.merged + 1) := by
  show (if s.pw.seq.isSome then min 255 (s.pw.merged + 1) else 0) = _
  cases s.pw.seq <;> simp

/-- Kept LPDDR5X keeps every byte. -/
theorem byte_begun {s : State} {cause a : Nat} (kept : s.resetKeeps cause = true) (low : a < fwEnd) :
    (s.begun cause).mem.byte a = s.mem.byte a := by
  rw [begun_mem, kept]
  exact Memory.byte_forget_outside _ _ _ _ _ (.inl low)

end State

/-- Settles O15: what the wipe leaves, the steps that follow keep. -/
theorem resetClearsTheDevice : Obligations.ResetClearsTheDevice := by
  intro s cause t kept
  have boots : (s.begun cause).Boots t := s.seqBegin_boots cause
  have keeps : s.resetKeeps cause = kept := s.resetKeeps_eq cause
  clear_value t kept
  obtain ⟨u, rfl⟩ : ∃ u, t = (s.begun cause).booted u := ⟨t, boots.same rfl⟩
  refine ⟨rfl, rfl, rfl, rfl, rfl, rfl, rfl, fun p => ⟨rfl, rfl, rfl⟩, rfl, rfl, rfl, rfl, rfl, rfl, ?mem, fun warm a low => ?byte,
    rfl, rfl, rfl, rfl, rfl, rfl, rfl, rfl, s.begun_cause cause, s.begun_merged cause, rfl, rfl⟩
  case mem => rw [← keeps]; rfl
  case byte => exact State.byte_begun (keeps.trans warm) low

end Sys2Proof.Machine
